-- ==== Sys2Proof/Word.lean ====
section
/-! DEFINITION. The word types of the module (00_scope.md R6: registers and memory words are 32 bits,
little-endian; a light level is 16 bits, R7) and their plainest readings as integers. -/

namespace Sys2Proof

/-- A register or a memory word. -/
abbrev Word := BitVec 32

/-- One byte of F, I, C, an image or a message. -/
abbrev Byte := BitVec 8

end Sys2Proof
end

