-- ==== Sys2Proof/Config.lean ====
section
/-! DEFINITION. What the part fixes (00_scope.md R1, R4) and the values the spec leaves open: opaque constants, so that
no proof can rest on a particular value of one. -/

namespace Sys2Proof

/-- The three size variants, R1. -/
inductive Size where
  | cm02k | cm08k | cm16k
  deriving DecidableEq, Repr

/-- What the part number fixes, R4: size, meter island fitted, and the 902–928 MHz band (else 863–870 MHz). -/
structure Part where
  size : Size
  meter : Bool
  bandU : Bool
  deriving DecidableEq, Repr

namespace Part

/-- SYS_IDENT.SIZE. -/
def sizeCode (p : Part) : Nat :=
  match p.size with
  | .cm02k => 1
  | .cm08k => 2
  | .cm16k => 3

/-- Lantern records, R1. -/
def lanterns (p : Part) : Nat :=
  match p.size with
  | .cm02k => 2048
  | .cm08k => 8192
  | .cm16k => 16384

/-- Rods, R1. -/
def rods (p : Part) : Nat :=
  match p.size with
  | .cm02k => 8
  | .cm08k => 16
  | .cm16k => 16

/-- Beads, R28. -/
def beads (p : Part) : Nat := 64 * p.rods

/-- Local sink channels, R1. -/
def chans (p : Part) : Nat :=
  match p.size with
  | .cm02k => 8
  | .cm08k => 16
  | .cm16k => 24

/-- Transceivers, R1. -/
def trxs (p : Part) : Nat :=
  match p.size with
  | .cm02k => 1
  | .cm08k => 2
  | .cm16k => 2

/-- Concurrent receive channels, R1. -/
def demods (p : Part) : Nat :=
  match p.size with
  | .cm02k => 4
  | .cm08k => 8
  | .cm16k => 8

/-- Time-stamped event inputs fitted, R1. -/
def evin (p : Part) : Bool :=
  match p.size with
  | .cm16k => true
  | _ => false

/-- Words of backup RAM, R1: 128 bytes, or 32 on QG-CM16K. -/
def bkpWords (p : Part) : Nat :=
  match p.size with
  | .cm16k => 8
  | _ => 32

/-- ICU targets 0 to 15 for the rods, 16 and 17 for the supervisor cores, 04_event_delivery.md R109. -/
def hasTarget (p : Part) (t : Nat) : Bool := decide (t < p.rods) || decide (t = 16) || decide (t = 17)

end Part

/-! Free values: nothing constrains them (log entries 9 to 11). -/

/-- A value the spec leaves open, drawn by the step's counter. -/
opaque Config.free : Nat → Nat

/-- The true geometric elevation of the sun's centre in degrees × 2^24 at a UTC instant (ms) for a latitude and longitude in Q9.23
degrees, 03_marric_instruction_set.md R90. -/
opaque Config.sunTrue : Int → Int → Nat → Int

/-- What the module's own model of the sun differs by from the true elevation, before its bound of 0.1° (R90). -/
opaque Config.sunError : Int → Int → Nat → Int

/-- What the crossing instant that SUNEV reports differs by from the model's crossing, in ms, before its bound of 5 s (R91). -/
opaque Config.sunSlip : Int → Int → Nat → Int

/-- Whether an intermediate level of a fade, numerator over denominator, is rounded up: 11_local_drive.md R292 gives no
rounding. -/
opaque Config.fadeUp : Nat → Nat → Bool

/-- SHA-256 of a byte string. -/
opaque Config.sha256 : List Byte → List Byte

/-- A signature check: key, message, signature. -/
opaque Config.sigValid : List Byte → List Byte → List Byte → Bool

/-- Authenticated decryption (AES-GCM): key, nonce, ciphertext; none when the tag fails. -/
opaque Config.decrypt : List Byte → List Byte → List Byte → Option (List Byte)

/-- The matching authenticated encryption. -/
opaque Config.encrypt : List Byte → List Byte → List Byte → List Byte

/-- HKDF-SHA-256 (RFC 5869): input keying material, salt, info, length of the output (17 R395, R397). -/
opaque Config.hkdf : List Byte → List Byte → List Byte → Nat → List Byte

/-- AES key wrap (RFC 3394): wrapping key, key; and its inverse, none when the integrity check fails (17 R389, R397). -/
opaque Config.keyWrap : List Byte → List Byte → List Byte
opaque Config.keyUnwrap : List Byte → List Byte → Option (List Byte)

/-- A signature: key, message. -/
opaque Config.sign : List Byte → List Byte → List Byte

/-- LOSS of a period in which E_MET is 0, from E_LANT (07 R210 divides by E_MET). -/
opaque Config.lossOfZero : Nat → Int

/-- The CCM* integrity code of a secured radio frame: key, sequence number, module time of its SFD end (10 R284; the standard's octets
are not modelled). -/
opaque Config.airMic : List Byte → Nat → Nat → List Byte

/-- The fraction of a nanosecond of a tick edge, in 2^-16 ns (10 R266), and whether a frame length between two steps of the tick's 2 ns
is rounded up (10 R281), each for a draw. -/
opaque Config.timeFrac : Nat → Nat
opaque Config.tickUp : Nat → Bool

/-- NTU_RADIO.OUI, which 10_network_time.md calls fixed without a value. -/
opaque Config.ntuOui : BitVec 24

/-- Material that the factory put into KEY[0], the vendor half of KEY[1] and KEY[3] (17 R387). -/
opaque Config.factoryKey : Nat → List Byte

/-- The digest of the part of a kind and index with which the module leaves the factory, and of the same part of the empty slot (17 R394,
18 R404). -/
opaque Config.factoryDigest : Nat → Nat → List Byte

/-- The module's serial number, 8 bytes. -/
opaque Config.serial : Nat

/-- The image of the first-stage loader (17 R394). -/
opaque Config.loader : List Byte

/-- The fixed digest of the key store's test operation (17 R393). -/
opaque Config.testDigest : List Byte

/-- Bytes that the NAND program store holds (05 R134 check 14). -/
opaque Config.programStore : Nat

/-- The owner half of KEY[1] that a KEY_POLICY part carries (17 R388, 18 R414). -/
opaque Config.policyOwner : List Byte → List Byte

/-- How far the pad's baseline moves at a sample, in 2^-16 counts, from the baseline before and the reading: 20 R440 gives the time
constant and no rounding (log 115 has the bounds that the model sets it). -/
opaque Config.padTrack : Nat → Nat → Nat

/-- Whether RIGHT on the last page leads to the first and LEFT back (20 R442), whether a digit of the PIN wraps at its ends, and
whether the digit position does (20 R444). -/
opaque Config.pageWraps : Bool
opaque Config.digitWraps : Bool
opaque Config.posWraps : Bool

/-- Byte n of the frame buffer that shows a page, for a draw (20 R442 gives what a page shows, not its pixels). -/
opaque Config.pixelByte : Nat → Nat → Nat → BitVec 8

/-- The PIN on the module's label, and the bytes of a PIN as it is hashed (20 R444, R445). -/
opaque Config.factoryPin : Nat
opaque Config.pinBytes : Nat → List Byte

/-- Word k of a number that no record of log l holds, between its tail and its head (16 R386, log entry 101). -/
opaque Config.evrHole : Nat → Nat → Nat → BitVec 32

/-- A resumption token of 16 bytes (19 R421), from a draw. -/
opaque Config.sessionToken : Nat → Nat

/-- The public key of an ECDSA private key, in uncompressed form (17 R401). -/
opaque Config.publicKey : List Byte → List Byte

/-- The key identifier of an ECDSA key, as an island record gives it. -/
opaque Config.keyId : List Byte → Nat

end Sys2Proof
end

