-- ==== Sys2Proof/Types.lean ====
section
/-! DEFINITION. The small types the commands and the state share: status codes, requesters, operand forms. -/

namespace Sys2Proof

/-- Status codes, 00_scope.md R10. -/
inductive Status where
  | ok | busy | refusedState | invalid | range | locked | revoked | integrity | noSpace | timeout | version | duplicate
  | auth | budget | notReady | late | dateInvalid
  deriving DecidableEq, Repr

/-- Who asks for a register access: a GSP session slot, a bead, the supervisor firmware, the panel, or the watch core. -/
inductive Requester where
  | gsp (session : Nat)
  | bead (n : Nat)
  | sup
  | panel
  | watch
  deriving DecidableEq, Repr

/-- The B operand of a vector instruction, 03_marric_instruction_set.md R72: a vector, or S0 to S15 broadcast. -/
inductive VB where
  | vec (v : Fin 16)
  | bcast (s : Fin 16)
  deriving DecidableEq, Repr

/-- A join request (07 R179): EUI-64, generation, the LAP versions offered, hardware type, firmware, rated power, failsafe level. -/
structure JoinReq where
  eui : Nat
  gen2 : Bool
  lap2 : Bool
  lap3 : Bool
  hw : Nat
  fw : Nat
  rated : Nat
  failsafe : Nat
  deriving DecidableEq, Repr

/-- What happens during cycles 0 to 2 of an entry, 04_event_delivery.md R116: nothing, another source is asserted (SRC[1] by a fault
class, SRC[13] by an edge of an event input, SRC[72] by a node entered in the enrol list), the condition of the source being entered
ends, or a STOP takes its bound bead out of WAIT_EVENT (02_frame_engine.md R67). -/
inductive EntryEvent where
  | quiet
  | raised (s : Nat)
  | faulted (cls : Fin 9)
  | edge (i : Fin 4) (rising : Bool)
  | sighted (q : JoinReq)
  | dropped
  | stopped
  deriving DecidableEq, Repr

/-- How an operation of the cryptographic engine ends (17 R392, R393): well; with the active half of its slot failing the integrity check; or
with the new half of a replacement failing its read-back or its test operation. -/
inductive KeyEnd where
  | good | slot | half
  deriving DecidableEq, Repr

/-- The cipher suite on which a TLS or DTLS handshake ends (19 R418). -/
inductive TlsSuite where
  | aes128GcmSha256 | aes256GcmSha384 | other
  deriving DecidableEq, Repr

/-- How a session is closed (19 R423, R426): by its client, by a fatal alert, or by a message that cannot be parsed, as it came. -/
inductive SessLeave where
  | client | alert
  | message (bytes : List (BitVec 8))
  deriving DecidableEq, Repr

/-- What the supervisor asks of the key store (17 R396): SEAL bytes under a slot into the sealed-data area, or UNSEAL bytes sealed under a
slot with an IV. -/
inductive SealAsk where
  | seal (slot : Fin 32) (data : List (BitVec 8))
  | unseal (slot : Fin 32) (iv sealed : List (BitVec 8))
  deriving DecidableEq, Repr

/-- How a parity failure of a bead read ends, 02_frame_engine.md R58: the first or the second access replay passes, the
twin restores the word (F only), or the word stays bad. -/
inductive ReplayEnd where
  | firstPass | secondPass | twinGood | unresolved
  deriving DecidableEq, Repr

/-- The events the units report to the event recorder. The spec gives most of them no number: the CODE of each is open
(log entry 12). -/
inductive Event where
  | gap | timeSet | beadFault | broadcastDiscarded | portwrDiscarded | storm | fault | doubleFault | flowFormat | peerLost | watchRule | drvDiag | feederFeedback | ainWire | rtcStep | asymSuspect
  | authRefused | sessionOpen | keyLoad | keyInvalid | keyIntegrity | staging | retired | joinVersion | reconFlag | update | meterLink | meterGap | meterAlarm
  | helloVersion | imageVersion | manifestVersion | pinOk | peerId | chatter | stuck | pinLock | serviceEnd | supplyLoss | islandLog
  deriving DecidableEq, Repr

/-- The CODE of an event (16_event_recorder.md R379: the owning chapters define it; the text gives no numbers). -/
opaque Config.eventCode : Event → BitVec 16

/-- The bytes of a record's key, and those of its data, as far as the owning chapter defines any: their layout is open. Equal key bytes are equal
keys. -/
opaque Config.recKey : Event → List Nat → List Byte
opaque Config.recData : Event → List Nat → List Byte

end Sys2Proof
end

