-- ==== Sys2Proof/Inputs.lean ====
section
/-! DEFINITION. What the commands bring in from outside, as records: received frames, sensed values, measurements. -/

namespace Sys2Proof

/-- One element of a FLOW_XCHG message (06 R171): sender's link, receiver's link, outflow, LEN, cells (RHO, VEL, CONF). -/
structure FlowElem where
  sendLink : Nat
  recvLink : Nat
  outflow : Nat
  len : Nat
  cells : List (Nat × Nat × Nat)
  deriving DecidableEq, Repr

/-- An address of a received frame. -/
inductive RxAddr where
  | absent
  | short (a : Nat)
  /-- The module's own extended address. -/
  | own
  | ext (eui : Nat)
  deriving DecidableEq, Repr

/-- What an uplink frame says of its originator's route (09 R259). -/
structure RxRoute where
  lid : Nat
  parent : Nat
  hops : Nat
  lqi : Nat
  deriving DecidableEq, Repr

/-- A frame as a demodulator received it (08 R219, R225, R231). -/
structure RxFrame where
  demod : Nat
  /-- PSDU octets, and those of the acknowledgement's PSDU. -/
  psdu : Nat
  ackOctets : Nat
  seq : Nat
  phrOk : Bool
  fcs2 : Bool
  white : Bool
  fcsOk : Bool
  /-- Frame version, and whether the frame type is a reserved one or an acknowledgement. -/
  version : Nat
  badType : Bool
  isAck : Bool
  ar : Bool
  pan : Option Nat
  dest : RxAddr
  src : RxAddr
  rssi : Int
  cfo : Int
  /-- Module time of SFD detection: ns, and the fraction in 2^-16 ns. -/
  sfdNs : Nat
  sfdFrac : Nat
  /-- T_S:T_NS + CORR of a GTIME element, in ns. -/
  gtime : Option Int
  route : Option RxRoute
  /-- The new CI code of a CI_CHANGE frame. -/
  ci : Option Nat
  deriving DecidableEq, Repr

/-- One sample of the watch core (14 R357) with the supply voltages of PWR in 10 mV. -/
structure WatchIn where
  photo : Nat
  mains : Nat
  door : Bool
  tamper : Bool
  keys : Nat
  /-- Q8.8 °C. -/
  temp : Int
  vaux : Nat
  store : Nat
  vbkp : Nat
  charging : Bool
  din : Nat
  deriving DecidableEq, Repr

/-- What DRV, LCE and the die sense once a frame: bus and VLEDIN in 10 mV, the sink bank in signed Q9.7 °C, the junction in
Q8.8 °C (02 R53), the analogue inputs in µV, in current mode in nA (12 R311). -/
structure Sense where
  vbus : Nat
  vledin : Nat
  bank : Int
  junction : Int
  ain : List Nat
  deriving DecidableEq, Repr

/-- The inputs of a loop sample: the analogue inputs in µV, in current mode in nA (12 R311), the bus voltage in 10 mV and the boost
current in mA (12 R310). -/
structure LoopIn where
  ain : List Nat
  vbus : Nat
  boost : Nat
  deriving DecidableEq, Repr

/-- An Announce of a port's best qualified foreign master (10 R267, R270): its dataset, the interval of its Announces in ms, the
UTC offset when currentUtcOffsetValid is set, and its leap flags. `unsupported`: it relies on what R269 excludes. -/
structure Announce where
  priority1 : Nat
  clockClass : Nat
  accuracy : Nat
  variance : Nat
  priority2 : Nat
  /-- Grandmaster identity, octets 0 to 7 as a big-endian number. -/
  gm : Nat
  /-- Steps removed, and the sending port's identity. -/
  steps : Nat
  source : Nat
  intervalMs : Nat
  utcOffset : Option Int
  leap61 : Bool
  leap59 : Bool
  /-- 0 layer 2, 1 UDP over IPv4, 2 UDP over IPv6. -/
  transport : Nat
  domain : Nat
  /-- It relies on something 10 R269 does not support. -/
  unsupported : Bool
  deriving DecidableEq, Repr

/-- How a Sync or delay message came (10 R269), with the meaning of the fields of Announce. -/
structure PtpVia where
  transport : Nat
  domain : Nat
  unsupported : Bool
  deriving DecidableEq, Repr

/-- A capture of t2 at the MAC less t1, in ns, and how its Sync came (10 R272). -/
structure PtpSync where
  via : PtpVia
  raw : Int
  deriving DecidableEq, Repr

/-- A delay exchange: how it came, whether peer to peer, and (t2 − t1) + (t4 − t3) as captured at the MAC less the correctionField
terms, in ns (10 R272). -/
structure PtpDelay where
  via : PtpVia
  p2p : Bool
  sum : Int
  deriving DecidableEq, Repr

/-- The end of a store charge (14 R348): the voltage reached in 10 mV and the charge delivered in mC. -/
structure StoreCharge where
  to10mv : Nat
  charge : Nat
  deriving DecidableEq, Repr

/-- An island log record (R342): its index is its place. -/
structure IslRec where
  code : Nat
  secs : Nat
  data : List Byte
  deriving DecidableEq, Repr

/-- A measurement record (R337). -/
structure Meas where
  seq : Nat
  secs : Nat
  status : Nat
  energy : List Nat
  demLast : Nat
  demMax : Nat
  demPer : Nat
  demPrev : Nat
  demFlags : Nat
  freq : Nat
  /-- Per phase: V, PF, I, P, Q as 16- and 32-bit fields. -/
  phases : List (List Nat)
  /-- Per feeder: E, P. -/
  feeders : List (Nat × Nat)
  events : List Nat
  used : Nat
  unlogged : Nat
  alarm : Nat
  deriving DecidableEq, Repr

/-- What the island measures over one second (13 R326, R327): the active and reactive energy of each phase at the CT secondary, signed, in
10 nWh or 10 nvarh; frequency; the five values of each phase as in a record; increment of E and P of each feeder. -/
structure IslandIn where
  active : List Int
  reactive : List Int
  freq : Nat
  phases : List (List Nat)
  feeders : List (Nat × Nat)
  deriving DecidableEq, Repr

/-- A part map of a manifest (18 R406). -/
structure ManifestPart where
  kind : Nat
  index : Nat
  version : Nat
  least : Nat
  size : Nat
  digest : List Byte
  hw : Nat
  deriving DecidableEq, Repr

/-- A manifest as its CBOR items decode (18 R405). `formed`: its structure follows R405 and R406; `sigs`: what each signature covers, and
the signature. -/
structure Manifest where
  formed : Bool
  format : Nat
  seq : Nat
  sizes : Nat
  dieRev : Nat
  parts : List ManifestPart
  bmr : List Byte
  storeFmt : Nat
  sigs : List (List Byte × List Byte)
  deriving DecidableEq, Repr

/-- A lantern's status report (07 R185): `failsafe` and `latched` (boundary in s of UTC, reading) under LAP 3 only; ENERGY in the
units of its LAP version. -/
structure StatusReport where
  level : Nat
  power : Nat
  energy : Nat
  store : Nat
  fw : Nat
  failsafe : Option Nat
  latched : Option (Nat × Nat)
  mains : Bool
  deriving DecidableEq, Repr

/-- A lantern's answer (07 R193, R213): the command and its transaction ID, OK or its own refusal, whether from its cache, the
data, a status for READ_STATUS and READ_ENERGY, and the blocks a READ_BITMAP shows missing. -/
structure CmdAnswer where
  code : Nat
  txn : Nat
  st : Status
  cached : Bool
  data : List Byte
  report : Option StatusReport
  missing : List Nat
  deriving DecidableEq, Repr

/-- A KEY_LOAD request (17 R389): slot, type, USAGE, derivation, the wrapping slot, the material as it came, the signature under
the present OWNER_CA, and the proof signature. -/
structure KeyLoad where
  slot : Nat
  typ : Nat
  usage : Nat
  derived : Bool
  parent : Nat
  label : List Byte
  wrap : Option Nat
  material : List Byte
  ownerSig : List Byte
  proof : List Byte
  deriving DecidableEq, Repr

/-- A signed message to the island (13 R330): the serial number and the nonce it names, its body and its signature. -/
structure SignedMsg where
  formed : Bool
  serial : Nat
  nonce : Nat
  body : List Byte
  sig : List Byte
  deriving DecidableEq, Repr

end Sys2Proof
end

