-- ==== Sys2Proof/Syntax.lean ====
section
/-! DEFINITION. The commands: one constructor per row of the table. -/

namespace Sys2Proof

/-- The commands the block takes. -/
inductive Instr where
  -- Power, frame engine and registers
  | vauxValid (us : Nat) (count : Fin 32768)
  | functionReady (n : Fin 18) (us : Fin 20000)
  | vauxLost (us : Fin 20000) (store : Nat) (mj : Nat)
  | lastTaskComplete (us : Nat) (mj : Nat)
  | onyxDeadline
  | storeLost
  | vbkpLost
  | storeChargeEnd (us : Fin 20000) (from10mv : Nat) (c : StoreCharge)
  | pwrReqWrite (who : Requester) (us : Fin 20000) (agate : Bool)
  | frameEdge (x : Sense) (replays : Nat) (lost : List Nat)
  | execStart
  | portAccessComplete (us : Fin 20000)
  | budgetAbort (n : Fin 1024)
  | accessReplay (n : Fin 1024) (addr : Nat) (inF : Bool) (e : ReplayEnd)
  | barOpen (bad : List Nat)
  | barComplete (d : Fin 40000)
  | barOverrun
  | downlinkOffer (us : Fin 20000)
  | beadStart (who : Requester) (us : Fin 20000) (n : Fin 1024)
  | beadStop (who : Requester) (us : Fin 20000) (n : Fin 1024)
  | beadReset (who : Requester) (us : Fin 20000) (n : Fin 1024)
  | rodAdmitLimitWrite (who : Requester) (us : Fin 20000) (v : Word)
  | registerWrite (who : Requester) (us : Fin 20000) (a : Nat) (v : Word)
  | rclrRead (g : Fin 8) (us : Fin 20000) (a : Nat)
  | loLatchRead (who : Requester) (us : Fin 20000) (a : Nat)
  | ntuTimeRead (who : Requester) (us : Fin 20000)
  | rtcDateRead (who : Requester) (us : Fin 20000)
  -- Marric instructions, issued by the bead now current on rod `r` (03)
  | add (r : Fin 16) (d : Fin 32) (a : Fin 32) (b : Fin 32)
  | sub (r : Fin 16) (d : Fin 32) (a : Fin 32) (b : Fin 32)
  | and (r : Fin 16) (d : Fin 32) (a : Fin 32) (b : Fin 32)
  | or (r : Fin 16) (d : Fin 32) (a : Fin 32) (b : Fin 32)
  | xor (r : Fin 16) (d : Fin 32) (a : Fin 32) (b : Fin 32)
  | shl (r : Fin 16) (d : Fin 32) (a : Fin 32) (b : Fin 32) (sh : Fin 32)
  | shr (r : Fin 16) (d : Fin 32) (a : Fin 32) (b : Fin 32) (sh : Fin 32)
  | sar (r : Fin 16) (d : Fin 32) (a : Fin 32) (b : Fin 32) (sh : Fin 32)
  | min (r : Fin 16) (d : Fin 32) (a : Fin 32) (b : Fin 32)
  | max (r : Fin 16) (d : Fin 32) (a : Fin 32) (b : Fin 32)
  | adds (r : Fin 16) (d : Fin 32) (a : Fin 32) (b : Fin 32)
  | subs (r : Fin 16) (d : Fin 32) (a : Fin 32) (b : Fin 32)
  | mulq (r : Fin 16) (d : Fin 32) (a : Fin 32) (b : Fin 32) (sh : Fin 32)
  | macq (r : Fin 16) (d : Fin 32) (a : Fin 32) (b : Fin 32) (sh : Fin 32)
  | divq (r : Fin 16) (d : Fin 32) (a : Fin 32) (b : Fin 32) (sh : Fin 32)
  | abs (r : Fin 16) (d : Fin 32) (a : Fin 32)
  | clamp (r : Fin 16) (d : Fin 32) (a : Fin 32) (b : Fin 32)
  | sel (r : Fin 16) (d : Fin 32) (a : Fin 32) (b : Fin 32) (cond : Fin 16)
  | cmp (r : Fin 16) (a : Fin 32) (b : Fin 32)
  | mov (r : Fin 16) (d : Fin 32) (a : Fin 32)
  | addi (r : Fin 16) (d : Fin 32) (a : Fin 32) (imm : BitVec 14)
  | andi (r : Fin 16) (d : Fin 32) (a : Fin 32) (imm : BitVec 16)
  | ori (r : Fin 16) (d : Fin 32) (a : Fin 32) (imm : BitVec 16)
  | xori (r : Fin 16) (d : Fin 32) (a : Fin 32) (imm : BitVec 16)
  | shli (r : Fin 16) (d : Fin 32) (a : Fin 32) (n : Fin 32)
  | shri (r : Fin 16) (d : Fin 32) (a : Fin 32) (n : Fin 32)
  | sari (r : Fin 16) (d : Fin 32) (a : Fin 32) (n : Fin 32)
  | cmpi (r : Fin 16) (a : Fin 32) (imm : BitVec 14)
  | liShort (r : Fin 16) (d : Fin 32) (imm : BitVec 16)
  | lui (r : Fin 16) (d : Fin 32) (imm : BitVec 16)
  | liLong (r : Fin 16) (d : Fin 32) (w : Word)
  | tli (r : Fin 16) (d : Fin 32) (a : Fin 32) (b : Fin 32)
  | vadd (r : Fin 16) (d : Fin 16) (a : Fin 16) (b : VB) (k : Fin 4) (sat : Bool)
  | vsub (r : Fin 16) (d : Fin 16) (a : Fin 16) (b : VB) (k : Fin 4) (sat : Bool)
  | vmulq (r : Fin 16) (d : Fin 16) (a : Fin 16) (b : VB) (k : Fin 4) (sh : Fin 32)
  | vmacq (r : Fin 16) (d : Fin 16) (a : Fin 16) (b : VB) (k : Fin 4) (sh : Fin 32)
  | vmin (r : Fin 16) (d : Fin 16) (a : Fin 16) (b : VB) (k : Fin 4)
  | vmax (r : Fin 16) (d : Fin 16) (a : Fin 16) (b : VB) (k : Fin 4)
  | vclamp (r : Fin 16) (d : Fin 16) (a : Fin 16) (b : VB) (k : Fin 4)
  | vsel (r : Fin 16) (d : Fin 16) (a : Fin 16) (b : VB) (k : Fin 4)
  | vcmp (r : Fin 16) (t : Fin 4) (a : Fin 16) (b : VB) (k : Fin 4) (cond : Fin 8)
  | vredSum (r : Fin 16) (d : Fin 32) (a : Fin 16) (k : Fin 4) (sh : Fin 32)
  | vredMin (r : Fin 16) (d : Fin 32) (a : Fin 16) (k : Fin 4)
  | vredMax (r : Fin 16) (d : Fin 32) (a : Fin 16) (k : Fin 4)
  | ldf (r : Fin 16) (d : Fin 32) (a : Fin 32) (size : Fin 4) (imm : BitVec 14)
  | stf (r : Fin 16) (d : Fin 32) (a : Fin 32) (size : Fin 4) (imm : BitVec 14)
  | ldi (r : Fin 16) (d : Fin 32) (a : Fin 32) (size : Fin 4) (imm : BitVec 14)
  | sti (r : Fin 16) (d : Fin 32) (a : Fin 32) (size : Fin 4) (imm : BitVec 14)
  | portrd (r : Fin 16) (d : Fin 32) (a : Fin 32) (imm : BitVec 14)
  | portwr (r : Fin 16) (d : Fin 32) (a : Fin 32) (imm : BitVec 14)
  | lset (r : Fin 16) (c : Fin 2) (kind : Fin 6) (a : Fin 32) (inter : Bool) (w : Word)
  | lnext (r : Fin 16) (d : Fin 16) (k : Fin 4) (c : Fin 2)
  | ltg (r : Fin 16) (d : Fin 16) (a : Fin 16) (k : Fin 4) (off : Fin 128) (width : Fin 4) (sx : Bool)
  | lts (r : Fin 16) (d : Fin 16) (a : Fin 16) (k : Fin 4) (off : Fin 128) (width : Fin 4)
  | time (r : Fin 16) (d : Fin 32) (kind : Fin 7) (us : Fin 20000)
  | calFields (r : Fin 16) (d : Fin 32) (a : Fin 32)
  | calDue (r : Fin 16) (d : Fin 32) (a : Fin 32) (w : Word)
  | sun (r : Fin 16) (d : Fin 32)
  | sunev (r : Fin 16) (d : Fin 32) (a : Fin 32) (rising : Bool)
  | flowrd (r : Fin 16) (d : Fin 16) (a : Fin 16) (k : Fin 4) (h : Fin 4)
  | flowdet (r : Fin 16) (a : Fin 32) (b : Fin 32)
  | lvl (r : Fin 16) (a : Fin 16) (b : VB) (k : Fin 4)
  | tlb (r : Fin 16) (a : Fin 32) (fade : BitVec 14)
  | post (r : Fin 16) (d : Fin 32) (a : Fin 32) (b : Fin 16) (cmd : BitVec 8) (len : Fin 64)
  | drvset (r : Fin 16) (a : Fin 32) (b : Fin 32)
  | tally (r : Fin 16) (d : Fin 32) (a : Fin 32) (b : Fin 32)
  | br (r : Fin 16) (off : BitVec 16)
  | brc (r : Fin 16) (cond : Fin 16) (off : BitVec 16)
  | loop (r : Fin 16) (a : Fin 32) (max : BitVec 12) (body : BitVec 9)
  | call (r : Fin 16) (addr : BitVec 16)
  | ret (r : Fin 16)
  | evwait (r : Fin 16)
  | eoi (t : Fin 18) (ev : EntryEvent)
  | halt (r : Fin 16)
  | nop (r : Fin 16)
  | raise (r : Fin 16) (a : Fin 32) (n : BitVec 6)
  | fault (r : Fin 16) (code : BitVec 14)
  -- Event delivery (04)
  | icuDispatch (t : Fin 18) (us : Fin 20000) (ev : EntryEvent)
  | moderationExpire (t : Fin 18)
  | icuSwsetWrite (who : Requester) (us : Fin 20000) (k : Fin 2) (v : Word)
  | icuSrcCfgWrite (who : Requester) (us : Fin 20000) (n : Fin 256) (v : Word)
  -- Images and tables (05)
  | imageLoad (i : Fin 8) (id : Nat) (len : Nat) (data : List Byte) (txn : Bool)
  | imageVerify (i : Fin 64) (us : Fin 20000)
  | imageActivate (who : Requester) (us : Fin 20000) (i : Fin 64)
  | imageDeactivate (who : Requester) (us : Fin 20000) (i : Fin 64)
  | imageUnload (who : Requester) (us : Fin 20000) (i : Fin 64)
  | imageActivateTimeout (i : Fin 64)
  | imageReverify (us : Fin 20000)
  | ltabDataWrite (i : Fin 8) (us : Fin 20000) (k : Fin 8192) (v : Word)
  | configSave (us : Fin 20000)
  -- Flow reckoner (06)
  | flowUpdate (replays : Nat) (lost : List Nat)
  | flowUpdateComplete (us : Nat)
  | flowApply
  | flowClear
  | flowRunWrite (run : Bool)
  | flowXchgReceive (peer : Fin 8) (us : Fin 20000) (format : Nat) (frame : Nat) (elems : List FlowElem)
  | peerLost (peer : Fin 8)
  -- Segment and tally (07)
  | joinReq (us : Fin 20000) (q : JoinReq)
  | setFailsafe (lid : Fin 16384)
  | statusReport (lid : Fin 16384) (us : Fin 20000) (n : Nat) (r : StatusReport)
  | staleTimeout (lid : Fin 16384)
  | detectionReport (lid : Fin 16384) (us : Fin 20000) (n : Nat) (cls : Nat) (dir : Nat) (speed : Nat) (timeNs : Nat)
  | lanternFaultReport (lid : Fin 16384) (us : Fin 20000) (n : Nat) (code : Fin 256) (raised : Bool)
  | unreachableTimeout (lid : Fin 16384)
  | faultSummary
  | cmdResponse (lid : Fin 16384) (us : Fin 20000) (a : CmdAnswer)
  | cmdRetry (lid : Fin 16384)
  | cmdTimeout (lid : Fin 16384)
  | trafficHoldEnd (l : Fin 16408)
  | safetyExpire (k : Fin 16)
  | loadShed
  | reconPeriodEnd
  | fwCampaignStart (who : Requester) (us : Fin 20000) (image : Fin 16)
  | fwCampaignActivate (who : Requester) (us : Fin 20000) (image : Fin 16)
  | fwCampaignAbort (who : Requester) (us : Fin 20000) (image : Fin 16)
  | campaignAnnounceDone (us : Fin 20000)
  | campaignPassSent (us : Fin 20000)
  | campaignPollEnd (us : Fin 20000)
  | campaignVerifyEnd (us : Fin 20000)
  | campaignActivateEnd
  -- Radio and links (08, 09)
  | radioFrameReceive (phr : Bool) (f : RxFrame) (us : Fin 20000)
  | ackTransmit (x : Fin 2)
  | launch (x : Fin 2) (us : Fin 20000) (energy : Int)
  | ccaRetry (x : Fin 2) (energy : Int)
  | radDemodWrite (who : Requester) (us : Fin 20000) (d : Fin 8) (v : Word)
  | radWinWrite (who : Requester) (us : Fin 20000) (x : Fin 2) (v : Word)
  | radHopCfgWrite (who : Requester) (us : Fin 20000) (k : Fin 68) (v : Word)
  | radRxpartWrite (who : Requester) (us : Fin 20000) (p : Fin 8) (v : Word)
  | g1WindowOpen (lid : Fin 16384)
  | g1WindowClose (lid : Fin 16384)
  | supervisionTimeout (lid : Fin 16384)
  | resyncBeacon (lid : Fin 16384) (us : Fin 20000)
  | ackWaitTimeout (x : Fin 2) (seq : Fin 256) (us : Fin 20000) (delay : Fin 4)
  | routeAdvSend
  | routeErr (lid : Fin 16384)
  | dstExpire (lid : Fin 16384)
  | radLinkMapCommit (who : Requester) (us : Fin 20000) (v : Word)
  | channelMapSwitch
  -- Network time (10)
  | ptpSyncMeasurement (p : Fin 2) (us : Fin 20000) (x : PtpSync) (corr : Int) (logSync : Fin 6)
  | ptpDelayResponse (p : Fin 2) (us : Fin 20000) (x : PtpDelay)
  | ptpAnnounce (p : Fin 2) (us : Fin 20000) (a : Announce)
  | masterLost (p : Fin 2)
  | ethernetLinkChange (p : Fin 2) (us : Fin 20000) (speed : Fin 4)
  | timeStep (us : Fin 20000)
  | ntuJumpAccept (who : Requester) (us : Fin 20000)
  | ntuPtpDisable (who : Requester) (us : Fin 20000)
  | leapSecond
  -- Local drive (11)
  | complianceCheck (c : Fin 24) (us : Fin 20000) (microamps : Nat) (headroom : Nat) (vbus : Nat)
  | busRampLimit (vbus : Nat)
  | handoverEnd
  | vledinLost (us : Fin 20000) (vledin : Nat)
  | vledinValid (us : Fin 20000) (vledin : Nat)
  | thermalShutdown (us : Fin 20000) (bank : Int)
  | drvRestart (who : Requester) (us : Fin 20000)
  | thermalAutoRetry
  | drvTest (who : Requester) (us : Fin 20000)
  | drvTestComplete (us : Fin 20000) (vbus : Nat) (vfs : List (Fin 24 × Nat))
  | openRetest (c : Fin 24) (microamps : Nat) (headroom : Nat) (vbus : Nat)
  | dropoutRetry (c : Fin 24)
  | drvIsetWrite (who : Requester) (us : Fin 20000) (v : Word)
  | drvChanCfgWrite (who : Requester) (us : Fin 20000) (c : Fin 24) (v : Word)
  | drvStoreLoaded (us : Fin 20000)
  | overrideSwitchChange (us : Fin 20000) (pos : Fin 3)
  | drvFeederCmdWrite (who : Requester) (us : Fin 20000) (f : Fin 6) (close : Bool)
  | feederChangeRelease (f : Fin 6)
  | feederFeedbackFault (f : Fin 6)
  | feederClosedSettle (f : Fin 6)
  -- Loop engine (12)
  | loopSample (l : Fin 4) (us : Fin 20000) (x : LoopIn)
  | loopClose (who : Requester) (us : Fin 20000) (l : Fin 4)
  | loopOpen (who : Requester) (us : Fin 20000) (l : Fin 4)
  | ainWireFault (k : Fin 4) (us : Fin 20000)
  | ainWireClear (k : Fin 4) (us : Fin 20000)
  | lceAoutManWrite (who : Requester) (us : Fin 20000) (k : Fin 2) (v : Word)
  | lceSpWrite (who : Requester) (us : Fin 20000) (l : Fin 4) (v : Word)
  | lceCfgWrite (who : Requester) (us : Fin 20000) (l : Fin 4) (k : Fin 64) (v : Word)
  | pinTimeout (k : Fin 2)
  -- Meter and island (13)
  | meterHello (us : Fin 20000) (bytes : List Byte)
  | meterMeas (us : Fin 20000) (bytes : List Byte)
  | meterLogrec (us : Fin 20000) (bytes : List Byte)
  | meterIdentRsp (us : Fin 20000) (bytes : List Byte)
  | meterTsyncRsp (us : Fin 20000) (bytes : List Byte)
  | meterChallenge (us : Fin 20000) (bytes : List Byte)
  | meterSealedMsg (us : Fin 20000) (bytes : List Byte)
  | meterLinkTimeout
  | metFwReq (who : Requester) (us : Fin 20000)
  | metTsyncReq (who : Requester) (us : Fin 20000)
  | tsyncAuto (us : Fin 20000)
  | islandTsync (bytes : List Byte) (frac : Fin 1000000)
  | islandIdent (bytes : List Byte)
  | islandSecond (q : IslandIn)
  | demandPeriodEnd
  | demandMonthEnd
  | sagSwell (k : Fin 3) (swell : Bool) (v : Nat) (ms : Nat)
  | sealOpen (m : SignedMsg) (jumper : Bool)
  | sealClose (m : SignedMsg)
  | setCal (m : SignedMsg) (ch : Fin 12) (consts : List Byte)
  | setCt (m : SignedMsg) (pri : Fin 65536) (sec1 : Bool)
  | testMode (m : SignedMsg) (mode : Nat)
  | fwLoad (m : SignedMsg) (fwid : Nat) (code : List Byte) (sig : List Byte)
  | fwActivate (m : SignedMsg)
  | setMkey (m : SignedMsg) (key : List Byte)
  | sealJumperRemoved
  | sealOpenTimeout
  | islandStop
  | islandStart (outage : Nat) (clock : Bool)
  -- Watch core (14)
  | watchSample (us : Fin 20000) (w : WatchIn)
  | photoFallbackArm (us : Fin 20000)
  -- Clock and calendar (15)
  | rtcSecondTick (us : Nat)
  | rtcSet (who : Requester) (us : Fin 20000) (v : Word)
  | oscillatorStop
  | rtcSteerCheck (us : Fin 20000)
  | rtcCalAuto
  | rtcAlmCtrlWrite (who : Requester) (us : Fin 20000) (k : Fin 2) (v : Word)
  | evinEdge (i : Fin 4) (us : Nat) (count : Fin 32768) (rising : Bool)
  | evinPop (who : Requester) (us : Fin 20000) (i : Fin 4)
  -- Event recorder (16)
  | evrRdSelect (who : Requester) (us : Fin 20000) (v : Word)
  -- Keys (17)
  | keyRecovery
  | keyLoad (i : Fin 8) (id : Nat) (q : KeyLoad)
  | keyCommitCopy2 (k : Fin 32) (us : Fin 20000)
  | keyRevoke (who : Requester) (us : Fin 20000) (k : Fin 32)
  | keyOperationComplete (us : Fin 20000) (e : KeyEnd) (asks : List SealAsk)
  | attest (i : Fin 8) (id : Nat) (nonce : List Byte)
  | retire (i : Fin 8) (id : Nat) (body : List Byte) (sig : List Byte)
  -- Update (18)
  | manifest (i : Fin 8) (id : Nat) (data : List Byte) (txn : Bool)
  | part (i : Fin 8) (id : Nat) (len : Nat) (data : List Byte) (txn : Bool)
  | forwardSealComplete (us : Fin 20000)
  | updActivate (who : Requester) (us : Fin 20000)
  | updConfirm (who : Requester) (us : Fin 20000)
  | updRollback (who : Requester) (us : Fin 20000)
  | updAbort (who : Requester) (us : Fin 20000)
  | controlPause
  | updateResume (bad : List (Fin 64 × Fin 20))
  | updateNoResume
  | confirmWindowExpire
  -- Host protocol (19)
  | sessionHandshake (conn : Nat) (service : Bool) (dtls : Bool) (suite : TlsSuite) (p256 : Bool) (subject : Nat) (role : Fin 5) (cert : List Byte) (sig : List Byte) (us : Fin 20000)
  | hello (conn : Nat) (lo : Nat) (hi : Nat) (features : Nat) (window : Nat) (token : Option Nat) (us : Fin 20000)
  | regRead (i : Fin 8) (id : Nat) (a : Nat) (n : Nat) (us : Fin 20000)
  | regWrite (i : Fin 8) (id : Nat) (a : Nat) (ws : List Word) (txn : Bool) (us : Fin 20000)
  | txnBegin (i : Fin 8) (id : Nat) (us : Fin 20000)
  | txnCommit (i : Fin 8) (id : Nat) (us : Fin 20000)
  | txnAbort (i : Fin 8) (id : Nat) (us : Fin 20000)
  | txnIdleTimeout (i : Fin 8)
  | logRead (i : Fin 8) (id : Nat) (log : Nat) (first : Nat) (n : Nat) (us : Fin 20000)
  | subscribe (i : Fin 8) (id : Nat) (mask : Nat)
  | lanternCmd (i : Fin 8) (id : Nat) (lid : Nat) (code : Fin 256) (payload : List Byte) (txn : Bool) (us : Fin 20000)
  | sealedMsg (i : Fin 8) (id : Nat) (msg : List Byte)
  | segment (i : Fin 8) (id : Nat) (off : Nat) (data : List Byte) (final : Bool) (us : Fin 20000)
  | credit (i : Fin 8) (id : Nat) (off : Nat) (window : Nat) (us : Fin 20000)
  | keepalive (i : Fin 8) (us : Fin 20000)
  | sessionIdleTimeout (i : Fin 8)
  | sessionClose (i : Fin 8) (how : SessLeave) (us : Fin 20000)
  | resumableExpire (i : Fin 8)
  | evrHeadNotify
  | peerHandshake (p : Fin 8) (serial : Nat) (good : Bool) (us : Fin 20000)
  | peerKeepalive (p : Fin 8) (from_ : Bool) (us : Fin 20000)
  | peerLinkDown (p : Fin 8)
  | peerRetry (p : Fin 8)
  -- Panel (20)
  | fpSample (us : Fin 20000) (raw : Fin 32768) (pad : Fin 65536)
  | keyStuck (k : Fin 7)
  | padHoldComplete
  | lampTestEnd
  | displayRefresh (us : Fin 20000)
  | displayBlank
  | pinLockoutEnd
  | fpPinSet (who : Requester) (us : Fin 20000) (v : Word)
  | usbDetach (cause : Fin 3) (us : Fin 20000)
  -- Faults (21)
  | faultServiceTimeout
  | appDomainReset (us : Fin 20000)
  | garnetRebuild (us : Fin 20000)
  | rodFltAck (who : Requester) (us : Fin 20000)
  | rodFltRelease (who : Requester) (us : Fin 20000)
  | rodWatchdog (r : Fin 16) (us : Fin 20000)
  | supplyFault (us : Fin 20000) (rail : Nat) (millivolts : Nat)
  | radioTimeoutFault (x : Fin 2) (us : Fin 20000)
  | nandEccFailure (us : Fin 20000) (block : Nat)
  | islandCoverChange (removed : Bool)
  | junctionLimit (us : Fin 20000) (above : Bool) (decidegrees : Int)
  -- Others
  | vbkpValid
  | feederFeedbackChange (f : Fin 6) (us : Fin 20000) (closed : Bool)
  | pulseEdge (k : Fin 2) (us : Fin 20000) (rising : Bool)
  | usbAttach (configured : Bool) (us : Fin 20000)
  | pinEntryTimeout
  | boundLevelApply
  deriving DecidableEq, Repr

end Sys2Proof
end

