-- ==== Sys2Proof/Machine/Fields.lean ====
section
/-! DEFINITION. A handle for every register field: the address of the first register, the array strides, the lowest bit
and the width, as the owning chapters' register maps give them. -/

namespace Sys2Proof.Machine

/-- A field of a register or of an array of registers. -/
structure Fld where
  addr : Nat
  stride : Nat
  stride2 : Nat
  lo : Nat
  width : Nat
  deriving DecidableEq, Repr

namespace R


def SYS_IDENT_SIZE : Fld := ⟨0x0, 0, 0, 0, 4⟩
def SYS_IDENT_DIE_REV : Fld := ⟨0x0, 0, 0, 8, 8⟩
def SYS_IDENT_METER : Fld := ⟨0x0, 0, 0, 16, 1⟩
def SYS_IDENT_BAND : Fld := ⟨0x0, 0, 0, 17, 1⟩
def SYS_IDENT_EVIN : Fld := ⟨0x0, 0, 0, 18, 1⟩
def SYS_IDENT_ISA_MAJOR : Fld := ⟨0x0, 0, 0, 24, 4⟩
def SYS_IDENT_ISA_MINOR : Fld := ⟨0x0, 0, 0, 28, 4⟩

def SYS_READY_READY : Fld := ⟨0x4, 0, 0, 0, 18⟩

def SYS_FRAME_COUNT_COUNT : Fld := ⟨0x8, 0, 0, 0, 32⟩

def SYS_READY_TIME_FRAME : Fld := ⟨0x100, 4, 0, 0, 32⟩

def ROD_ADMIT_LIMIT_LIMIT : Fld := ⟨0x30000, 0, 0, 0, 7⟩

def ROD_DERATE_LIMIT_Q8 : Fld := ⟨0x30004, 0, 0, 0, 16⟩
def ROD_DERATE_TJ : Fld := ⟨0x30004, 0, 0, 16, 16⟩

def ROD_PORT_COMPAT : Fld := ⟨0x30008, 0, 0, 0, 1⟩

def ROD_PORT_LOAD_BURSTS : Fld := ⟨0x3000C, 0, 0, 0, 23⟩

def ROD_BAR_TIME_LAST : Fld := ⟨0x30010, 0, 0, 0, 16⟩
def ROD_BAR_TIME_ENTRIES : Fld := ⟨0x30010, 0, 0, 16, 16⟩

def ROD_BAR_MAX_MAX : Fld := ⟨0x30014, 0, 0, 0, 16⟩

def ROD_CONFLICT_COUNT : Fld := ⟨0x30018, 0, 0, 0, 16⟩

def ROD_PARITY_ACCESS : Fld := ⟨0x3001C, 0, 0, 0, 16⟩
def ROD_PARITY_BEAD : Fld := ⟨0x3001C, 0, 0, 16, 16⟩

def ROD_LOG_FREE_ENTRIES : Fld := ⟨0x30020, 0, 0, 0, 19⟩

def ROD_LOAD_CYCLES : Fld := ⟨0x30100, 32, 0, 0, 23⟩

def ROD_ALLOW_CYCLES : Fld := ⟨0x30104, 32, 0, 0, 23⟩

def ROD_USED_CYCLES : Fld := ⟨0x30108, 32, 0, 0, 23⟩

def ROD_DEFER_COUNT : Fld := ⟨0x3010C, 32, 0, 0, 16⟩

def ROD_CUR_SLOT : Fld := ⟨0x30110, 32, 0, 0, 6⟩
def ROD_CUR_IDLE : Fld := ⟨0x30110, 32, 0, 6, 1⟩
def ROD_CUR_PARKED : Fld := ⟨0x30110, 32, 0, 7, 4⟩

def ROD_EVRES_CYCLES : Fld := ⟨0x30114, 32, 0, 0, 23⟩

def ROD_BEAD_STATE_STATE : Fld := ⟨0x31000, 32, 0, 0, 3⟩
def ROD_BEAD_STATE_VALID : Fld := ⟨0x31000, 32, 0, 3, 1⟩
def ROD_BEAD_STATE_CLASS : Fld := ⟨0x31000, 32, 0, 4, 2⟩
def ROD_BEAD_STATE_SPAN : Fld := ⟨0x31000, 32, 0, 6, 1⟩
def ROD_BEAD_STATE_REPLAYED : Fld := ⟨0x31000, 32, 0, 7, 1⟩
def ROD_BEAD_STATE_IMAGE : Fld := ⟨0x31000, 32, 0, 8, 8⟩

def ROD_BEAD_FAULT_CAUSE : Fld := ⟨0x31004, 32, 0, 0, 8⟩
def ROD_BEAD_FAULT_PC : Fld := ⟨0x31004, 32, 0, 8, 24⟩

def ROD_BEAD_CYCLES_LAST : Fld := ⟨0x31008, 32, 0, 0, 23⟩

def ROD_BEAD_BUDGET_BUDGET : Fld := ⟨0x3100C, 32, 0, 0, 23⟩

def ROD_BEAD_NEXT_FRAME : Fld := ⟨0x31010, 32, 0, 0, 32⟩

def ROD_BEAD_CTRL_START : Fld := ⟨0x31014, 32, 0, 0, 1⟩
def ROD_BEAD_CTRL_STOP : Fld := ⟨0x31014, 32, 0, 1, 1⟩
def ROD_BEAD_CTRL_RESET : Fld := ⟨0x31014, 32, 0, 2, 1⟩

def ICU_POOL_RODS : Fld := ⟨0x20000, 0, 0, 0, 16⟩

def ICU_STAT_EARLY : Fld := ⟨0x20004, 0, 0, 0, 16⟩
def ICU_STAT_STORM_ANY : Fld := ⟨0x20004, 0, 0, 16, 1⟩

def ICU_SWSET_SET : Fld := ⟨0x20008, 4, 0, 0, 32⟩

def ICU_THRESH_THRESH : Fld := ⟨0x20400, 16, 0, 0, 4⟩

def ICU_RUNPRI_RP : Fld := ⟨0x20404, 16, 0, 0, 4⟩
def ICU_RUNPRI_DEPTH : Fld := ⟨0x20404, 16, 0, 4, 4⟩
def ICU_RUNPRI_IDLE : Fld := ⟨0x20404, 16, 0, 8, 1⟩

def ICU_MOD_US : Fld := ⟨0x20408, 16, 0, 0, 10⟩

def ICU_CLAIM_SRC : Fld := ⟨0x2040C, 16, 0, 0, 8⟩
def ICU_CLAIM_PRIO : Fld := ⟨0x2040C, 16, 0, 8, 4⟩
def ICU_CLAIM_PREV : Fld := ⟨0x2040C, 16, 0, 12, 4⟩
def ICU_CLAIM_PRIV : Fld := ⟨0x2040C, 16, 0, 16, 1⟩
def ICU_CLAIM_VALID : Fld := ⟨0x2040C, 16, 0, 17, 1⟩

def ICU_SRC_CFG_PRIO : Fld := ⟨0x21000, 16, 0, 0, 4⟩
def ICU_SRC_CFG_TARGET : Fld := ⟨0x21000, 16, 0, 4, 5⟩
def ICU_SRC_CFG_SLOT : Fld := ⟨0x21000, 16, 0, 9, 6⟩
def ICU_SRC_CFG_BOUND : Fld := ⟨0x21000, 16, 0, 15, 1⟩

def ICU_SRC_STAT_ACTIVE : Fld := ⟨0x21004, 16, 0, 0, 1⟩
def ICU_SRC_STAT_PENDING : Fld := ⟨0x21004, 16, 0, 1, 1⟩
def ICU_SRC_STAT_INSVC : Fld := ⟨0x21004, 16, 0, 2, 1⟩
def ICU_SRC_STAT_STORM : Fld := ⟨0x21004, 16, 0, 3, 1⟩
def ICU_SRC_STAT_TAKES : Fld := ⟨0x21004, 16, 0, 8, 8⟩
def ICU_SRC_STAT_LAST_T : Fld := ⟨0x21004, 16, 0, 16, 5⟩

def ICU_LATE_DROP_COUNT : Fld := ⟨0x21008, 16, 0, 0, 16⟩

def ICU_TAKEN_COUNT : Fld := ⟨0x2100C, 16, 0, 0, 32⟩

def LTAB_WIN_BASE_PAGE : Fld := ⟨0x50000, 0, 0, 0, 7⟩

def LTAB_STAT_COMMISSIONED : Fld := ⟨0x50004, 0, 0, 0, 15⟩
def LTAB_STAT_RESTORED : Fld := ⟨0x50004, 0, 0, 15, 1⟩
def LTAB_STAT_HOL_VALID : Fld := ⟨0x50004, 0, 0, 16, 1⟩
def LTAB_STAT_TZ_VALID : Fld := ⟨0x50004, 0, 0, 17, 1⟩
def LTAB_STAT_SITE_VALID : Fld := ⟨0x50004, 0, 0, 18, 1⟩
def LTAB_STAT_UNSAVED : Fld := ⟨0x50004, 0, 0, 19, 1⟩
def LTAB_STAT_BADMAP : Fld := ⟨0x50004, 0, 0, 20, 12⟩

def LTAB_FAULT_WR_COUNT : Fld := ⟨0x50010, 0, 0, 0, 32⟩

def LTAB_IMG_CTRL_INDEX : Fld := ⟨0x50020, 0, 0, 0, 6⟩
def LTAB_IMG_CTRL_ACTION : Fld := ⟨0x50020, 0, 0, 8, 2⟩

def LTAB_IMG_STATE : Fld := ⟨0x51000, 16, 0, 0, 3⟩
def LTAB_IMG_HANDLE : Fld := ⟨0x51000, 16, 0, 8, 8⟩
def LTAB_IMG_BEADS : Fld := ⟨0x51000, 16, 0, 16, 11⟩

def LTAB_IMG_RES_STATUS : Fld := ⟨0x51004, 16, 0, 0, 8⟩
def LTAB_IMG_RES_REASON : Fld := ⟨0x51004, 16, 0, 8, 8⟩
def LTAB_IMG_RES_ISA : Fld := ⟨0x51004, 16, 0, 16, 8⟩

def LTAB_IMG_VER_VERSION : Fld := ⟨0x51008, 16, 0, 0, 32⟩

def LTAB_IMG_ACT_FRAME : Fld := ⟨0x5100C, 16, 0, 0, 32⟩

def LTAB_FAULT_LID : Fld := ⟨0x50400, 8, 0, 0, 14⟩
def LTAB_FAULT_CODE : Fld := ⟨0x50400, 8, 0, 16, 8⟩

def LTAB_FAULT_FRAME_FRAME : Fld := ⟨0x50404, 8, 0, 0, 32⟩

def FLOW_CTRL_RUN : Fld := ⟨0x40000, 0, 0, 0, 1⟩
def FLOW_CTRL_APPLY : Fld := ⟨0x40000, 0, 0, 1, 1⟩
def FLOW_CTRL_CLEAR : Fld := ⟨0x40000, 0, 0, 2, 1⟩

def FLOW_STAT_LATE : Fld := ⟨0x40004, 0, 0, 0, 1⟩
def FLOW_STAT_PENDING : Fld := ⟨0x40004, 0, 0, 1, 1⟩
def FLOW_STAT_CELLS : Fld := ⟨0x40004, 0, 0, 2, 17⟩

def FLOW_CFG_RES_STATUS : Fld := ⟨0x40008, 0, 0, 0, 8⟩
def FLOW_CFG_RES_REASON : Fld := ⟨0x40008, 0, 0, 8, 4⟩
def FLOW_CFG_RES_INDEX : Fld := ⟨0x40008, 0, 0, 12, 12⟩

def FLOW_TIME_LAST : Fld := ⟨0x4000C, 0, 0, 0, 16⟩
def FLOW_TIME_MAX : Fld := ⟨0x4000C, 0, 0, 16, 16⟩

def FLOW_DROP_OVERFLOW : Fld := ⟨0x40010, 0, 0, 0, 6⟩
def FLOW_DROP_UNPLACED : Fld := ⟨0x40010, 0, 0, 6, 6⟩
def FLOW_DROP_AGE : Fld := ⟨0x40010, 0, 0, 12, 6⟩
def FLOW_DROP_DIRECTION : Fld := ⟨0x40010, 0, 0, 18, 6⟩
def FLOW_DROP_CLASS : Fld := ⟨0x40010, 0, 0, 24, 6⟩

def FLOW_FUSED_COUNT : Fld := ⟨0x40014, 0, 0, 0, 32⟩

def FLOW_EVT_LOST : Fld := ⟨0x40018, 0, 0, 0, 8⟩

def FLOW_LSEL_LINK : Fld := ⟨0x40020, 0, 0, 0, 12⟩
def FLOW_LSEL_CELL : Fld := ⟨0x40020, 0, 0, 12, 6⟩

def FLOW_LDATA_WORD : Fld := ⟨0x40040, 4, 0, 0, 32⟩

def FLOW_CELL_WORD : Fld := ⟨0x40060, 4, 0, 0, 32⟩

def FLOW_LTF_TF : Fld := ⟨0x40080, 4, 0, 0, 32⟩

def FLOW_TUNE_VALUE : Fld := ⟨0x40100, 4, 0, 0, 32⟩

def FLOW_BND_CFG_LINK : Fld := ⟨0x40200, 16, 0, 0, 12⟩
def FLOW_BND_CFG_DIR : Fld := ⟨0x40200, 16, 0, 12, 1⟩
def FLOW_BND_CFG_PEER : Fld := ⟨0x40200, 16, 0, 13, 3⟩
def FLOW_BND_CFG_PEER_LINK : Fld := ⟨0x40200, 16, 0, 16, 12⟩
def FLOW_BND_CFG_VALID : Fld := ⟨0x40200, 16, 0, 31, 1⟩

def FLOW_BND_STAT_LOST : Fld := ⟨0x40204, 16, 0, 0, 1⟩
def FLOW_BND_STAT_MISMATCH : Fld := ⟨0x40204, 16, 0, 1, 1⟩
def FLOW_BND_STAT_AGE : Fld := ⟨0x40204, 16, 0, 8, 8⟩

def FLOW_BND_FLOW_FLOW : Fld := ⟨0x40208, 16, 0, 0, 32⟩

def SEG_CTRL_AUTO : Fld := ⟨0x50600, 0, 0, 0, 1⟩

def SEG_REPORT_PERIOD : Fld := ⟨0x50604, 0, 0, 0, 12⟩
def SEG_REPORT_UNREACH : Fld := ⟨0x50604, 0, 0, 16, 12⟩

def SEG_TIMING_HOLD : Fld := ⟨0x50608, 0, 0, 0, 10⟩
def SEG_TIMING_CMD_TIMEOUT : Fld := ⟨0x50608, 0, 0, 16, 7⟩

def SEG_MISMATCH_LEVELS : Fld := ⟨0x5060C, 0, 0, 0, 16⟩

def SEG_DEFAULT_FS_LEVEL : Fld := ⟨0x50610, 0, 0, 0, 16⟩

def SEG_ENROL_CNT_COUNT : Fld := ⟨0x50614, 0, 0, 0, 9⟩

def SEG_ENROL_SEL_INDEX : Fld := ⟨0x50618, 0, 0, 0, 8⟩

def SEG_ENROL_EUI_LO_EUI : Fld := ⟨0x5061C, 0, 0, 0, 32⟩

def SEG_ENROL_EUI_HI_EUI : Fld := ⟨0x50620, 0, 0, 0, 32⟩

def SEG_ENROL_INFO_FW : Fld := ⟨0x50624, 0, 0, 0, 16⟩
def SEG_ENROL_INFO_LAP : Fld := ⟨0x50624, 0, 0, 16, 2⟩
def SEG_ENROL_INFO_GEN : Fld := ⟨0x50624, 0, 0, 18, 1⟩

def SEG_CMD_RES_WR_COUNT : Fld := ⟨0x50628, 0, 0, 0, 32⟩

def SEG_BCAST_ID : Fld := ⟨0x5062C, 0, 0, 0, 16⟩
def SEG_BCAST_PARTS : Fld := ⟨0x5062C, 0, 0, 16, 8⟩

def SEG_LSEL_LID : Fld := ⟨0x50630, 0, 0, 0, 14⟩

def SEG_LSTATE_SOURCE : Fld := ⟨0x50634, 0, 0, 0, 3⟩
def SEG_LSTATE_HOLD : Fld := ⟨0x50634, 0, 0, 3, 1⟩

def SEG_LSCHED_LEVEL : Fld := ⟨0x50638, 0, 0, 0, 16⟩
def SEG_LSCHED_VALID : Fld := ⟨0x50638, 0, 0, 16, 1⟩

def SEG_LTRAF_LEVEL : Fld := ⟨0x5063C, 0, 0, 0, 16⟩
def SEG_LTRAF_VALID : Fld := ⟨0x5063C, 0, 0, 16, 1⟩

def SEG_LHOLD_FRAME : Fld := ⟨0x50640, 0, 0, 0, 32⟩

def SEG_FAULT_CFG_AGG : Fld := ⟨0x50644, 0, 0, 0, 8⟩
def SEG_FAULT_CFG_CLUSTER : Fld := ⟨0x50644, 0, 0, 8, 8⟩

def SEG_FAULT_ACTIVE_LANTERNS : Fld := ⟨0x50648, 0, 0, 0, 15⟩

def SEG_RECON_CFG_PERIOD : Fld := ⟨0x5064C, 0, 0, 0, 6⟩
def SEG_RECON_CFG_THRESH : Fld := ⟨0x5064C, 0, 0, 16, 16⟩

def SEG_RECON_EVT_FLAG : Fld := ⟨0x50650, 0, 0, 0, 6⟩

def SEG_FW_CTRL_IMAGE : Fld := ⟨0x50654, 0, 0, 0, 4⟩
def SEG_FW_CTRL_ACTION : Fld := ⟨0x50654, 0, 0, 8, 2⟩

def SEG_FW_CFG_ROUNDS : Fld := ⟨0x50658, 0, 0, 0, 4⟩

def SEG_FW_ACT_FRAME : Fld := ⟨0x5065C, 0, 0, 0, 32⟩

def SEG_FW_STAT_STATE : Fld := ⟨0x50660, 0, 0, 0, 3⟩
def SEG_FW_STAT_ROUND : Fld := ⟨0x50660, 0, 0, 4, 4⟩

def SEG_FW_COUNT_TARGETS : Fld := ⟨0x50664, 0, 0, 0, 15⟩
def SEG_FW_COUNT_FAILED : Fld := ⟨0x50664, 0, 0, 16, 15⟩

def SEG_BEAD_CLASS_TRAFFIC : Fld := ⟨0x50680, 4, 0, 0, 32⟩

def SEG_SAFE_KIND : Fld := ⟨0x50700, 16, 0, 0, 3⟩

def SEG_SAFE_ARG_ARG : Fld := ⟨0x50704, 16, 0, 0, 32⟩

def SEG_SAFE_LEVEL_LEVEL : Fld := ⟨0x50708, 16, 0, 0, 16⟩

def SEG_SAFE_UNTIL_FRAME : Fld := ⟨0x5070C, 16, 0, 0, 32⟩

def SEG_FAULT_CNT_ACTIVE : Fld := ⟨0x50800, 4, 0, 0, 15⟩
def SEG_FAULT_CNT_RAISED : Fld := ⟨0x50800, 4, 0, 16, 16⟩

def SEG_CMD_RES_HANDLE : Fld := ⟨0x50900, 16, 0, 0, 32⟩

def SEG_CMD_STAT_STATUS : Fld := ⟨0x50904, 16, 0, 0, 8⟩
def SEG_CMD_STAT_DUPLICATE : Fld := ⟨0x50904, 16, 0, 8, 1⟩
def SEG_CMD_STAT_LID : Fld := ⟨0x50904, 16, 0, 16, 14⟩

def SEG_CMD_DATA0_DATA : Fld := ⟨0x50908, 16, 0, 0, 32⟩

def SEG_CMD_DATA1_DATA : Fld := ⟨0x5090C, 16, 0, 0, 32⟩

def SEG_RECON_MET_E : Fld := ⟨0x50D00, 16, 0, 0, 32⟩

def SEG_RECON_LANT_E : Fld := ⟨0x50D04, 16, 0, 0, 32⟩

def SEG_RECON_LOSS_LOSS : Fld := ⟨0x50D08, 16, 0, 0, 32⟩

def SEG_RECON_FLAGS_HIGH : Fld := ⟨0x50D0C, 16, 0, 0, 1⟩
def SEG_RECON_FLAGS_NEG : Fld := ⟨0x50D0C, 16, 0, 1, 1⟩
def SEG_RECON_FLAGS_INCOMPLETE : Fld := ⟨0x50D0C, 16, 0, 2, 1⟩
def SEG_RECON_FLAGS_LOW : Fld := ⟨0x50D0C, 16, 0, 3, 1⟩

def PWR_CAP_WATTS : Fld := ⟨0x11000, 0, 0, 0, 24⟩

def PWR_AGATE_CAP_WATTS : Fld := ⟨0x11004, 0, 0, 0, 24⟩

def PWR_DR_PCT : Fld := ⟨0x11008, 0, 0, 0, 7⟩
def PWR_DR_SHED : Fld := ⟨0x11008, 0, 0, 7, 1⟩

def PWR_DR_UNTIL_FRAME : Fld := ⟨0x1100C, 0, 0, 0, 32⟩

def PWR_DR_IN_INPUT : Fld := ⟨0x11010, 0, 0, 0, 3⟩
def PWR_DR_IN_PCT : Fld := ⟨0x11010, 0, 0, 8, 7⟩

def PWR_TALLY_CTRL_COMPAT : Fld := ⟨0x11014, 0, 0, 0, 1⟩
def PWR_TALLY_CTRL_QUANTUM : Fld := ⟨0x11014, 0, 0, 8, 8⟩
def PWR_TALLY_CTRL_SHED_DELAY : Fld := ⟨0x11014, 0, 0, 16, 8⟩

def PWR_TALLY_CAP_MW : Fld := ⟨0x11018, 0, 0, 0, 32⟩

def PWR_TALLY_LOAD_MW : Fld := ⟨0x1101C, 0, 0, 0, 32⟩

def PWR_TALLY_HEAD_MW : Fld := ⟨0x11020, 0, 0, 0, 32⟩

def PWR_TALLY_STAT_OVER : Fld := ⟨0x11024, 0, 0, 0, 1⟩
def PWR_TALLY_STAT_SHEDDING : Fld := ⟨0x11024, 0, 0, 1, 1⟩
def PWR_TALLY_STAT_READY : Fld := ⟨0x11024, 0, 0, 2, 1⟩
def PWR_TALLY_STAT_PARTIAL : Fld := ⟨0x11024, 0, 0, 16, 16⟩

def PWR_FEEDER_CAP_WATTS : Fld := ⟨0x11100, 16, 0, 0, 24⟩

def PWR_FEEDER_LOAD_MW : Fld := ⟨0x11104, 16, 0, 0, 32⟩

def PWR_FEEDER_HEAD_MW : Fld := ⟨0x11108, 16, 0, 0, 32⟩

def PWR_FEEDER_GRANT_MW : Fld := ⟨0x1110C, 16, 0, 0, 32⟩

def RAD_PAN_PANID : Fld := ⟨0x60000, 0, 0, 0, 16⟩

def RAD_ADDR_SHORT : Fld := ⟨0x60004, 0, 0, 0, 16⟩

def RAD_PREAMBLE_OCTETS : Fld := ⟨0x60008, 0, 0, 0, 8⟩

def RAD_CCA_THRESH : Fld := ⟨0x6000C, 0, 0, 0, 8⟩

def RAD_AGATE_DEMOD : Fld := ⟨0x60010, 0, 0, 0, 3⟩

def RAD_EVT_LATE_A : Fld := ⟨0x60014, 0, 0, 0, 1⟩
def RAD_EVT_LATE_B : Fld := ⟨0x60014, 0, 0, 1, 1⟩
def RAD_EVT_OVR : Fld := ⟨0x60014, 0, 0, 2, 1⟩

def RAD_TS_CORR_NS : Fld := ⟨0x60020, 4, 0, 0, 16⟩

def RAD_DEMOD_EN : Fld := ⟨0x60040, 4, 0, 0, 1⟩
def RAD_DEMOD_TRX : Fld := ⟨0x60040, 4, 0, 1, 1⟩
def RAD_DEMOD_MODE : Fld := ⟨0x60040, 4, 0, 2, 2⟩
def RAD_DEMOD_CHAN : Fld := ⟨0x60040, 4, 0, 8, 8⟩
def RAD_DEMOD_PART : Fld := ⟨0x60040, 4, 0, 16, 3⟩

def RAD_RXPART_SIZE : Fld := ⟨0x60080, 4, 0, 0, 22⟩

def RAD_RXPART_STAT_FREE : Fld := ⟨0x600A0, 4, 0, 0, 22⟩
def RAD_RXPART_STAT_DROP : Fld := ⟨0x600A0, 4, 0, 22, 10⟩

def RAD_WIN_CENTRE : Fld := ⟨0x60100, 64, 0, 0, 20⟩

def RAD_TXPWR_MAX : Fld := ⟨0x60104, 64, 0, 0, 8⟩

def RAD_PA_EN : Fld := ⟨0x60108, 64, 0, 0, 1⟩
def RAD_PA_POL : Fld := ⟨0x60108, 64, 0, 1, 1⟩
def RAD_PA_LEAD : Fld := ⟨0x60108, 64, 0, 8, 8⟩
def RAD_PA_LAG : Fld := ⟨0x60108, 64, 0, 16, 8⟩

def RAD_TLQ_CFG_LATE_LIMIT : Fld := ⟨0x6010C, 64, 0, 0, 15⟩

def RAD_TLQ_STAT_DEPTH : Fld := ⟨0x60110, 64, 0, 0, 7⟩
def RAD_TLQ_STAT_DELAY : Fld := ⟨0x60110, 64, 0, 16, 16⟩

def RAD_TLQ_CNT_SENT : Fld := ⟨0x60114, 64, 0, 0, 16⟩
def RAD_TLQ_CNT_LATE : Fld := ⟨0x60114, 64, 0, 16, 16⟩

def RAD_RX_CNT_FRAMES : Fld := ⟨0x60118, 64, 0, 0, 32⟩

def RAD_RX_LOST_PREEMPT : Fld := ⟨0x6011C, 64, 0, 0, 16⟩
def RAD_RX_LOST_FCS : Fld := ⟨0x6011C, 64, 0, 16, 16⟩

def RAD_RX_DROP_FILTER : Fld := ⟨0x60120, 64, 0, 0, 16⟩
def RAD_RX_DROP_MALFORMED : Fld := ⟨0x60120, 64, 0, 16, 16⟩

def RAD_ACK_CNT_SENT : Fld := ⟨0x60124, 64, 0, 0, 16⟩
def RAD_ACK_CNT_SUPPR : Fld := ⟨0x60124, 64, 0, 16, 16⟩

def RAD_TX_AIR_MS : Fld := ⟨0x60128, 64, 0, 0, 32⟩

def RAD_HOP_CFG_MODE : Fld := ⟨0x60800, 4, 0, 0, 2⟩
def RAD_HOP_CFG_VALID : Fld := ⟨0x60800, 4, 0, 31, 1⟩

def RAD_HOP_ENT_CHAN : Fld := ⟨0x60900, 4, 0, 0, 32⟩

/-- DST of filter word i, bit pair j. -/
def RAD_FILT_DST (j : Nat) : Fld := ⟨0x68000, 4, 0, 2 * j, 1⟩
/-- PEND of filter word i, bit pair j. -/
def RAD_FILT_PEND (j : Nat) : Fld := ⟨0x68000, 4, 0, 2 * j + 1, 1⟩

def RAD_LINK_CFG_CI_DAY : Fld := ⟨0x60200, 0, 0, 0, 2⟩
def RAD_LINK_CFG_SI1 : Fld := ⟨0x60200, 0, 0, 2, 2⟩
def RAD_LINK_CFG_HOP2 : Fld := ⟨0x60200, 0, 0, 4, 2⟩
def RAD_LINK_CFG_HOP1 : Fld := ⟨0x60200, 0, 0, 6, 2⟩
def RAD_LINK_CFG_G1DEMOD : Fld := ⟨0x60200, 0, 0, 8, 3⟩
def RAD_LINK_CFG_SUP : Fld := ⟨0x60200, 0, 0, 16, 6⟩

def RAD_LINK_MAP_LO_MAP : Fld := ⟨0x60204, 0, 0, 0, 32⟩

def RAD_LINK_MAP_HI_MAP : Fld := ⟨0x60208, 0, 0, 0, 32⟩

def RAD_LINK_MAP_VER_VERSION : Fld := ⟨0x6020C, 0, 0, 0, 8⟩

def RAD_DL_CFG_COMPAT : Fld := ⟨0x60210, 0, 0, 0, 1⟩
def RAD_DL_CFG_BULK_W : Fld := ⟨0x60210, 0, 0, 8, 8⟩

def RAD_DL_STAT_OUTSTANDING : Fld := ⟨0x60214, 0, 0, 0, 10⟩
def RAD_DL_STAT_BUSY : Fld := ⟨0x60214, 0, 0, 16, 16⟩

def RAD_LINK_CNT_DUP : Fld := ⟨0x60218, 0, 0, 0, 16⟩
def RAD_LINK_CNT_APPDUP : Fld := ⟨0x60218, 0, 0, 16, 16⟩

def RAD_LINK_CNT2_DROPS : Fld := ⟨0x6021C, 0, 0, 0, 16⟩
def RAD_LINK_CNT2_RESYNC : Fld := ⟨0x6021C, 0, 0, 16, 16⟩

def RAD_LINK_EVT_DROP : Fld := ⟨0x60220, 0, 0, 0, 1⟩
def RAD_LINK_EVT_ROUTE : Fld := ⟨0x60220, 0, 0, 1, 1⟩
def RAD_LINK_EVT_LOOP : Fld := ⟨0x60220, 0, 0, 2, 1⟩
def RAD_LINK_EVT_NOMAP : Fld := ⟨0x60220, 0, 0, 3, 1⟩

def RAD_LINK_SEL_LID : Fld := ⟨0x60230, 0, 0, 0, 14⟩

def RAD_LINK_NODE_STATE : Fld := ⟨0x60234, 0, 0, 0, 3⟩
def RAD_LINK_NODE_GEN : Fld := ⟨0x60234, 0, 0, 3, 1⟩
def RAD_LINK_NODE_CI : Fld := ⟨0x60234, 0, 0, 4, 3⟩
def RAD_LINK_NODE_MISSED : Fld := ⟨0x60234, 0, 0, 8, 4⟩
def RAD_LINK_NODE_EVCNT : Fld := ⟨0x60234, 0, 0, 16, 16⟩

def RAD_LINK_CHMAP_LO_MAP : Fld := ⟨0x60238, 0, 0, 0, 32⟩

def RAD_LINK_CHMAP_HI_MAP : Fld := ⟨0x6023C, 0, 0, 0, 32⟩

def RAD_LINK_ROUTE_HOP0 : Fld := ⟨0x60240, 4, 0, 0, 16⟩
def RAD_LINK_ROUTE_HOP1 : Fld := ⟨0x60240, 4, 0, 16, 16⟩

def NTU_CTRL_PTP_EN : Fld := ⟨0x70000, 0, 0, 0, 1⟩
def NTU_CTRL_PREF : Fld := ⟨0x70000, 0, 0, 1, 1⟩
def NTU_CTRL_DOMAIN : Fld := ⟨0x70000, 0, 0, 8, 8⟩

def NTU_STAT_STATE : Fld := ⟨0x70004, 0, 0, 0, 2⟩
def NTU_STAT_LOCK : Fld := ⟨0x70004, 0, 0, 2, 1⟩
def NTU_STAT_JUMP : Fld := ⟨0x70004, 0, 0, 3, 1⟩
def NTU_STAT_ASYM_SUSPECT : Fld := ⟨0x70004, 0, 0, 4, 1⟩
def NTU_STAT_FLOCK : Fld := ⟨0x70004, 0, 0, 5, 1⟩
def NTU_STAT_ACTIVE : Fld := ⟨0x70004, 0, 0, 6, 1⟩
def NTU_STAT_XCHK_VALID : Fld := ⟨0x70004, 0, 0, 7, 1⟩

def NTU_EVT_JUMP : Fld := ⟨0x70008, 0, 0, 0, 1⟩
def NTU_EVT_ASYM : Fld := ⟨0x70008, 0, 0, 1, 1⟩
def NTU_EVT_LOST : Fld := ⟨0x70008, 0, 0, 2, 1⟩
def NTU_EVT_STEP : Fld := ⟨0x70008, 0, 0, 3, 1⟩
def NTU_EVT_PORTSW : Fld := ⟨0x70008, 0, 0, 4, 1⟩

def NTU_JUMP_LIMIT_NS : Fld := ⟨0x7000C, 0, 0, 0, 23⟩

def NTU_JUMP_ACCEPT_ACCEPT : Fld := ⟨0x70010, 0, 0, 0, 1⟩

def NTU_ASYM_LIMIT_NS : Fld := ⟨0x70014, 0, 0, 0, 16⟩

def NTU_SLEW_PPM : Fld := ⟨0x70018, 0, 0, 0, 10⟩

def NTU_LOCK_CFG_THRESH : Fld := ⟨0x7001C, 0, 0, 0, 16⟩
def NTU_LOCK_CFG_COUNT : Fld := ⟨0x7001C, 0, 0, 16, 8⟩

def NTU_UTC_OFFSET : Fld := ⟨0x70020, 0, 0, 0, 16⟩
def NTU_UTC_PTP_VALID : Fld := ⟨0x70020, 0, 0, 16, 1⟩
def NTU_UTC_LEAP61 : Fld := ⟨0x70020, 0, 0, 17, 1⟩
def NTU_UTC_LEAP59 : Fld := ⟨0x70020, 0, 0, 18, 1⟩

def NTU_KP_KP : Fld := ⟨0x70030, 0, 0, 0, 32⟩

def NTU_KI_KI : Fld := ⟨0x70034, 0, 0, 0, 32⟩

def NTU_SHIFT_SP : Fld := ⟨0x70038, 0, 0, 0, 5⟩
def NTU_SHIFT_SI : Fld := ⟨0x70038, 0, 0, 8, 5⟩

def NTU_FREQ_F : Fld := ⟨0x7003C, 0, 0, 0, 32⟩

def NTU_OFFSET_NS : Fld := ⟨0x70040, 0, 0, 0, 32⟩

def NTU_PHASE_NS : Fld := ⟨0x70044, 0, 0, 0, 32⟩

def NTU_XCHK_NS : Fld := ⟨0x70048, 0, 0, 0, 32⟩

def NTU_STEP_US : Fld := ⟨0x7004C, 0, 0, 0, 32⟩

def NTU_TIME_S_LO_S : Fld := ⟨0x70050, 0, 0, 0, 32⟩

def NTU_TIME_S_HI_S : Fld := ⟨0x70054, 0, 0, 0, 16⟩

def NTU_TIME_NS_NS : Fld := ⟨0x70058, 0, 0, 0, 30⟩

def NTU_TIME_FRAC_FRAC : Fld := ⟨0x7005C, 0, 0, 0, 16⟩

def NTU_RADIO_OUI : Fld := ⟨0x70060, 0, 0, 0, 24⟩

def NTU_PORT_CFG_EN : Fld := ⟨0x70100, 64, 0, 0, 1⟩
def NTU_PORT_CFG_TRANSPORT : Fld := ⟨0x70100, 64, 0, 1, 2⟩
def NTU_PORT_CFG_DELAY : Fld := ⟨0x70100, 64, 0, 3, 1⟩
def NTU_PORT_CFG_ANN_TO : Fld := ⟨0x70100, 64, 0, 4, 4⟩

def NTU_PORT_STAT_STATE : Fld := ⟨0x70104, 64, 0, 0, 3⟩
def NTU_PORT_STAT_REASON : Fld := ⟨0x70104, 64, 0, 4, 4⟩

def NTU_CORR_GIG_IN : Fld := ⟨0x70108, 64, 0, 0, 8⟩
def NTU_CORR_GIG_EG : Fld := ⟨0x70108, 64, 0, 8, 8⟩
def NTU_CORR_FAST_IN : Fld := ⟨0x70108, 64, 0, 16, 8⟩
def NTU_CORR_FAST_EG : Fld := ⟨0x70108, 64, 0, 24, 8⟩

def NTU_ASYM_NS : Fld := ⟨0x7010C, 64, 0, 0, 24⟩

def NTU_PORT_OFS_NS : Fld := ⟨0x70110, 64, 0, 0, 32⟩

def NTU_PORT_DELAY_NS : Fld := ⟨0x70114, 64, 0, 0, 32⟩

def NTU_PORT_GM_LO_ID : Fld := ⟨0x70118, 64, 0, 0, 32⟩

def NTU_PORT_GM_HI_ID : Fld := ⟨0x7011C, 64, 0, 0, 32⟩

def NTU_PORT_CNT_SYNC : Fld := ⟨0x70120, 64, 0, 0, 16⟩
def NTU_PORT_CNT_ERR : Fld := ⟨0x70120, 64, 0, 16, 16⟩

def DRV_CTRL_EN : Fld := ⟨0x80000, 0, 0, 0, 1⟩
def DRV_CTRL_TEST : Fld := ⟨0x80000, 0, 0, 1, 1⟩

def DRV_STAT_MODE : Fld := ⟨0x80004, 0, 0, 0, 3⟩
def DRV_STAT_HANDOVER : Fld := ⟨0x80004, 0, 0, 3, 1⟩
def DRV_STAT_SWITCH : Fld := ⟨0x80004, 0, 0, 4, 2⟩
def DRV_STAT_THERM_LATCH : Fld := ⟨0x80004, 0, 0, 6, 1⟩
def DRV_STAT_DISS_LIMIT : Fld := ⟨0x80004, 0, 0, 7, 1⟩
def DRV_STAT_NO_SUPPLY : Fld := ⟨0x80004, 0, 0, 8, 1⟩

def DRV_RESTART_RESTART : Fld := ⟨0x80008, 0, 0, 0, 1⟩

def DRV_ISET_ISET : Fld := ⟨0x8000C, 0, 0, 0, 8⟩

def DRV_PWM_GRP_BITS : Fld := ⟨0x80010, 4, 0, 0, 5⟩

def DRV_BUS_CFG_VMAX : Fld := ⟨0x80020, 0, 0, 0, 8⟩
def DRV_BUS_CFG_FSW : Fld := ⟨0x80020, 0, 0, 8, 9⟩
def DRV_BUS_CFG_IMAX : Fld := ⟨0x80020, 0, 0, 24, 4⟩

def DRV_BUS_STAT_VBUS : Fld := ⟨0x80024, 0, 0, 0, 16⟩
def DRV_BUS_STAT_SETPOINT : Fld := ⟨0x80024, 0, 0, 16, 16⟩

def DRV_BUS_LEARN_LEARNED : Fld := ⟨0x80028, 0, 0, 0, 16⟩
def DRV_BUS_LEARN_CHAN : Fld := ⟨0x80028, 0, 0, 16, 5⟩

def DRV_VLEDIN_V : Fld := ⟨0x8002C, 0, 0, 0, 16⟩

def DRV_DISS_MW : Fld := ⟨0x80030, 0, 0, 0, 16⟩

def DRV_THERM_TEMP : Fld := ⟨0x80034, 0, 0, 0, 16⟩
def DRV_THERM_AUTO : Fld := ⟨0x80034, 0, 0, 16, 1⟩
def DRV_THERM_RETRIES : Fld := ⟨0x80034, 0, 0, 17, 3⟩

def DRV_EVT_OPEN : Fld := ⟨0x80038, 0, 0, 0, 1⟩
def DRV_EVT_SHORT : Fld := ⟨0x80038, 0, 0, 1, 1⟩
def DRV_EVT_DROPOUT : Fld := ⟨0x80038, 0, 0, 2, 1⟩
def DRV_EVT_THERM : Fld := ⟨0x80038, 0, 0, 3, 1⟩
def DRV_EVT_FEEDBACK : Fld := ⟨0x80038, 0, 0, 4, 1⟩
def DRV_EVT_DISS : Fld := ⟨0x80038, 0, 0, 5, 1⟩

def DRV_CHAN_CFG_TRIM : Fld := ⟨0x80100, 32, 0, 0, 10⟩
def DRV_CHAN_CFG_EN : Fld := ⟨0x80100, 32, 0, 15, 1⟩
def DRV_CHAN_CFG_GROUP : Fld := ⟨0x80100, 32, 0, 16, 11⟩

def DRV_FAILSAFE_LEVEL : Fld := ⟨0x80104, 32, 0, 0, 16⟩

def DRV_CHAN_VF_VF_LED : Fld := ⟨0x80108, 32, 0, 0, 16⟩
def DRV_CHAN_VF_LEARNED : Fld := ⟨0x80108, 32, 0, 16, 16⟩

def DRV_CHAN_LEVEL_OUT : Fld := ⟨0x8010C, 32, 0, 0, 16⟩
def DRV_CHAN_LEVEL_SOURCE : Fld := ⟨0x8010C, 32, 0, 16, 3⟩

def DRV_CHAN_DIAG_STATE : Fld := ⟨0x80110, 32, 0, 0, 3⟩
def DRV_CHAN_DIAG_SHORTS : Fld := ⟨0x80110, 32, 0, 4, 4⟩
def DRV_CHAN_DIAG_AGE : Fld := ⟨0x80110, 32, 0, 16, 16⟩

def DRV_CHAN_MEAS_VF : Fld := ⟨0x80114, 32, 0, 0, 16⟩
def DRV_CHAN_MEAS_HEADROOM : Fld := ⟨0x80114, 32, 0, 16, 16⟩

def DRV_FEEDER_CMD_CLOSE : Fld := ⟨0x80400, 16, 0, 0, 1⟩

def DRV_FEEDER_STAT_CLOSED : Fld := ⟨0x80404, 16, 0, 0, 1⟩
def DRV_FEEDER_STAT_FB : Fld := ⟨0x80404, 16, 0, 1, 1⟩
def DRV_FEEDER_STAT_FAULT : Fld := ⟨0x80404, 16, 0, 2, 1⟩
def DRV_FEEDER_STAT_FORCED : Fld := ⟨0x80404, 16, 0, 3, 1⟩
def DRV_FEEDER_STAT_PENDING : Fld := ⟨0x80404, 16, 0, 4, 1⟩

def DRV_FEEDER_CFG_FB_EN : Fld := ⟨0x80408, 16, 0, 0, 1⟩
def DRV_FEEDER_CFG_FB_POL : Fld := ⟨0x80408, 16, 0, 1, 1⟩
def DRV_FEEDER_CFG_FS_CLOSE : Fld := ⟨0x80408, 16, 0, 2, 1⟩
def DRV_FEEDER_CFG_FB_TIME : Fld := ⟨0x80408, 16, 0, 8, 8⟩

def LCE_EVT_INFAULT : Fld := ⟨0x90000, 0, 0, 0, 4⟩
def LCE_EVT_WIRE : Fld := ⟨0x90000, 0, 0, 8, 4⟩

def LCE_AIN_CFG_MODE : Fld := ⟨0x90100, 16, 0, 0, 1⟩

def LCE_AIN_CODE : Fld := ⟨0x90104, 16, 0, 0, 16⟩
def LCE_AIN_WIRE : Fld := ⟨0x90104, 16, 0, 16, 1⟩

def LCE_AOUT_CODE : Fld := ⟨0x90200, 16, 0, 0, 16⟩

def LCE_AOUT_MAN_CODE : Fld := ⟨0x90204, 16, 0, 0, 16⟩

def LCE_AOUT_FS_CODE : Fld := ⟨0x90208, 16, 0, 0, 16⟩

def LCE_PIN_CFG_EDGE : Fld := ⟨0x90300, 16, 0, 0, 1⟩
def LCE_PIN_CFG_TIMEOUT : Fld := ⟨0x90300, 16, 0, 8, 6⟩

def LCE_PIN_RATE_RATE : Fld := ⟨0x90304, 16, 0, 0, 32⟩

def LCE_PIN_COUNT_COUNT : Fld := ⟨0x90308, 16, 0, 0, 32⟩

def LCE_CTRL_CLOSE : Fld := ⟨0x91000, 256, 0, 0, 1⟩
def LCE_CTRL_OPEN : Fld := ⟨0x91000, 256, 0, 1, 1⟩

def LCE_STAT_STATE : Fld := ⟨0x91004, 256, 0, 0, 3⟩
def LCE_STAT_ISAT : Fld := ⟨0x91004, 256, 0, 3, 1⟩
def LCE_STAT_OSAT : Fld := ⟨0x91004, 256, 0, 4, 1⟩
def LCE_STAT_RSAT : Fld := ⟨0x91004, 256, 0, 5, 1⟩
def LCE_STAT_INFAULT : Fld := ⟨0x91004, 256, 0, 6, 1⟩

def LCE_CFG_YSRC : Fld := ⟨0x91008, 256, 0, 0, 3⟩
def LCE_CFG_SPSRC : Fld := ⟨0x91008, 256, 0, 4, 3⟩
def LCE_CFG_SPSEL : Fld := ⟨0x91008, 256, 0, 8, 2⟩
def LCE_CFG_FFSRC : Fld := ⟨0x91008, 256, 0, 10, 2⟩
def LCE_CFG_FFSEL : Fld := ⟨0x91008, 256, 0, 12, 5⟩
def LCE_CFG_OUTSEL : Fld := ⟨0x91008, 256, 0, 17, 2⟩
def LCE_CFG_DEN : Fld := ⟨0x91008, 256, 0, 19, 1⟩
def LCE_CFG_AUTOCLOSE : Fld := ⟨0x91008, 256, 0, 20, 1⟩
def LCE_CFG_GKEEP : Fld := ⟨0x91008, 256, 0, 21, 1⟩
def LCE_CFG_FORCE : Fld := ⟨0x91008, 256, 0, 22, 1⟩
def LCE_CFG_RATE : Fld := ⟨0x91008, 256, 0, 24, 8⟩

def LCE_SP_SP : Fld := ⟨0x9100C, 256, 0, 0, 32⟩

def LCE_GAIN_GAIN : Fld := ⟨0x91010, 256, 0, 0, 32⟩

def LCE_SCALE_SHIFT : Fld := ⟨0x91014, 256, 0, 0, 5⟩

def LCE_OFFSET_OFFSET : Fld := ⟨0x91018, 256, 0, 0, 32⟩

def LCE_KP_KP : Fld := ⟨0x91020, 256, 0, 0, 32⟩

def LCE_KI_KI : Fld := ⟨0x91024, 256, 0, 0, 32⟩

def LCE_KD_KD : Fld := ⟨0x91028, 256, 0, 0, 32⟩

def LCE_KF_KF : Fld := ⟨0x9102C, 256, 0, 0, 32⟩

def LCE_SHIFT_SP : Fld := ⟨0x91030, 256, 0, 0, 5⟩
def LCE_SHIFT_SI : Fld := ⟨0x91030, 256, 0, 8, 5⟩
def LCE_SHIFT_SD : Fld := ⟨0x91030, 256, 0, 16, 5⟩
def LCE_SHIFT_SF : Fld := ⟨0x91030, 256, 0, 24, 5⟩

def LCE_OUT_MIN_MIN : Fld := ⟨0x91034, 256, 0, 0, 32⟩

def LCE_OUT_MAX_MAX : Fld := ⟨0x91038, 256, 0, 0, 32⟩

def LCE_SLEW_STEP : Fld := ⟨0x9103C, 256, 0, 0, 32⟩

def LCE_I_MIN_MIN : Fld := ⟨0x91040, 256, 0, 0, 32⟩

def LCE_I_MAX_MAX : Fld := ⟨0x91044, 256, 0, 0, 32⟩

def LCE_FF_X0_X0 : Fld := ⟨0x91048, 256, 0, 0, 32⟩

def LCE_FF_XS_XS : Fld := ⟨0x9104C, 256, 0, 0, 5⟩

def LCE_FF_Y_Y : Fld := ⟨0x91050, 256, 4, 0, 32⟩

def LCE_Y_Y : Fld := ⟨0x910A0, 256, 0, 0, 32⟩

def LCE_SPV_SP : Fld := ⟨0x910A4, 256, 0, 0, 32⟩

def LCE_E_E : Fld := ⟨0x910A8, 256, 0, 0, 32⟩

def LCE_I_I : Fld := ⟨0x910AC, 256, 0, 0, 32⟩

def LCE_U_U : Fld := ⟨0x910B0, 256, 0, 0, 32⟩

def MET_STAT_OPEN : Fld := ⟨0xA0000, 0, 0, 0, 1⟩
def MET_STAT_TIME_VALID : Fld := ⟨0xA0000, 0, 0, 1, 1⟩
def MET_STAT_SLEWING : Fld := ⟨0xA0000, 0, 0, 2, 1⟩
def MET_STAT_FW_BUSY : Fld := ⟨0xA0000, 0, 0, 3, 1⟩
def MET_STAT_VERSION : Fld := ⟨0xA0000, 0, 0, 8, 8⟩

def MET_ALARM_OPENED : Fld := ⟨0xA0004, 0, 0, 0, 1⟩
def MET_ALARM_COVER : Fld := ⟨0xA0004, 0, 0, 1, 1⟩
def MET_ALARM_LOG_NEAR : Fld := ⟨0xA0004, 0, 0, 2, 1⟩
def MET_ALARM_LOG_FULL : Fld := ⟨0xA0004, 0, 0, 3, 1⟩
def MET_ALARM_TIME_INVALID : Fld := ⟨0xA0004, 0, 0, 4, 1⟩
def MET_ALARM_PHASE_LOSS : Fld := ⟨0xA0004, 0, 0, 5, 1⟩
def MET_ALARM_REVERSE : Fld := ⟨0xA0004, 0, 0, 6, 1⟩
def MET_ALARM_TSYNC_LIMIT : Fld := ⟨0xA0004, 0, 0, 8, 1⟩
def MET_ALARM_LINK_LOST : Fld := ⟨0xA0004, 0, 0, 16, 1⟩
def MET_ALARM_VERSION : Fld := ⟨0xA0004, 0, 0, 17, 1⟩

def MET_FWID_FWID : Fld := ⟨0xA0008, 0, 0, 0, 32⟩

def MET_FWCRC_CRC : Fld := ⟨0xA000C, 0, 0, 0, 32⟩

def MET_FW_REQ_REQ : Fld := ⟨0xA0010, 0, 0, 0, 1⟩

def MET_SEQ_SEQ : Fld := ⟨0xA0014, 0, 0, 0, 32⟩

def MET_TIME_LO_S : Fld := ⟨0xA0018, 0, 0, 0, 32⟩

def MET_TIME_HI_S : Fld := ⟨0xA001C, 0, 0, 0, 16⟩

def MET_TSYNC_CFG_AUTO : Fld := ⟨0xA0020, 0, 0, 0, 1⟩

def MET_TSYNC_CTRL_REQ : Fld := ⟨0xA0024, 0, 0, 0, 1⟩

def MET_TSYNC_RES_STATUS : Fld := ⟨0xA0028, 0, 0, 0, 8⟩
def MET_TSYNC_RES_KIND : Fld := ⟨0xA0028, 0, 0, 8, 2⟩

def MET_TSYNC_APPLIED_MS : Fld := ⟨0xA002C, 0, 0, 0, 32⟩

def MET_TSYNC_BUDGET_MS : Fld := ⟨0xA0030, 0, 0, 0, 14⟩

def MET_LOG_COUNT_USED : Fld := ⟨0xA0034, 0, 0, 0, 14⟩
def MET_LOG_COUNT_UNLOGGED : Fld := ⟨0xA0034, 0, 0, 16, 16⟩

def MET_LINK_CNT_ERR : Fld := ⟨0xA0038, 0, 0, 0, 16⟩
def MET_LINK_CNT_GAP : Fld := ⟨0xA0038, 0, 0, 16, 16⟩

def MET_CT_RATIO_PRI : Fld := ⟨0xA003C, 0, 0, 0, 16⟩
def MET_CT_RATIO_SEC : Fld := ⟨0xA003C, 0, 0, 16, 1⟩

def MET_ENERGY_LO_E : Fld := ⟨0xA0100, 8, 0, 0, 32⟩

def MET_ENERGY_HI_E : Fld := ⟨0xA0104, 8, 0, 0, 32⟩

def MET_DEMAND_LAST_W : Fld := ⟨0xA0200, 0, 0, 0, 32⟩

def MET_DEMAND_MAX_W : Fld := ⟨0xA0204, 0, 0, 0, 32⟩

def MET_DEMAND_MAX_PER_PERIOD : Fld := ⟨0xA0208, 0, 0, 0, 32⟩

def MET_DEMAND_PREV_W : Fld := ⟨0xA020C, 0, 0, 0, 32⟩

def MET_DEMAND_FLAGS_ADJ : Fld := ⟨0xA0210, 0, 0, 0, 1⟩
def MET_DEMAND_FLAGS_INT : Fld := ⟨0xA0210, 0, 0, 1, 1⟩

def MET_FREQ_F : Fld := ⟨0xA0214, 0, 0, 0, 16⟩

def MET_SAG_COUNT : Fld := ⟨0xA0220, 4, 0, 0, 32⟩

def MET_SWELL_COUNT : Fld := ⟨0xA0230, 4, 0, 0, 32⟩

def MET_PH_V_V : Fld := ⟨0xA0300, 16, 0, 0, 16⟩
def MET_PH_V_PF : Fld := ⟨0xA0300, 16, 0, 16, 16⟩

def MET_PH_I_MA : Fld := ⟨0xA0304, 16, 0, 0, 32⟩

def MET_PH_P_W : Fld := ⟨0xA0308, 16, 0, 0, 32⟩

def MET_PH_Q_VAR : Fld := ⟨0xA030C, 16, 0, 0, 32⟩

def MET_FEEDER_E_E : Fld := ⟨0xA0400, 16, 0, 0, 32⟩

def MET_FEEDER_P_P : Fld := ⟨0xA0404, 16, 0, 0, 32⟩

def MET_FEEDER_RATIO_PRI : Fld := ⟨0xA0408, 16, 0, 0, 16⟩
def MET_FEEDER_RATIO_SEC : Fld := ⟨0xA0408, 16, 0, 16, 1⟩

def PWR_STAT_STATE : Fld := ⟨0x10000, 0, 0, 0, 1⟩
def PWR_STAT_START : Fld := ⟨0x10000, 0, 0, 1, 2⟩
def PWR_STAT_HOLD : Fld := ⟨0x10000, 0, 0, 3, 1⟩
def PWR_STAT_VLEDIN_OK : Fld := ⟨0x10000, 0, 0, 4, 1⟩
def PWR_STAT_VBKP_OK : Fld := ⟨0x10000, 0, 0, 5, 1⟩

def PWR_REQ_AGATE : Fld := ⟨0x10004, 0, 0, 0, 1⟩

def PWR_VAUX_V : Fld := ⟨0x10008, 0, 0, 0, 16⟩

def PWR_VBKP_V : Fld := ⟨0x1000C, 0, 0, 0, 16⟩

def PWR_STORE_V : Fld := ⟨0x10010, 0, 0, 0, 16⟩
def PWR_STORE_PCT : Fld := ⟨0x10010, 0, 0, 16, 7⟩
def PWR_STORE_CHARGING : Fld := ⟨0x10010, 0, 0, 24, 1⟩

def PWR_STORE_CAP_CAP : Fld := ⟨0x10014, 0, 0, 0, 8⟩

def PWR_ONYX_DONE : Fld := ⟨0x10018, 0, 0, 0, 3⟩
def PWR_ONYX_SKIPPED : Fld := ⟨0x10018, 0, 0, 4, 3⟩
def PWR_ONYX_PCT : Fld := ⟨0x10018, 0, 0, 8, 8⟩

def PWR_EVT_AGATE_IN : Fld := ⟨0x1001C, 0, 0, 0, 1⟩
def PWR_EVT_AGATE_OUT : Fld := ⟨0x1001C, 0, 0, 1, 1⟩
def PWR_EVT_ONYX : Fld := ⟨0x1001C, 0, 0, 2, 1⟩
def PWR_EVT_STORE_AGED : Fld := ⟨0x1001C, 0, 0, 3, 1⟩

def PWR_CNT_ONYX : Fld := ⟨0x10020, 0, 0, 0, 16⟩

def WCH_IN_VALUE : Fld := ⟨0x100000, 4, 0, 0, 16⟩

def WCH_BKP_FLAGS_FLAG : Fld := ⟨0x100040, 0, 0, 0, 32⟩

def WCH_FIRED_RULE : Fld := ⟨0x100044, 0, 0, 0, 32⟩

def WCH_LOGQ_DROPPED : Fld := ⟨0x100048, 0, 0, 0, 16⟩

def WCH_PHOTO_CFG_EN : Fld := ⟨0x100050, 0, 0, 0, 1⟩
def WCH_PHOTO_CFG_FEEDERS : Fld := ⟨0x100050, 0, 0, 1, 6⟩
def WCH_PHOTO_CFG_DELAY : Fld := ⟨0x100050, 0, 0, 8, 8⟩
def WCH_PHOTO_CFG_STALE : Fld := ⟨0x100050, 0, 0, 16, 11⟩

def WCH_PHOTO_LUX_DUSK : Fld := ⟨0x100054, 0, 0, 0, 16⟩
def WCH_PHOTO_LUX_DAWN : Fld := ⟨0x100054, 0, 0, 16, 16⟩

def WCH_PHOTO_STAT_ARMED : Fld := ⟨0x100058, 0, 0, 0, 1⟩
def WCH_PHOTO_STAT_DARK : Fld := ⟨0x100058, 0, 0, 1, 1⟩

def WCH_RULE_CFG_INPUT : Fld := ⟨0x100100, 16, 0, 0, 4⟩
def WCH_RULE_CFG_FILTER : Fld := ⟨0x100100, 16, 0, 4, 2⟩
def WCH_RULE_CFG_FPARAM : Fld := ⟨0x100100, 16, 0, 6, 4⟩
def WCH_RULE_CFG_CMP : Fld := ⟨0x100100, 16, 0, 10, 3⟩
def WCH_RULE_CFG_ACTION : Fld := ⟨0x100100, 16, 0, 13, 3⟩
def WCH_RULE_CFG_FLAG : Fld := ⟨0x100100, 16, 0, 16, 5⟩
def WCH_RULE_CFG_STATES : Fld := ⟨0x100100, 16, 0, 21, 3⟩
def WCH_RULE_CFG_EN : Fld := ⟨0x100100, 16, 0, 31, 1⟩

def WCH_RULE_THR_THRESH : Fld := ⟨0x100104, 16, 0, 0, 16⟩
def WCH_RULE_THR_HYST : Fld := ⟨0x100104, 16, 0, 16, 16⟩

def WCH_RULE_TIME_HOLD : Fld := ⟨0x100108, 16, 0, 0, 16⟩

def WCH_RULE_STAT_VALUE : Fld := ⟨0x10010C, 16, 0, 0, 16⟩
def WCH_RULE_STAT_TRUE : Fld := ⟨0x10010C, 16, 0, 16, 1⟩
def WCH_RULE_STAT_FIRES : Fld := ⟨0x10010C, 16, 0, 24, 8⟩

def RTC_DATE_DAY : Fld := ⟨0xB0000, 0, 0, 0, 5⟩
def RTC_DATE_MONTH : Fld := ⟨0xB0000, 0, 0, 5, 4⟩
def RTC_DATE_YEAR : Fld := ⟨0xB0000, 0, 0, 9, 8⟩
def RTC_DATE_WEEKDAY : Fld := ⟨0xB0000, 0, 0, 17, 3⟩

def RTC_TIME_SEC : Fld := ⟨0xB0004, 0, 0, 0, 6⟩
def RTC_TIME_MIN : Fld := ⟨0xB0004, 0, 0, 6, 6⟩
def RTC_TIME_HOUR : Fld := ⟨0xB0004, 0, 0, 12, 5⟩

def RTC_SUBSEC_COUNT : Fld := ⟨0xB0008, 0, 0, 0, 15⟩

def RTC_STATUS_OSF : Fld := ⟨0xB000C, 0, 0, 0, 1⟩
def RTC_STATUS_STEERING : Fld := ⟨0xB000C, 0, 0, 1, 1⟩

def RTC_MONO_SECONDS : Fld := ⟨0xB0010, 0, 0, 0, 32⟩

def RTC_SET_DATE_DATE : Fld := ⟨0xB0014, 0, 0, 0, 17⟩

def RTC_SET_TIME_TIME : Fld := ⟨0xB0018, 0, 0, 0, 17⟩

def RTC_SET_DATE : Fld := ⟨0xB001C, 0, 0, 0, 1⟩
def RTC_SET_HM : Fld := ⟨0xB001C, 0, 0, 1, 1⟩
def RTC_SET_SEC : Fld := ⟨0xB001C, 0, 0, 2, 1⟩

def RTC_SET_RES_STATUS : Fld := ⟨0xB0020, 0, 0, 0, 8⟩
def RTC_SET_RES_SOURCE : Fld := ⟨0xB0020, 0, 0, 8, 2⟩

def RTC_CAL_CAL : Fld := ⟨0xB0024, 0, 0, 0, 10⟩
def RTC_CAL_AUTO : Fld := ⟨0xB0024, 0, 0, 16, 1⟩

def RTC_STEER_DIFF : Fld := ⟨0xB0028, 0, 0, 0, 32⟩

def RTC_EVT_ALM : Fld := ⟨0xB002C, 0, 0, 0, 2⟩
def RTC_EVT_LATE : Fld := ⟨0xB002C, 0, 0, 2, 2⟩
def RTC_EVT_SUPP : Fld := ⟨0xB002C, 0, 0, 4, 2⟩

def RTC_ALM_DATE_DATE : Fld := ⟨0xB0040, 16, 0, 0, 20⟩

def RTC_ALM_TIME_TIME : Fld := ⟨0xB0044, 16, 0, 0, 17⟩

def RTC_ALM_CTRL_ARM : Fld := ⟨0xB0048, 16, 0, 0, 1⟩
def RTC_ALM_CTRL_REPEAT : Fld := ⟨0xB0048, 16, 0, 1, 1⟩
def RTC_ALM_CTRL_WAKE : Fld := ⟨0xB0048, 16, 0, 2, 1⟩
def RTC_ALM_CTRL_CMP : Fld := ⟨0xB0048, 16, 0, 3, 7⟩
def RTC_ALM_CTRL_SUPPRESSED : Fld := ⟨0xB0048, 16, 0, 16, 16⟩

def RTC_ALM_LAST_MONO : Fld := ⟨0xB004C, 16, 0, 0, 32⟩

def RTC_BKP_DATA : Fld := ⟨0xB0100, 4, 0, 0, 32⟩

def RTC_EVIN_CFG_EDGE : Fld := ⟨0xB0200, 32, 0, 0, 2⟩

def RTC_EVIN_STAT_DEPTH : Fld := ⟨0xB0204, 32, 0, 0, 4⟩
def RTC_EVIN_STAT_OVERFLOW : Fld := ⟨0xB0204, 32, 0, 8, 8⟩
def RTC_EVIN_STAT_LEVEL : Fld := ⟨0xB0204, 32, 0, 16, 1⟩

def RTC_EVIN_DATE_DATE : Fld := ⟨0xB0208, 32, 0, 0, 20⟩

def RTC_EVIN_TIME_TIME : Fld := ⟨0xB020C, 32, 0, 0, 17⟩
def RTC_EVIN_TIME_RISING : Fld := ⟨0xB020C, 32, 0, 17, 1⟩
def RTC_EVIN_TIME_OSF : Fld := ⟨0xB020C, 32, 0, 18, 1⟩

def RTC_EVIN_SUB_COUNT : Fld := ⟨0xB0210, 32, 0, 0, 15⟩

def RTC_EVIN_POP_POP : Fld := ⟨0xB0214, 32, 0, 0, 1⟩

def EVR_FLOOD_WINDOW_WINDOW : Fld := ⟨0xD0000, 0, 0, 0, 13⟩

def EVR_EPOCH_EPOCH : Fld := ⟨0xD0004, 0, 0, 0, 16⟩

def EVR_BOOT_BOOT : Fld := ⟨0xD0008, 0, 0, 0, 16⟩

def EVR_STAT_PENDING : Fld := ⟨0xD000C, 0, 0, 0, 17⟩

def EVR_STAT2_EARLY_LOST : Fld := ⟨0xD0010, 0, 0, 0, 16⟩

def EVR_EVT_SEC_UNREAD : Fld := ⟨0xD0014, 0, 0, 0, 1⟩
def EVR_EVT_GAP : Fld := ⟨0xD0014, 0, 0, 1, 1⟩

def EVR_SEC_ACK_LO_SEQ : Fld := ⟨0xD0018, 0, 0, 0, 32⟩

def EVR_SEC_ACK_HI_SEQ : Fld := ⟨0xD001C, 0, 0, 0, 16⟩

def EVR_CNT_MERGED : Fld := ⟨0xD0020, 0, 0, 0, 32⟩

def EVR_HEAD_SEQ_LO_SEQ : Fld := ⟨0xD0100, 32, 0, 0, 32⟩

def EVR_HEAD_SEQ_HI_SEQ : Fld := ⟨0xD0104, 32, 0, 0, 16⟩

def EVR_TAIL_SEQ_LO_SEQ : Fld := ⟨0xD0108, 32, 0, 0, 32⟩

def EVR_TAIL_SEQ_HI_SEQ : Fld := ⟨0xD010C, 32, 0, 0, 16⟩

def EVR_COUNT_RECORDS : Fld := ⟨0xD0110, 32, 0, 0, 21⟩

def EVR_RD_LOG_LOG : Fld := ⟨0xD0200, 0, 0, 0, 2⟩

def EVR_RD_SEQ_LO_SEQ : Fld := ⟨0xD0204, 0, 0, 0, 32⟩

def EVR_RD_SEQ_HI_SEQ : Fld := ⟨0xD0208, 0, 0, 0, 16⟩

def EVR_RD_STAT_STATUS : Fld := ⟨0xD020C, 0, 0, 0, 8⟩

def EVR_RD_DATA_DATA : Fld := ⟨0xD0240, 4, 0, 0, 32⟩

def KEY_STAT_QUEUED : Fld := ⟨0xC0000, 0, 0, 0, 7⟩
def KEY_STAT_BUSY : Fld := ⟨0xC0000, 0, 0, 16, 16⟩

def KEY_LIFECYCLE_STATE : Fld := ⟨0xC0004, 0, 0, 0, 2⟩

def KEY_EVT_INTEGRITY : Fld := ⟨0xC0008, 0, 0, 0, 1⟩
def KEY_EVT_REVOKED : Fld := ⟨0xC0008, 0, 0, 1, 1⟩

def KEY_MEAS_CNT_STAGES : Fld := ⟨0xC000C, 0, 0, 0, 4⟩

def KEY_BMR_BYTES : Fld := ⟨0xC0020, 4, 0, 0, 32⟩

def KEY_MEAS_SEL_STAGE : Fld := ⟨0xC0040, 0, 0, 0, 4⟩

def KEY_MEAS_BYTES : Fld := ⟨0xC0060, 4, 0, 0, 32⟩

def KEY_SLOT_CFG_TYPE : Fld := ⟨0xC0100, 16, 0, 0, 3⟩
def KEY_SLOT_CFG_USAGE : Fld := ⟨0xC0100, 16, 0, 4, 7⟩
def KEY_SLOT_CFG_PARENT : Fld := ⟨0xC0100, 16, 0, 11, 5⟩
def KEY_SLOT_CFG_DERIVED : Fld := ⟨0xC0100, 16, 0, 16, 1⟩

def KEY_SLOT_STAT_STATE : Fld := ⟨0xC0104, 16, 0, 0, 3⟩
def KEY_SLOT_STAT_HALF : Fld := ⟨0xC0104, 16, 0, 3, 1⟩
def KEY_SLOT_STAT_GEN : Fld := ⟨0xC0104, 16, 0, 8, 24⟩

def KEY_SLOT_SEQ_SEQ : Fld := ⟨0xC0108, 16, 0, 0, 32⟩

def KEY_SLOT_CTRL_REVOKE : Fld := ⟨0xC010C, 16, 0, 0, 1⟩

def UPD_STATE_STATE : Fld := ⟨0xE0000, 0, 0, 0, 3⟩
def UPD_STATE_REASON : Fld := ⟨0xE0000, 0, 0, 8, 8⟩
def UPD_STATE_STATUS : Fld := ⟨0xE0000, 0, 0, 16, 8⟩

def UPD_LOCK_LOCK : Fld := ⟨0xE0004, 0, 0, 0, 1⟩

def UPD_POLICY_ALLOW_NIGHT : Fld := ⟨0xE0008, 0, 0, 0, 1⟩

def UPD_CONFIRM_WINDOW_MIN : Fld := ⟨0xE000C, 0, 0, 0, 8⟩

def UPD_CTRL_ACTIVATE : Fld := ⟨0xE0010, 0, 0, 0, 1⟩
def UPD_CTRL_CONFIRM : Fld := ⟨0xE0010, 0, 0, 1, 1⟩
def UPD_CTRL_ROLLBACK : Fld := ⟨0xE0010, 0, 0, 2, 1⟩
def UPD_CTRL_ABORT : Fld := ⟨0xE0010, 0, 0, 3, 1⟩

def UPD_REMAIN_S : Fld := ⟨0xE0014, 0, 0, 0, 16⟩

def UPD_SLOT_ACTIVE : Fld := ⟨0xE0018, 0, 0, 0, 1⟩
def UPD_SLOT_TRIAL : Fld := ⟨0xE0018, 0, 0, 1, 1⟩

def UPD_SEQ_CONFIRMED : Fld := ⟨0xE001C, 0, 0, 0, 32⟩

def UPD_SEQ_STAGED_SEQ : Fld := ⟨0xE0020, 0, 0, 0, 32⟩

def UPD_LAST_OUTCOME : Fld := ⟨0xE0024, 0, 0, 0, 3⟩
def UPD_LAST_CAUSE : Fld := ⟨0xE0024, 0, 0, 8, 4⟩
def UPD_LAST_PAUSE : Fld := ⟨0xE0024, 0, 0, 16, 16⟩

def UPD_STAT_TRIAL_WRITES : Fld := ⟨0xE0028, 0, 0, 0, 16⟩
def UPD_STAT_SEAL_FAIL : Fld := ⟨0xE0028, 0, 0, 16, 16⟩

def UPD_EVT_STAGED : Fld := ⟨0xE002C, 0, 0, 0, 1⟩
def UPD_EVT_TRIAL : Fld := ⟨0xE002C, 0, 0, 1, 1⟩
def UPD_EVT_CONFIRMED : Fld := ⟨0xE002C, 0, 0, 2, 1⟩
def UPD_EVT_ROLLED_BACK : Fld := ⟨0xE002C, 0, 0, 3, 1⟩
def UPD_EVT_FAILED : Fld := ⟨0xE002C, 0, 0, 4, 1⟩

def UPD_PART_ACTIVE_VERSION : Fld := ⟨0xE0100, 16, 0, 0, 32⟩

def UPD_PART_STAGED_VERSION : Fld := ⟨0xE0104, 16, 0, 0, 32⟩

def UPD_PART_STAT_LISTED : Fld := ⟨0xE0108, 16, 0, 0, 1⟩
def UPD_PART_STAT_VERIFIED : Fld := ⟨0xE0108, 16, 0, 1, 1⟩

def HOST_CTRL_TCP_EN : Fld := ⟨0x110000, 0, 0, 0, 1⟩
def HOST_CTRL_UDP_EN : Fld := ⟨0x110000, 0, 0, 1, 1⟩
def HOST_CTRL_IDLE : Fld := ⟨0x110000, 0, 0, 8, 8⟩

def HOST_WINDOW_KIB : Fld := ⟨0x110004, 0, 0, 0, 9⟩

def HOST_STAT_SESSIONS : Fld := ⟨0x110008, 0, 0, 0, 4⟩
def HOST_STAT_PEERS_UP : Fld := ⟨0x110008, 0, 0, 8, 4⟩

def HOST_EVT_REFUSED : Fld := ⟨0x11000C, 0, 0, 0, 1⟩
def HOST_EVT_PEER_DOWN : Fld := ⟨0x11000C, 0, 0, 1, 1⟩
def HOST_EVT_PEER_ID : Fld := ⟨0x11000C, 0, 0, 2, 1⟩

def HOST_CNT_DUP : Fld := ⟨0x110010, 0, 0, 0, 16⟩
def HOST_CNT_AUTH : Fld := ⟨0x110010, 0, 0, 16, 16⟩

def HOST_SESS_STATE : Fld := ⟨0x110100, 16, 0, 0, 2⟩
def HOST_SESS_ROLE : Fld := ⟨0x110100, 16, 0, 2, 3⟩
def HOST_SESS_DTLS : Fld := ⟨0x110100, 16, 0, 5, 1⟩
def HOST_SESS_VERSION : Fld := ⟨0x110100, 16, 0, 8, 4⟩
def HOST_SESS_FEATURES : Fld := ⟨0x110100, 16, 0, 16, 6⟩

def HOST_SESS_TXN_OPEN : Fld := ⟨0x110104, 16, 0, 0, 1⟩
def HOST_SESS_TXN_WORDS : Fld := ⟨0x110104, 16, 0, 16, 13⟩

def HOST_SESS_REQ_ID : Fld := ⟨0x110108, 16, 0, 0, 32⟩

def HOST_PEER_CFG_EN : Fld := ⟨0x110400, 32, 0, 0, 1⟩
def HOST_PEER_CFG_FAMILY : Fld := ⟨0x110400, 32, 0, 1, 1⟩

def HOST_PEER_ADDR_ADDR : Fld := ⟨0x110404, 32, 4, 0, 32⟩

def HOST_PEER_ID_LO_SERIAL : Fld := ⟨0x110414, 32, 0, 0, 32⟩

def HOST_PEER_ID_HI_SERIAL : Fld := ⟨0x110418, 32, 0, 0, 32⟩

def HOST_PEER_STAT_STATE : Fld := ⟨0x11041C, 32, 0, 0, 2⟩
def HOST_PEER_STAT_INITIATOR : Fld := ⟨0x11041C, 32, 0, 2, 1⟩
def HOST_PEER_STAT_DROPPED : Fld := ⟨0x11041C, 32, 0, 8, 8⟩
def HOST_PEER_STAT_AGE : Fld := ⟨0x11041C, 32, 0, 16, 16⟩

def FP_INPUT_STATE : Fld := ⟨0xF0000, 0, 0, 0, 15⟩

def FP_RAW_RAW : Fld := ⟨0xF0004, 0, 0, 0, 15⟩

def FP_STUCK_STUCK : Fld := ⟨0xF0008, 0, 0, 0, 7⟩

def FP_CHATTER_CHATTER : Fld := ⟨0xF000C, 0, 0, 0, 15⟩

def FP_STAT_SWITCH : Fld := ⟨0xF0010, 0, 0, 0, 2⟩
def FP_STAT_SW_FAULT : Fld := ⟨0xF0010, 0, 0, 2, 1⟩
def FP_STAT_DISPLAY : Fld := ⟨0xF0010, 0, 0, 3, 1⟩
def FP_STAT_PAGE : Fld := ⟨0xF0010, 0, 0, 4, 3⟩

def FP_EVT_STUCK : Fld := ⟨0xF0014, 0, 0, 0, 1⟩
def FP_EVT_CHATTER : Fld := ⟨0xF0014, 0, 0, 1, 1⟩
def FP_EVT_DIN : Fld := ⟨0xF0014, 0, 0, 2, 1⟩
def FP_EVT_PIN_LOCK : Fld := ⟨0xF0014, 0, 0, 3, 1⟩
def FP_EVT_USB : Fld := ⟨0xF0014, 0, 0, 4, 1⟩

def FP_DIN_POL_INVERT : Fld := ⟨0xF0018, 0, 0, 0, 4⟩

def FP_CFG_BLANK : Fld := ⟨0xF001C, 0, 0, 0, 8⟩

def FP_PAD_CFG_THRESH : Fld := ⟨0xF0020, 0, 0, 0, 8⟩
def FP_PAD_CFG_HOLD : Fld := ⟨0xF0020, 0, 0, 8, 8⟩

def FP_PAD_RAW_COUNT : Fld := ⟨0xF0024, 0, 0, 0, 16⟩

def FP_PIN_SET_PIN : Fld := ⟨0xF0028, 0, 0, 0, 20⟩

def FP_USB_STAT_VBUS : Fld := ⟨0xF002C, 0, 0, 0, 1⟩
def FP_USB_STAT_CONFIGURED : Fld := ⟨0xF002C, 0, 0, 1, 1⟩
def FP_USB_STAT_LOCKOUT : Fld := ⟨0xF002C, 0, 0, 2, 1⟩
def FP_USB_STAT_FAILS : Fld := ⟨0xF002C, 0, 0, 4, 3⟩

def FP_KEY_CNT_EVENTS : Fld := ⟨0xF0030, 0, 0, 0, 16⟩

def ROD_FLT_STAT_INSVC : Fld := ⟨0x30040, 0, 0, 0, 4⟩
def ROD_FLT_STAT_QUEUED : Fld := ⟨0x30040, 0, 0, 4, 3⟩
def ROD_FLT_STAT_GARNET : Fld := ⟨0x30040, 0, 0, 7, 1⟩
def ROD_FLT_STAT_HOLD : Fld := ⟨0x30040, 0, 0, 8, 1⟩
def ROD_FLT_STAT_UNACK : Fld := ⟨0x30040, 0, 0, 9, 1⟩

def ROD_FLT_QUEUE_CLASSES : Fld := ⟨0x30044, 0, 0, 0, 16⟩

def ROD_FLT_CNT_RAISED : Fld := ⟨0x3004C, 4, 0, 0, 16⟩

def ROD_FLT_GARNET_ENTRIES : Fld := ⟨0x30070, 0, 0, 0, 8⟩
def ROD_FLT_GARNET_FIRST : Fld := ⟨0x30070, 0, 0, 8, 4⟩
def ROD_FLT_GARNET_SECOND : Fld := ⟨0x30070, 0, 0, 12, 4⟩
def ROD_FLT_GARNET_CAUSE : Fld := ⟨0x30070, 0, 0, 16, 2⟩

def ROD_FLT_GARNET_FRAME_FRAME : Fld := ⟨0x30074, 0, 0, 0, 32⟩

def ROD_FLT_CTRL_ACK : Fld := ⟨0x30078, 0, 0, 0, 1⟩
def ROD_FLT_CTRL_RELEASE : Fld := ⟨0x30078, 0, 0, 1, 1⟩

def ROD_FLT_EVT_FAULT : Fld := ⟨0x3007C, 0, 0, 0, 1⟩
def ROD_FLT_EVT_GARNET : Fld := ⟨0x3007C, 0, 0, 1, 1⟩

def ROD_WDG_EXPIRED : Fld := ⟨0x30118, 32, 0, 0, 16⟩
def ROD_WDG_RESETTING : Fld := ⟨0x30118, 32, 0, 16, 1⟩

end R

end Sys2Proof.Machine
end

