-- ==== Sys2Proof/Machine/RegMap.lean ====
section
/-! DEFINITION. The register address map (01_architecture.md R12, R26): every register the owning chapters define, with
its fields, access types (00_scope.md R8), reset values and legal ranges, in the order of the windows. A reset value that
depends on the part or the index is in `dynReset`. -/

namespace Sys2Proof.Machine

/-- Access types, 00_scope.md R8. -/
inductive Acc where
  | ro | rw | w1c | w1s | wo | rclr
  deriving DecidableEq, Repr

/-- The stated range of a writable field. -/
inductive Legal where
  | any
  | span (lo hi : Nat)
  | signed (lo hi : Int)
  | among (vs : List Nat)
  deriving DecidableEq, Repr

/-- One field of a register. `stored`: kept by its unit across a start (log entry 3). -/
structure Field where
  lo : Nat
  width : Nat
  acc : Acc
  reset : Nat
  stored : Bool
  legal : Legal
  deriving DecidableEq, Repr

/-- One register, or an array of `count` × `count2` registers. `dyn`: its reset value depends on the part or index. -/
structure Reg where
  base : Nat
  stride : Nat
  count : Nat
  stride2 : Nat
  count2 : Nat
  dyn : Bool
  fields : List Field
  deriving DecidableEq, Repr

def sysRegs0 : List Reg := [
  -- SYS_IDENT
  ⟨0x0, 0, 1, 0, 1, true, [⟨0, 4, .ro, 0, false, .any⟩, ⟨8, 8, .ro, 177, false, .any⟩,
    ⟨16, 1, .ro, 0, false, .any⟩, ⟨17, 1, .ro, 0, false, .any⟩,
    ⟨18, 1, .ro, 0, false, .any⟩, ⟨24, 4, .ro, 1, false, .any⟩,
    ⟨28, 4, .ro, 1, false, .any⟩]⟩,
  -- SYS_READY
  ⟨0x4, 0, 1, 0, 1, false, [⟨0, 18, .ro, 0, false, .any⟩]⟩,
  -- SYS_FRAME_COUNT
  ⟨0x8, 0, 1, 0, 1, false, [⟨0, 32, .ro, 0, false, .any⟩]⟩,
  -- SYS_READY_TIME
  ⟨0x100, 4, 18, 0, 1, false, [⟨0, 32, .ro, 4294967295, false, .any⟩]⟩]

/-- The registers of unit 0. -/
def sysRegs : List Reg := sysRegs0

def pwrRegs0 : List Reg := [
  -- PWR_CAP
  ⟨0x11000, 0, 1, 0, 1, false, [⟨0, 24, .rw, 16777215, false, .any⟩]⟩,
  -- PWR_AGATE_CAP
  ⟨0x11004, 0, 1, 0, 1, false, [⟨0, 24, .rw, 16777215, false, .any⟩]⟩,
  -- PWR_DR
  ⟨0x11008, 0, 1, 0, 1, false, [⟨0, 7, .rw, 100, false, (.span 0 100)⟩, ⟨7, 1, .rw, 0, false, .any⟩]⟩,
  -- PWR_DR_UNTIL
  ⟨0x1100C, 0, 1, 0, 1, false, [⟨0, 32, .rw, 4294967295, false, .any⟩]⟩,
  -- PWR_DR_IN
  ⟨0x11010, 0, 1, 0, 1, false, [⟨0, 3, .rw, 0, false, (.span 0 4)⟩, ⟨8, 7, .rw, 50, false, (.span 0 100)⟩]⟩,
  -- PWR_TALLY_CTRL
  ⟨0x11014, 0, 1, 0, 1, false, [⟨0, 1, .rw, 0, false, .any⟩, ⟨8, 8, .rw, 10, false, (.span 1 255)⟩,
    ⟨16, 8, .rw, 50, false, (.span 1 255)⟩]⟩,
  -- PWR_TALLY_CAP
  ⟨0x11018, 0, 1, 0, 1, false, [⟨0, 32, .ro, 0, false, .any⟩]⟩,
  -- PWR_TALLY_LOAD
  ⟨0x1101C, 0, 1, 0, 1, false, [⟨0, 32, .ro, 0, false, .any⟩]⟩,
  -- PWR_TALLY_HEAD
  ⟨0x11020, 0, 1, 0, 1, false, [⟨0, 32, .ro, 0, false, .any⟩]⟩,
  -- PWR_TALLY_STAT
  ⟨0x11024, 0, 1, 0, 1, false, [⟨0, 1, .ro, 0, false, .any⟩, ⟨1, 1, .ro, 0, false, .any⟩,
    ⟨2, 1, .ro, 0, false, .any⟩, ⟨16, 16, .rclr, 0, false, .any⟩]⟩,
  -- PWR_FEEDER_CAP
  ⟨0x11100, 16, 8, 0, 1, false, [⟨0, 24, .rw, 16777215, false, .any⟩]⟩,
  -- PWR_FEEDER_LOAD
  ⟨0x11104, 16, 8, 0, 1, false, [⟨0, 32, .ro, 0, false, .any⟩]⟩,
  -- PWR_FEEDER_HEAD
  ⟨0x11108, 16, 8, 0, 1, false, [⟨0, 32, .ro, 0, false, .any⟩]⟩,
  -- PWR_FEEDER_GRANT
  ⟨0x1110C, 16, 8, 0, 1, false, [⟨0, 32, .ro, 0, false, .any⟩]⟩,
  -- PWR_STAT
  ⟨0x10000, 0, 1, 0, 1, false, [⟨0, 1, .ro, 0, false, .any⟩, ⟨1, 2, .ro, 0, false, .any⟩,
    ⟨3, 1, .ro, 0, false, .any⟩, ⟨4, 1, .ro, 0, false, .any⟩,
    ⟨5, 1, .ro, 0, false, .any⟩]⟩,
  -- PWR_REQ
  ⟨0x10004, 0, 1, 0, 1, false, [⟨0, 1, .rw, 0, false, .any⟩]⟩,
  -- PWR_VAUX
  ⟨0x10008, 0, 1, 0, 1, false, [⟨0, 16, .ro, 0, false, .any⟩]⟩,
  -- PWR_VBKP
  ⟨0x1000C, 0, 1, 0, 1, false, [⟨0, 16, .ro, 0, false, .any⟩]⟩,
  -- PWR_STORE
  ⟨0x10010, 0, 1, 0, 1, false, [⟨0, 16, .ro, 0, false, .any⟩, ⟨16, 7, .ro, 0, false, .any⟩,
    ⟨24, 1, .ro, 0, false, .any⟩]⟩,
  -- PWR_STORE_CAP
  ⟨0x10014, 0, 1, 0, 1, false, [⟨0, 8, .ro, 0, false, .any⟩]⟩]

def pwrRegs1 : List Reg := [
  -- PWR_ONYX
  ⟨0x10018, 0, 1, 0, 1, false, [⟨0, 3, .ro, 0, true, .any⟩, ⟨4, 3, .ro, 0, true, .any⟩,
    ⟨8, 8, .ro, 0, true, .any⟩]⟩,
  -- PWR_EVT
  ⟨0x1001C, 0, 1, 0, 1, false, [⟨0, 1, .w1c, 0, false, .any⟩, ⟨1, 1, .w1c, 0, false, .any⟩,
    ⟨2, 1, .w1c, 0, false, .any⟩, ⟨3, 1, .w1c, 0, false, .any⟩]⟩,
  -- PWR_CNT
  ⟨0x10020, 0, 1, 0, 1, false, [⟨0, 16, .rclr, 0, false, .any⟩]⟩]

/-- The registers of unit 1. -/
def pwrRegs : List Reg := pwrRegs0 ++ pwrRegs1

def icuRegs0 : List Reg := [
  -- ICU_POOL
  ⟨0x20000, 0, 1, 0, 1, true, [⟨0, 16, .rw, 0, false, .any⟩]⟩,
  -- ICU_STAT
  ⟨0x20004, 0, 1, 0, 1, false, [⟨0, 16, .rclr, 0, false, .any⟩, ⟨16, 1, .ro, 0, false, .any⟩]⟩,
  -- ICU_SWSET
  ⟨0x20008, 4, 2, 0, 1, false, [⟨0, 32, .w1s, 0, false, .any⟩]⟩,
  -- ICU_THRESH
  ⟨0x20400, 16, 18, 0, 1, false, [⟨0, 4, .rw, 0, false, .any⟩]⟩,
  -- ICU_RUNPRI
  ⟨0x20404, 16, 18, 0, 1, false, [⟨0, 4, .ro, 0, false, .any⟩, ⟨4, 4, .ro, 0, false, .any⟩,
    ⟨8, 1, .ro, 1, false, .any⟩]⟩,
  -- ICU_MOD
  ⟨0x20408, 16, 18, 0, 1, false, [⟨0, 10, .rw, 0, false, .any⟩]⟩,
  -- ICU_CLAIM
  ⟨0x2040C, 16, 18, 0, 1, false, [⟨0, 8, .ro, 0, false, .any⟩, ⟨8, 4, .ro, 0, false, .any⟩,
    ⟨12, 4, .ro, 0, false, .any⟩, ⟨16, 1, .ro, 0, false, .any⟩,
    ⟨17, 1, .ro, 0, false, .any⟩]⟩,
  -- ICU_SRC_CFG
  ⟨0x21000, 16, 256, 0, 1, true, [⟨0, 4, .rw, 0, false, .any⟩, ⟨4, 5, .rw, 16, false, (.among [0, 1, 2, 3, 4, 5, 6, 7, 8, 9, 10, 11, 12, 13, 14, 15, 16, 17, 31])⟩,
    ⟨9, 6, .ro, 0, false, .any⟩, ⟨15, 1, .ro, 0, false, .any⟩]⟩,
  -- ICU_SRC_STAT
  ⟨0x21004, 16, 256, 0, 1, false, [⟨0, 1, .ro, 0, false, .any⟩, ⟨1, 1, .ro, 0, false, .any⟩,
    ⟨2, 1, .ro, 0, false, .any⟩, ⟨3, 1, .w1c, 0, false, .any⟩,
    ⟨8, 8, .ro, 0, false, .any⟩, ⟨16, 5, .ro, 0, false, .any⟩]⟩,
  -- ICU_LATE_DROP
  ⟨0x21008, 16, 256, 0, 1, false, [⟨0, 16, .rclr, 0, false, .any⟩]⟩,
  -- ICU_TAKEN
  ⟨0x2100C, 16, 256, 0, 1, false, [⟨0, 32, .rclr, 0, false, .any⟩]⟩]

/-- The registers of unit 2. -/
def icuRegs : List Reg := icuRegs0

def rodRegs0 : List Reg := [
  -- ROD_ADMIT_LIMIT
  ⟨0x30000, 0, 1, 0, 1, false, [⟨0, 7, .rw, 90, false, (.span 10 90)⟩]⟩,
  -- ROD_DERATE
  ⟨0x30004, 0, 1, 0, 1, false, [⟨0, 16, .ro, 23040, false, .any⟩, ⟨16, 16, .ro, 0, false, .any⟩]⟩,
  -- ROD_PORT
  ⟨0x30008, 0, 1, 0, 1, false, [⟨0, 1, .rw, 0, false, .any⟩]⟩,
  -- ROD_PORT_LOAD
  ⟨0x3000C, 0, 1, 0, 1, false, [⟨0, 23, .ro, 0, false, .any⟩]⟩,
  -- ROD_BAR_TIME
  ⟨0x30010, 0, 1, 0, 1, false, [⟨0, 16, .ro, 0, false, .any⟩, ⟨16, 16, .ro, 0, false, .any⟩]⟩,
  -- ROD_BAR_MAX
  ⟨0x30014, 0, 1, 0, 1, false, [⟨0, 16, .rclr, 0, false, .any⟩]⟩,
  -- ROD_CONFLICT
  ⟨0x30018, 0, 1, 0, 1, false, [⟨0, 16, .rclr, 0, false, .any⟩]⟩,
  -- ROD_PARITY
  ⟨0x3001C, 0, 1, 0, 1, false, [⟨0, 16, .rclr, 0, false, .any⟩, ⟨16, 16, .rclr, 0, false, .any⟩]⟩,
  -- ROD_LOG_FREE
  ⟨0x30020, 0, 1, 0, 1, false, [⟨0, 19, .ro, 262144, false, .any⟩]⟩,
  -- ROD_LOAD
  ⟨0x30100, 32, 16, 0, 1, false, [⟨0, 23, .ro, 0, false, .any⟩]⟩,
  -- ROD_ALLOW
  ⟨0x30104, 32, 16, 0, 1, false, [⟨0, 23, .ro, 0, false, .any⟩]⟩,
  -- ROD_USED
  ⟨0x30108, 32, 16, 0, 1, false, [⟨0, 23, .ro, 0, false, .any⟩]⟩,
  -- ROD_DEFER
  ⟨0x3010C, 32, 16, 0, 1, false, [⟨0, 16, .rclr, 0, false, .any⟩]⟩,
  -- ROD_CUR
  ⟨0x30110, 32, 16, 0, 1, false, [⟨0, 6, .ro, 0, false, .any⟩, ⟨6, 1, .ro, 1, false, .any⟩,
    ⟨7, 4, .ro, 0, false, .any⟩]⟩,
  -- ROD_EVRES
  ⟨0x30114, 32, 16, 0, 1, false, [⟨0, 23, .ro, 0, false, .any⟩]⟩,
  -- ROD_BEAD_STATE
  ⟨0x31000, 32, 1024, 0, 1, false, [⟨0, 3, .ro, 0, false, .any⟩, ⟨3, 1, .ro, 0, false, .any⟩,
    ⟨4, 2, .ro, 0, false, .any⟩, ⟨6, 1, .ro, 0, false, .any⟩,
    ⟨7, 1, .ro, 0, false, .any⟩, ⟨8, 8, .ro, 0, false, .any⟩]⟩,
  -- ROD_BEAD_FAULT
  ⟨0x31004, 32, 1024, 0, 1, false, [⟨0, 8, .ro, 0, false, .any⟩, ⟨8, 24, .ro, 0, false, .any⟩]⟩,
  -- ROD_BEAD_CYCLES
  ⟨0x31008, 32, 1024, 0, 1, false, [⟨0, 23, .ro, 0, false, .any⟩]⟩,
  -- ROD_BEAD_BUDGET
  ⟨0x3100C, 32, 1024, 0, 1, false, [⟨0, 23, .ro, 0, false, .any⟩]⟩,
  -- ROD_BEAD_NEXT
  ⟨0x31010, 32, 1024, 0, 1, false, [⟨0, 32, .ro, 4294967295, false, .any⟩]⟩]

def rodRegs1 : List Reg := [
  -- ROD_BEAD_CTRL
  ⟨0x31014, 32, 1024, 0, 1, false, [⟨0, 1, .wo, 0, false, .any⟩, ⟨1, 1, .wo, 0, false, .any⟩,
    ⟨2, 1, .wo, 0, false, .any⟩]⟩,
  -- ROD_FLT_STAT
  ⟨0x30040, 0, 1, 0, 1, false, [⟨0, 4, .ro, 0, false, .any⟩, ⟨4, 3, .ro, 0, false, .any⟩,
    ⟨7, 1, .ro, 0, false, .any⟩, ⟨8, 1, .ro, 0, false, .any⟩,
    ⟨9, 1, .ro, 0, false, .any⟩]⟩,
  -- ROD_FLT_QUEUE
  ⟨0x30044, 0, 1, 0, 1, false, [⟨0, 16, .ro, 0, false, .any⟩]⟩,
  -- ROD_FLT_CNT
  ⟨0x3004C, 4, 9, 0, 1, false, [⟨0, 16, .rclr, 0, false, .any⟩]⟩,
  -- ROD_FLT_GARNET
  ⟨0x30070, 0, 1, 0, 1, false, [⟨0, 8, .ro, 0, false, .any⟩, ⟨8, 4, .ro, 0, false, .any⟩,
    ⟨12, 4, .ro, 0, false, .any⟩, ⟨16, 2, .ro, 0, false, .any⟩]⟩,
  -- ROD_FLT_GARNET_FRAME
  ⟨0x30074, 0, 1, 0, 1, false, [⟨0, 32, .ro, 4294967295, false, .any⟩]⟩,
  -- ROD_FLT_CTRL
  ⟨0x30078, 0, 1, 0, 1, false, [⟨0, 1, .wo, 0, false, .any⟩, ⟨1, 1, .wo, 0, false, .any⟩]⟩,
  -- ROD_FLT_EVT
  ⟨0x3007C, 0, 1, 0, 1, false, [⟨0, 1, .w1c, 0, false, .any⟩, ⟨1, 1, .w1c, 0, false, .any⟩]⟩,
  -- ROD_WDG
  ⟨0x30118, 32, 16, 0, 1, false, [⟨0, 16, .rclr, 0, false, .any⟩, ⟨16, 1, .ro, 0, false, .any⟩]⟩]

/-- The registers of unit 3. -/
def rodRegs : List Reg := rodRegs0 ++ rodRegs1

def flowRegs0 : List Reg := [
  -- FLOW_CTRL
  ⟨0x40000, 0, 1, 0, 1, false, [⟨0, 1, .rw, 1, false, .any⟩, ⟨1, 1, .wo, 0, false, .any⟩,
    ⟨2, 1, .wo, 0, false, .any⟩]⟩,
  -- FLOW_STAT
  ⟨0x40004, 0, 1, 0, 1, false, [⟨0, 1, .w1c, 0, false, .any⟩, ⟨1, 1, .ro, 0, false, .any⟩,
    ⟨2, 17, .ro, 0, false, .any⟩]⟩,
  -- FLOW_CFG_RES
  ⟨0x40008, 0, 1, 0, 1, false, [⟨0, 8, .ro, 0, false, .any⟩, ⟨8, 4, .ro, 0, false, .any⟩,
    ⟨12, 12, .ro, 0, false, .any⟩]⟩,
  -- FLOW_TIME
  ⟨0x4000C, 0, 1, 0, 1, false, [⟨0, 16, .ro, 0, false, .any⟩, ⟨16, 16, .rclr, 0, false, .any⟩]⟩,
  -- FLOW_DROP
  ⟨0x40010, 0, 1, 0, 1, false, [⟨0, 6, .rclr, 0, false, .any⟩, ⟨6, 6, .rclr, 0, false, .any⟩,
    ⟨12, 6, .rclr, 0, false, .any⟩, ⟨18, 6, .rclr, 0, false, .any⟩,
    ⟨24, 6, .rclr, 0, false, .any⟩]⟩,
  -- FLOW_FUSED
  ⟨0x40014, 0, 1, 0, 1, false, [⟨0, 32, .rclr, 0, false, .any⟩]⟩,
  -- FLOW_EVT
  ⟨0x40018, 0, 1, 0, 1, false, [⟨0, 8, .w1c, 0, false, .any⟩]⟩,
  -- FLOW_LSEL
  ⟨0x40020, 0, 1, 0, 1, false, [⟨0, 12, .rw, 0, false, .any⟩, ⟨12, 6, .rw, 0, false, .any⟩]⟩,
  -- FLOW_LDATA
  ⟨0x40040, 4, 8, 0, 1, false, [⟨0, 32, .rw, 0, false, .any⟩]⟩,
  -- FLOW_CELL
  ⟨0x40060, 4, 5, 0, 1, false, [⟨0, 32, .ro, 0, false, .any⟩]⟩,
  -- FLOW_LTF
  ⟨0x40080, 4, 4, 0, 1, false, [⟨0, 32, .ro, 0, false, .any⟩]⟩,
  -- FLOW_TUNE
  ⟨0x40100, 4, 16, 0, 1, true, [⟨0, 32, .rw, 0, false, .any⟩]⟩,
  -- FLOW_BND_CFG
  ⟨0x40200, 16, 64, 0, 1, false, [⟨0, 12, .rw, 0, false, .any⟩, ⟨12, 1, .rw, 0, false, .any⟩,
    ⟨13, 3, .rw, 0, false, .any⟩, ⟨16, 12, .rw, 0, false, .any⟩,
    ⟨31, 1, .rw, 0, false, .any⟩]⟩,
  -- FLOW_BND_STAT
  ⟨0x40204, 16, 64, 0, 1, false, [⟨0, 1, .ro, 0, false, .any⟩, ⟨1, 1, .w1c, 0, false, .any⟩,
    ⟨8, 8, .ro, 0, false, .any⟩]⟩,
  -- FLOW_BND_FLOW
  ⟨0x40208, 16, 64, 0, 1, false, [⟨0, 32, .ro, 0, false, .any⟩]⟩]

/-- The registers of unit 4. -/
def flowRegs : List Reg := flowRegs0

def ltabRegs0 : List Reg := [
  -- LTAB_WIN_BASE
  ⟨0x50000, 0, 1, 0, 1, false, [⟨0, 7, .rw, 0, false, (.span 0 79)⟩]⟩,
  -- LTAB_STAT
  ⟨0x50004, 0, 1, 0, 1, false, [⟨0, 15, .ro, 0, false, .any⟩, ⟨15, 1, .ro, 0, false, .any⟩,
    ⟨16, 1, .ro, 0, false, .any⟩, ⟨17, 1, .ro, 0, false, .any⟩,
    ⟨18, 1, .ro, 0, false, .any⟩, ⟨19, 1, .ro, 0, false, .any⟩,
    ⟨20, 12, .ro, 0, false, .any⟩]⟩,
  -- LTAB_FAULT_WR
  ⟨0x50010, 0, 1, 0, 1, false, [⟨0, 32, .ro, 0, false, .any⟩]⟩,
  -- LTAB_IMG_CTRL
  ⟨0x50020, 0, 1, 0, 1, false, [⟨0, 6, .wo, 0, false, .any⟩, ⟨8, 2, .wo, 0, false, .any⟩]⟩,
  -- LTAB_IMG
  ⟨0x51000, 16, 64, 0, 1, false, [⟨0, 3, .ro, 0, false, .any⟩, ⟨8, 8, .ro, 0, false, .any⟩,
    ⟨16, 11, .ro, 0, false, .any⟩]⟩,
  -- LTAB_IMG_RES
  ⟨0x51004, 16, 64, 0, 1, false, [⟨0, 8, .ro, 0, false, .any⟩, ⟨8, 8, .ro, 0, false, .any⟩,
    ⟨16, 8, .ro, 0, false, .any⟩]⟩,
  -- LTAB_IMG_VER
  ⟨0x51008, 16, 64, 0, 1, false, [⟨0, 32, .ro, 0, false, .any⟩]⟩,
  -- LTAB_IMG_ACT
  ⟨0x5100C, 16, 64, 0, 1, false, [⟨0, 32, .ro, 4294967295, false, .any⟩]⟩,
  -- LTAB_FAULT
  ⟨0x50400, 8, 64, 0, 1, false, [⟨0, 14, .ro, 0, false, .any⟩, ⟨16, 8, .ro, 0, false, .any⟩]⟩,
  -- LTAB_FAULT_FRAME
  ⟨0x50404, 8, 64, 0, 1, false, [⟨0, 32, .ro, 0, false, .any⟩]⟩,
  -- SEG_CTRL
  ⟨0x50600, 0, 1, 0, 1, false, [⟨0, 1, .rw, 0, false, .any⟩]⟩,
  -- SEG_REPORT
  ⟨0x50604, 0, 1, 0, 1, false, [⟨0, 12, .rw, 60, false, (.span 10 3600)⟩, ⟨16, 12, .rw, 300, false, (.span 30 3600)⟩]⟩,
  -- SEG_TIMING
  ⟨0x50608, 0, 1, 0, 1, false, [⟨0, 10, .rw, 30, false, (.span 0 600)⟩, ⟨16, 7, .rw, 20, false, (.span 1 120)⟩]⟩,
  -- SEG_MISMATCH
  ⟨0x5060C, 0, 1, 0, 1, false, [⟨0, 16, .rw, 1311, false, .any⟩]⟩,
  -- SEG_DEFAULT_FS
  ⟨0x50610, 0, 1, 0, 1, false, [⟨0, 16, .rw, 32768, false, .any⟩]⟩,
  -- SEG_ENROL_CNT
  ⟨0x50614, 0, 1, 0, 1, false, [⟨0, 9, .ro, 0, false, .any⟩]⟩,
  -- SEG_ENROL_SEL
  ⟨0x50618, 0, 1, 0, 1, false, [⟨0, 8, .rw, 0, false, .any⟩]⟩,
  -- SEG_ENROL_EUI_LO
  ⟨0x5061C, 0, 1, 0, 1, false, [⟨0, 32, .ro, 0, false, .any⟩]⟩,
  -- SEG_ENROL_EUI_HI
  ⟨0x50620, 0, 1, 0, 1, false, [⟨0, 32, .ro, 0, false, .any⟩]⟩,
  -- SEG_ENROL_INFO
  ⟨0x50624, 0, 1, 0, 1, false, [⟨0, 16, .ro, 0, false, .any⟩, ⟨16, 2, .ro, 0, false, .any⟩,
    ⟨18, 1, .ro, 0, false, .any⟩]⟩]

def ltabRegs1 : List Reg := [
  -- SEG_CMD_RES_WR
  ⟨0x50628, 0, 1, 0, 1, false, [⟨0, 32, .ro, 0, false, .any⟩]⟩,
  -- SEG_BCAST
  ⟨0x5062C, 0, 1, 0, 1, false, [⟨0, 16, .ro, 0, false, .any⟩, ⟨16, 8, .ro, 0, false, .any⟩]⟩,
  -- SEG_LSEL
  ⟨0x50630, 0, 1, 0, 1, false, [⟨0, 14, .rw, 0, false, .any⟩]⟩,
  -- SEG_LSTATE
  ⟨0x50634, 0, 1, 0, 1, false, [⟨0, 3, .ro, 0, false, .any⟩, ⟨3, 1, .ro, 0, false, .any⟩]⟩,
  -- SEG_LSCHED
  ⟨0x50638, 0, 1, 0, 1, false, [⟨0, 16, .ro, 0, false, .any⟩, ⟨16, 1, .ro, 0, false, .any⟩]⟩,
  -- SEG_LTRAF
  ⟨0x5063C, 0, 1, 0, 1, false, [⟨0, 16, .ro, 0, false, .any⟩, ⟨16, 1, .ro, 0, false, .any⟩]⟩,
  -- SEG_LHOLD
  ⟨0x50640, 0, 1, 0, 1, false, [⟨0, 32, .ro, 0, false, .any⟩]⟩,
  -- SEG_FAULT_CFG
  ⟨0x50644, 0, 1, 0, 1, false, [⟨0, 8, .rw, 10, false, (.span 1 255)⟩, ⟨8, 8, .rw, 8, false, (.span 2 64)⟩]⟩,
  -- SEG_FAULT_ACTIVE
  ⟨0x50648, 0, 1, 0, 1, false, [⟨0, 15, .ro, 0, false, .any⟩]⟩,
  -- SEG_RECON_CFG
  ⟨0x5064C, 0, 1, 0, 1, false, [⟨0, 6, .rw, 15, false, (.among [5, 10, 12, 15, 20, 30, 60])⟩, ⟨16, 16, .rw, 3277, false, (.span 1 32767)⟩]⟩,
  -- SEG_RECON_EVT
  ⟨0x50650, 0, 1, 0, 1, false, [⟨0, 6, .w1c, 0, false, .any⟩]⟩,
  -- SEG_FW_CTRL
  ⟨0x50654, 0, 1, 0, 1, false, [⟨0, 4, .wo, 0, false, .any⟩, ⟨8, 2, .wo, 0, false, .any⟩]⟩,
  -- SEG_FW_CFG
  ⟨0x50658, 0, 1, 0, 1, false, [⟨0, 4, .rw, 8, false, (.span 1 15)⟩]⟩,
  -- SEG_FW_ACT
  ⟨0x5065C, 0, 1, 0, 1, false, [⟨0, 32, .rw, 0, false, .any⟩]⟩,
  -- SEG_FW_STAT
  ⟨0x50660, 0, 1, 0, 1, false, [⟨0, 3, .ro, 0, false, .any⟩, ⟨4, 4, .ro, 0, false, .any⟩]⟩,
  -- SEG_FW_COUNT
  ⟨0x50664, 0, 1, 0, 1, false, [⟨0, 15, .ro, 0, false, .any⟩, ⟨16, 15, .ro, 0, false, .any⟩]⟩,
  -- SEG_BEAD_CLASS
  ⟨0x50680, 4, 32, 0, 1, false, [⟨0, 32, .rw, 0, false, .any⟩]⟩,
  -- SEG_SAFE
  ⟨0x50700, 16, 16, 0, 1, false, [⟨0, 3, .rw, 0, false, (.span 0 4)⟩]⟩,
  -- SEG_SAFE_ARG
  ⟨0x50704, 16, 16, 0, 1, false, [⟨0, 32, .rw, 0, false, .any⟩]⟩,
  -- SEG_SAFE_LEVEL
  ⟨0x50708, 16, 16, 0, 1, false, [⟨0, 16, .rw, 0, false, .any⟩]⟩]

def ltabRegs2 : List Reg := [
  -- SEG_SAFE_UNTIL
  ⟨0x5070C, 16, 16, 0, 1, false, [⟨0, 32, .rw, 4294967295, false, .any⟩]⟩,
  -- SEG_FAULT_CNT
  ⟨0x50800, 4, 12, 0, 1, false, [⟨0, 15, .ro, 0, false, .any⟩, ⟨16, 16, .rclr, 0, false, .any⟩]⟩,
  -- SEG_CMD_RES
  ⟨0x50900, 16, 64, 0, 1, false, [⟨0, 32, .ro, 0, false, .any⟩]⟩,
  -- SEG_CMD_STAT
  ⟨0x50904, 16, 64, 0, 1, false, [⟨0, 8, .ro, 0, false, .any⟩, ⟨8, 1, .ro, 0, false, .any⟩,
    ⟨16, 14, .ro, 0, false, .any⟩]⟩,
  -- SEG_CMD_DATA0
  ⟨0x50908, 16, 64, 0, 1, false, [⟨0, 32, .ro, 0, false, .any⟩]⟩,
  -- SEG_CMD_DATA1
  ⟨0x5090C, 16, 64, 0, 1, false, [⟨0, 32, .ro, 0, false, .any⟩]⟩,
  -- SEG_RECON_MET
  ⟨0x50D00, 16, 6, 0, 1, false, [⟨0, 32, .ro, 0, false, .any⟩]⟩,
  -- SEG_RECON_LANT
  ⟨0x50D04, 16, 6, 0, 1, false, [⟨0, 32, .ro, 0, false, .any⟩]⟩,
  -- SEG_RECON_LOSS
  ⟨0x50D08, 16, 6, 0, 1, false, [⟨0, 32, .ro, 0, false, .any⟩]⟩,
  -- SEG_RECON_FLAGS
  ⟨0x50D0C, 16, 6, 0, 1, false, [⟨0, 1, .ro, 0, false, .any⟩, ⟨1, 1, .ro, 0, false, .any⟩,
    ⟨2, 1, .ro, 0, false, .any⟩, ⟨3, 1, .ro, 0, false, .any⟩]⟩]

/-- The registers of unit 5. -/
def ltabRegs : List Reg := ltabRegs0 ++ ltabRegs1 ++ ltabRegs2

def radRegs0 : List Reg := [
  -- RAD_PAN
  ⟨0x60000, 0, 1, 0, 1, false, [⟨0, 16, .rw, 0, false, (.span 0 65534)⟩]⟩,
  -- RAD_ADDR
  ⟨0x60004, 0, 1, 0, 1, false, [⟨0, 16, .rw, 16384, false, (.span 16384 65533)⟩]⟩,
  -- RAD_PREAMBLE
  ⟨0x60008, 0, 1, 0, 1, false, [⟨0, 8, .rw, 8, false, (.span 4 255)⟩]⟩,
  -- RAD_CCA
  ⟨0x6000C, 0, 1, 0, 1, false, [⟨0, 8, .rw, 171, false, (.signed (-100) (-60))⟩]⟩,
  -- RAD_AGATE
  ⟨0x60010, 0, 1, 0, 1, false, [⟨0, 3, .rw, 0, false, .any⟩]⟩,
  -- RAD_EVT
  ⟨0x60014, 0, 1, 0, 1, false, [⟨0, 1, .w1c, 0, false, .any⟩, ⟨1, 1, .w1c, 0, false, .any⟩,
    ⟨2, 1, .w1c, 0, false, .any⟩]⟩,
  -- RAD_TS_CORR
  ⟨0x60020, 4, 4, 0, 1, true, [⟨0, 16, .ro, 0, false, .any⟩]⟩,
  -- RAD_DEMOD
  ⟨0x60040, 4, 8, 0, 1, true, [⟨0, 1, .rw, 0, false, .any⟩, ⟨1, 1, .rw, 0, false, .any⟩,
    ⟨2, 2, .rw, 2, false, .any⟩, ⟨8, 8, .rw, 0, false, .any⟩,
    ⟨16, 3, .rw, 0, false, .any⟩]⟩,
  -- RAD_RXPART
  ⟨0x60080, 4, 8, 0, 1, true, [⟨0, 22, .rw, 0, false, .any⟩]⟩,
  -- RAD_RXPART_STAT
  ⟨0x600A0, 4, 8, 0, 1, true, [⟨0, 22, .ro, 0, true, .any⟩, ⟨22, 10, .rclr, 0, false, .any⟩]⟩,
  -- RAD_WIN
  ⟨0x60100, 64, 2, 0, 1, true, [⟨0, 20, .rw, 0, false, .any⟩]⟩,
  -- RAD_TXPWR
  ⟨0x60104, 64, 2, 0, 1, true, [⟨0, 8, .rw, 0, false, .any⟩]⟩,
  -- RAD_PA
  ⟨0x60108, 64, 2, 0, 1, false, [⟨0, 1, .rw, 0, false, .any⟩, ⟨1, 1, .rw, 0, false, .any⟩,
    ⟨8, 8, .rw, 20, false, (.span 1 100)⟩, ⟨16, 8, .rw, 10, false, (.span 1 100)⟩]⟩,
  -- RAD_TLQ_CFG
  ⟨0x6010C, 64, 2, 0, 1, false, [⟨0, 15, .rw, 2000, false, (.span 100 20000)⟩]⟩,
  -- RAD_TLQ_STAT
  ⟨0x60110, 64, 2, 0, 1, false, [⟨0, 7, .ro, 0, false, .any⟩, ⟨16, 16, .ro, 0, false, .any⟩]⟩,
  -- RAD_TLQ_CNT
  ⟨0x60114, 64, 2, 0, 1, false, [⟨0, 16, .rclr, 0, false, .any⟩, ⟨16, 16, .rclr, 0, false, .any⟩]⟩,
  -- RAD_RX_CNT
  ⟨0x60118, 64, 2, 0, 1, false, [⟨0, 32, .rclr, 0, false, .any⟩]⟩,
  -- RAD_RX_LOST
  ⟨0x6011C, 64, 2, 0, 1, false, [⟨0, 16, .rclr, 0, false, .any⟩, ⟨16, 16, .rclr, 0, false, .any⟩]⟩,
  -- RAD_RX_DROP
  ⟨0x60120, 64, 2, 0, 1, false, [⟨0, 16, .rclr, 0, false, .any⟩, ⟨16, 16, .rclr, 0, false, .any⟩]⟩,
  -- RAD_ACK_CNT
  ⟨0x60124, 64, 2, 0, 1, false, [⟨0, 16, .rclr, 0, false, .any⟩, ⟨16, 16, .rclr, 0, false, .any⟩]⟩]

def radRegs1 : List Reg := [
  -- RAD_TX_AIR
  ⟨0x60128, 64, 2, 0, 1, false, [⟨0, 32, .rclr, 0, false, .any⟩]⟩,
  -- RAD_HOP_CFG
  ⟨0x60800, 4, 4, 0, 1, false, [⟨0, 2, .rw, 2, false, .any⟩, ⟨31, 1, .rw, 0, false, .any⟩]⟩,
  -- RAD_HOP_ENT
  ⟨0x60900, 4, 64, 0, 1, false, [⟨0, 32, .rw, 0, false, .any⟩]⟩,
  -- RAD_FILT
  ⟨0x68000, 4, 1024, 0, 1, false, [⟨0, 1, .rw, 0, false, .any⟩, ⟨2, 1, .rw, 0, false, .any⟩,
    ⟨4, 1, .rw, 0, false, .any⟩, ⟨6, 1, .rw, 0, false, .any⟩,
    ⟨8, 1, .rw, 0, false, .any⟩, ⟨10, 1, .rw, 0, false, .any⟩,
    ⟨12, 1, .rw, 0, false, .any⟩, ⟨14, 1, .rw, 0, false, .any⟩,
    ⟨16, 1, .rw, 0, false, .any⟩, ⟨18, 1, .rw, 0, false, .any⟩,
    ⟨20, 1, .rw, 0, false, .any⟩, ⟨22, 1, .rw, 0, false, .any⟩,
    ⟨24, 1, .rw, 0, false, .any⟩, ⟨26, 1, .rw, 0, false, .any⟩,
    ⟨28, 1, .rw, 0, false, .any⟩, ⟨30, 1, .rw, 0, false, .any⟩,
    ⟨1, 1, .ro, 0, false, .any⟩, ⟨3, 1, .ro, 0, false, .any⟩,
    ⟨5, 1, .ro, 0, false, .any⟩, ⟨7, 1, .ro, 0, false, .any⟩,
    ⟨9, 1, .ro, 0, false, .any⟩, ⟨11, 1, .ro, 0, false, .any⟩,
    ⟨13, 1, .ro, 0, false, .any⟩, ⟨15, 1, .ro, 0, false, .any⟩,
    ⟨17, 1, .ro, 0, false, .any⟩, ⟨19, 1, .ro, 0, false, .any⟩,
    ⟨21, 1, .ro, 0, false, .any⟩, ⟨23, 1, .ro, 0, false, .any⟩,
    ⟨25, 1, .ro, 0, false, .any⟩, ⟨27, 1, .ro, 0, false, .any⟩,
    ⟨29, 1, .ro, 0, false, .any⟩, ⟨31, 1, .ro, 0, false, .any⟩]⟩,
  -- RAD_LINK_CFG
  ⟨0x60200, 0, 1, 0, 1, false, [⟨0, 2, .rw, 2, false, .any⟩, ⟨2, 2, .rw, 2, false, .any⟩,
    ⟨4, 2, .rw, 0, false, .any⟩, ⟨6, 2, .rw, 1, false, .any⟩,
    ⟨8, 3, .rw, 0, false, .any⟩, ⟨16, 6, .rw, 12, false, (.span 1 60)⟩]⟩,
  -- RAD_LINK_MAP_LO
  ⟨0x60204, 0, 1, 0, 1, false, [⟨0, 32, .rw, 4294967295, false, .any⟩]⟩,
  -- RAD_LINK_MAP_HI
  ⟨0x60208, 0, 1, 0, 1, false, [⟨0, 32, .rw, 4294967295, false, .any⟩]⟩,
  -- RAD_LINK_MAP_VER
  ⟨0x6020C, 0, 1, 0, 1, false, [⟨0, 8, .ro, 0, false, .any⟩]⟩,
  -- RAD_DL_CFG
  ⟨0x60210, 0, 1, 0, 1, false, [⟨0, 1, .rw, 0, false, .any⟩, ⟨8, 8, .rw, 2, false, (.span 1 255)⟩]⟩,
  -- RAD_DL_STAT
  ⟨0x60214, 0, 1, 0, 1, false, [⟨0, 10, .ro, 0, false, .any⟩, ⟨16, 16, .rclr, 0, false, .any⟩]⟩,
  -- RAD_LINK_CNT
  ⟨0x60218, 0, 1, 0, 1, false, [⟨0, 16, .rclr, 0, false, .any⟩, ⟨16, 16, .rclr, 0, false, .any⟩]⟩,
  -- RAD_LINK_CNT2
  ⟨0x6021C, 0, 1, 0, 1, false, [⟨0, 16, .rclr, 0, false, .any⟩, ⟨16, 16, .rclr, 0, false, .any⟩]⟩,
  -- RAD_LINK_EVT
  ⟨0x60220, 0, 1, 0, 1, false, [⟨0, 1, .w1c, 0, false, .any⟩, ⟨1, 1, .w1c, 0, false, .any⟩,
    ⟨2, 1, .w1c, 0, false, .any⟩, ⟨3, 1, .w1c, 0, false, .any⟩]⟩,
  -- RAD_LINK_SEL
  ⟨0x60230, 0, 1, 0, 1, false, [⟨0, 14, .rw, 0, false, .any⟩]⟩,
  -- RAD_LINK_NODE
  ⟨0x60234, 0, 1, 0, 1, false, [⟨0, 3, .ro, 0, false, .any⟩, ⟨3, 1, .ro, 0, false, .any⟩,
    ⟨4, 3, .ro, 0, false, .any⟩, ⟨8, 4, .ro, 0, false, .any⟩,
    ⟨16, 16, .ro, 0, false, .any⟩]⟩,
  -- RAD_LINK_CHMAP_LO
  ⟨0x60238, 0, 1, 0, 1, false, [⟨0, 32, .ro, 0, false, .any⟩]⟩,
  -- RAD_LINK_CHMAP_HI
  ⟨0x6023C, 0, 1, 0, 1, false, [⟨0, 32, .ro, 0, false, .any⟩]⟩,
  -- RAD_LINK_ROUTE
  ⟨0x60240, 4, 4, 0, 1, false, [⟨0, 16, .ro, 65535, false, .any⟩, ⟨16, 16, .ro, 65535, false, .any⟩]⟩]

/-- The registers of unit 6. -/
def radRegs : List Reg := radRegs0 ++ radRegs1

def ntuRegs0 : List Reg := [
  -- NTU_CTRL
  ⟨0x70000, 0, 1, 0, 1, false, [⟨0, 1, .rw, 1, false, .any⟩, ⟨1, 1, .rw, 0, false, .any⟩,
    ⟨8, 8, .rw, 0, false, (.span 0 127)⟩]⟩,
  -- NTU_STAT
  ⟨0x70004, 0, 1, 0, 1, false, [⟨0, 2, .ro, 0, false, .any⟩, ⟨2, 1, .ro, 0, false, .any⟩,
    ⟨3, 1, .ro, 0, false, .any⟩, ⟨4, 1, .ro, 0, false, .any⟩,
    ⟨5, 1, .ro, 0, false, .any⟩, ⟨6, 1, .ro, 0, false, .any⟩,
    ⟨7, 1, .ro, 0, false, .any⟩]⟩,
  -- NTU_EVT
  ⟨0x70008, 0, 1, 0, 1, false, [⟨0, 1, .w1c, 0, false, .any⟩, ⟨1, 1, .w1c, 0, false, .any⟩,
    ⟨2, 1, .w1c, 0, false, .any⟩, ⟨3, 1, .w1c, 0, false, .any⟩,
    ⟨4, 1, .w1c, 0, false, .any⟩]⟩,
  -- NTU_JUMP_LIMIT
  ⟨0x7000C, 0, 1, 0, 1, false, [⟨0, 23, .rw, 1000000, false, (.span 1000 8000000)⟩]⟩,
  -- NTU_JUMP_ACCEPT
  ⟨0x70010, 0, 1, 0, 1, false, [⟨0, 1, .wo, 0, false, .any⟩]⟩,
  -- NTU_ASYM_LIMIT
  ⟨0x70014, 0, 1, 0, 1, false, [⟨0, 16, .rw, 1000, false, (.span 50 65535)⟩]⟩,
  -- NTU_SLEW
  ⟨0x70018, 0, 1, 0, 1, false, [⟨0, 10, .rw, 100, false, (.span 1 500)⟩]⟩,
  -- NTU_LOCK_CFG
  ⟨0x7001C, 0, 1, 0, 1, false, [⟨0, 16, .rw, 1000, false, (.span 10 65535)⟩, ⟨16, 8, .rw, 16, false, (.span 4 255)⟩]⟩,
  -- NTU_UTC
  ⟨0x70020, 0, 1, 0, 1, false, [⟨0, 16, .rw, 37, false, .any⟩, ⟨16, 1, .ro, 0, false, .any⟩,
    ⟨17, 1, .ro, 0, false, .any⟩, ⟨18, 1, .ro, 0, false, .any⟩]⟩,
  -- NTU_KP
  ⟨0x70030, 0, 1, 0, 1, false, [⟨0, 32, .rw, 45875, false, .any⟩]⟩,
  -- NTU_KI
  ⟨0x70034, 0, 1, 0, 1, false, [⟨0, 32, .rw, 19661, false, .any⟩]⟩,
  -- NTU_SHIFT
  ⟨0x70038, 0, 1, 0, 1, false, [⟨0, 5, .rw, 16, false, .any⟩, ⟨8, 5, .rw, 16, false, .any⟩]⟩,
  -- NTU_FREQ
  ⟨0x7003C, 0, 1, 0, 1, false, [⟨0, 32, .ro, 0, false, .any⟩]⟩,
  -- NTU_OFFSET
  ⟨0x70040, 0, 1, 0, 1, false, [⟨0, 32, .ro, 0, false, .any⟩]⟩,
  -- NTU_PHASE
  ⟨0x70044, 0, 1, 0, 1, false, [⟨0, 32, .ro, 0, false, .any⟩]⟩,
  -- NTU_XCHK
  ⟨0x70048, 0, 1, 0, 1, false, [⟨0, 32, .ro, 0, false, .any⟩]⟩,
  -- NTU_STEP
  ⟨0x7004C, 0, 1, 0, 1, false, [⟨0, 32, .ro, 0, false, .any⟩]⟩,
  -- NTU_TIME_S_LO
  ⟨0x70050, 0, 1, 0, 1, false, [⟨0, 32, .ro, 0, false, .any⟩]⟩,
  -- NTU_TIME_S_HI
  ⟨0x70054, 0, 1, 0, 1, false, [⟨0, 16, .ro, 0, false, .any⟩]⟩,
  -- NTU_TIME_NS
  ⟨0x70058, 0, 1, 0, 1, false, [⟨0, 30, .ro, 0, false, .any⟩]⟩]

def ntuRegs1 : List Reg := [
  -- NTU_TIME_FRAC
  ⟨0x7005C, 0, 1, 0, 1, false, [⟨0, 16, .ro, 0, false, .any⟩]⟩,
  -- NTU_RADIO
  ⟨0x70060, 0, 1, 0, 1, false, [⟨0, 24, .ro, 0, false, .any⟩]⟩,
  -- NTU_PORT_CFG
  ⟨0x70100, 64, 2, 0, 1, false, [⟨0, 1, .rw, 1, false, .any⟩, ⟨1, 2, .rw, 0, false, (.span 0 2)⟩,
    ⟨3, 1, .rw, 0, false, .any⟩, ⟨4, 4, .rw, 3, false, (.span 2 10)⟩]⟩,
  -- NTU_PORT_STAT
  ⟨0x70104, 64, 2, 0, 1, false, [⟨0, 3, .ro, 0, false, .any⟩, ⟨4, 4, .ro, 0, false, .any⟩]⟩,
  -- NTU_CORR
  ⟨0x70108, 64, 2, 0, 1, false, [⟨0, 8, .ro, 54, false, .any⟩, ⟨8, 8, .ro, 22, false, .any⟩,
    ⟨16, 8, .ro, 103, false, .any⟩, ⟨24, 8, .ro, 41, false, .any⟩]⟩,
  -- NTU_ASYM
  ⟨0x7010C, 64, 2, 0, 1, false, [⟨0, 24, .rw, 0, false, (.signed (-8000000) (8000000))⟩]⟩,
  -- NTU_PORT_OFS
  ⟨0x70110, 64, 2, 0, 1, false, [⟨0, 32, .ro, 0, false, .any⟩]⟩,
  -- NTU_PORT_DELAY
  ⟨0x70114, 64, 2, 0, 1, false, [⟨0, 32, .ro, 0, false, .any⟩]⟩,
  -- NTU_PORT_GM_LO
  ⟨0x70118, 64, 2, 0, 1, false, [⟨0, 32, .ro, 0, false, .any⟩]⟩,
  -- NTU_PORT_GM_HI
  ⟨0x7011C, 64, 2, 0, 1, false, [⟨0, 32, .ro, 0, false, .any⟩]⟩,
  -- NTU_PORT_CNT
  ⟨0x70120, 64, 2, 0, 1, false, [⟨0, 16, .rclr, 0, false, .any⟩, ⟨16, 16, .rclr, 0, false, .any⟩]⟩]

/-- The registers of unit 7. -/
def ntuRegs : List Reg := ntuRegs0 ++ ntuRegs1

def drvRegs0 : List Reg := [
  -- DRV_CTRL
  ⟨0x80000, 0, 1, 0, 1, false, [⟨0, 1, .rw, 1, true, .any⟩, ⟨1, 1, .wo, 0, false, .any⟩]⟩,
  -- DRV_STAT
  ⟨0x80004, 0, 1, 0, 1, false, [⟨0, 3, .ro, 0, false, .any⟩, ⟨3, 1, .ro, 0, false, .any⟩,
    ⟨4, 2, .ro, 0, false, .any⟩, ⟨6, 1, .ro, 0, false, .any⟩,
    ⟨7, 1, .ro, 0, false, .any⟩, ⟨8, 1, .ro, 0, false, .any⟩]⟩,
  -- DRV_RESTART
  ⟨0x80008, 0, 1, 0, 1, false, [⟨0, 1, .wo, 0, false, .any⟩]⟩,
  -- DRV_ISET
  ⟨0x8000C, 0, 1, 0, 1, false, [⟨0, 8, .rw, 0, true, .any⟩]⟩,
  -- DRV_PWM_GRP
  ⟨0x80010, 4, 3, 0, 1, false, [⟨0, 5, .rw, 12, true, (.span 8 16)⟩]⟩,
  -- DRV_BUS_CFG
  ⟨0x80020, 0, 1, 0, 1, false, [⟨0, 8, .rw, 60, true, (.span 20 220)⟩, ⟨8, 9, .rw, 200, true, (.span 100 400)⟩,
    ⟨24, 4, .rw, 15, true, (.span 1 15)⟩]⟩,
  -- DRV_BUS_STAT
  ⟨0x80024, 0, 1, 0, 1, false, [⟨0, 16, .ro, 0, false, .any⟩, ⟨16, 16, .ro, 0, false, .any⟩]⟩,
  -- DRV_BUS_LEARN
  ⟨0x80028, 0, 1, 0, 1, false, [⟨0, 16, .ro, 0, true, .any⟩, ⟨16, 5, .ro, 0, true, .any⟩]⟩,
  -- DRV_VLEDIN
  ⟨0x8002C, 0, 1, 0, 1, false, [⟨0, 16, .ro, 0, false, .any⟩]⟩,
  -- DRV_DISS
  ⟨0x80030, 0, 1, 0, 1, false, [⟨0, 16, .ro, 0, false, .any⟩]⟩,
  -- DRV_THERM
  ⟨0x80034, 0, 1, 0, 1, false, [⟨0, 16, .ro, 0, false, .any⟩, ⟨16, 1, .rw, 0, true, .any⟩,
    ⟨17, 3, .ro, 0, false, .any⟩]⟩,
  -- DRV_EVT
  ⟨0x80038, 0, 1, 0, 1, false, [⟨0, 1, .w1c, 0, false, .any⟩, ⟨1, 1, .w1c, 0, false, .any⟩,
    ⟨2, 1, .w1c, 0, false, .any⟩, ⟨3, 1, .w1c, 0, false, .any⟩,
    ⟨4, 1, .w1c, 0, false, .any⟩, ⟨5, 1, .w1c, 0, false, .any⟩]⟩,
  -- DRV_CHAN_CFG
  ⟨0x80100, 32, 24, 0, 1, false, [⟨0, 10, .rw, 0, true, .any⟩, ⟨15, 1, .rw, 0, true, .any⟩,
    ⟨16, 11, .rw, 2047, true, .any⟩]⟩,
  -- DRV_FAILSAFE
  ⟨0x80104, 32, 24, 0, 1, false, [⟨0, 16, .rw, 0, true, .any⟩]⟩,
  -- DRV_CHAN_VF
  ⟨0x80108, 32, 24, 0, 1, false, [⟨0, 16, .rw, 290, true, (.span 150 500)⟩, ⟨16, 16, .ro, 0, true, .any⟩]⟩,
  -- DRV_CHAN_LEVEL
  ⟨0x8010C, 32, 24, 0, 1, false, [⟨0, 16, .ro, 0, false, .any⟩, ⟨16, 3, .ro, 0, false, .any⟩]⟩,
  -- DRV_CHAN_DIAG
  ⟨0x80110, 32, 24, 0, 1, false, [⟨0, 3, .ro, 5, false, .any⟩, ⟨4, 4, .ro, 0, false, .any⟩,
    ⟨16, 16, .ro, 65535, false, .any⟩]⟩,
  -- DRV_CHAN_MEAS
  ⟨0x80114, 32, 24, 0, 1, false, [⟨0, 16, .ro, 0, false, .any⟩, ⟨16, 16, .ro, 0, false, .any⟩]⟩,
  -- DRV_FEEDER_CMD
  ⟨0x80400, 16, 6, 0, 1, false, [⟨0, 1, .rw, 1, false, .any⟩]⟩,
  -- DRV_FEEDER_STAT
  ⟨0x80404, 16, 6, 0, 1, false, [⟨0, 1, .ro, 0, false, .any⟩, ⟨1, 1, .ro, 0, false, .any⟩,
    ⟨2, 1, .ro, 0, false, .any⟩, ⟨3, 1, .ro, 0, false, .any⟩,
    ⟨4, 1, .ro, 0, false, .any⟩]⟩]

def drvRegs1 : List Reg := [
  -- DRV_FEEDER_CFG
  ⟨0x80408, 16, 6, 0, 1, false, [⟨0, 1, .rw, 1, true, .any⟩, ⟨1, 1, .rw, 0, true, .any⟩,
    ⟨2, 1, .rw, 1, true, .any⟩, ⟨8, 8, .rw, 20, true, (.span 5 200)⟩]⟩]

/-- The registers of unit 8. -/
def drvRegs : List Reg := drvRegs0 ++ drvRegs1

def lceRegs0 : List Reg := [
  -- LCE_EVT
  ⟨0x90000, 0, 1, 0, 1, false, [⟨0, 4, .w1c, 0, false, .any⟩, ⟨8, 4, .w1c, 0, false, .any⟩]⟩,
  -- LCE_AIN_CFG
  ⟨0x90100, 16, 4, 0, 1, false, [⟨0, 1, .rw, 0, false, .any⟩]⟩,
  -- LCE_AIN
  ⟨0x90104, 16, 4, 0, 1, false, [⟨0, 16, .ro, 0, false, .any⟩, ⟨16, 1, .ro, 0, false, .any⟩]⟩,
  -- LCE_AOUT
  ⟨0x90200, 16, 2, 0, 1, false, [⟨0, 16, .ro, 0, false, .any⟩]⟩,
  -- LCE_AOUT_MAN
  ⟨0x90204, 16, 2, 0, 1, false, [⟨0, 16, .rw, 0, false, .any⟩]⟩,
  -- LCE_AOUT_FS
  ⟨0x90208, 16, 2, 0, 1, false, [⟨0, 16, .rw, 0, true, .any⟩]⟩,
  -- LCE_PIN_CFG
  ⟨0x90300, 16, 2, 0, 1, false, [⟨0, 1, .rw, 0, false, .any⟩, ⟨8, 6, .rw, 10, false, (.span 1 60)⟩]⟩,
  -- LCE_PIN_RATE
  ⟨0x90304, 16, 2, 0, 1, false, [⟨0, 32, .ro, 0, false, .any⟩]⟩,
  -- LCE_PIN_COUNT
  ⟨0x90308, 16, 2, 0, 1, false, [⟨0, 32, .ro, 0, false, .any⟩]⟩,
  -- LCE_CTRL
  ⟨0x91000, 256, 4, 0, 1, false, [⟨0, 1, .wo, 0, false, .any⟩, ⟨1, 1, .wo, 0, false, .any⟩]⟩,
  -- LCE_STAT
  ⟨0x91004, 256, 4, 0, 1, false, [⟨0, 3, .ro, 0, false, .any⟩, ⟨3, 1, .ro, 0, false, .any⟩,
    ⟨4, 1, .ro, 0, false, .any⟩, ⟨5, 1, .ro, 0, false, .any⟩,
    ⟨6, 1, .ro, 0, false, .any⟩]⟩,
  -- LCE_CFG
  ⟨0x91008, 256, 4, 0, 1, true, [⟨0, 3, .rw, 0, false, (.span 0 5)⟩, ⟨4, 3, .rw, 0, false, (.span 0 4)⟩,
    ⟨8, 2, .rw, 0, false, .any⟩, ⟨10, 2, .rw, 0, false, .any⟩,
    ⟨12, 5, .rw, 0, false, .any⟩, ⟨17, 2, .rw, 0, false, (.span 0 2)⟩,
    ⟨19, 1, .rw, 0, false, .any⟩, ⟨20, 1, .rw, 0, false, .any⟩,
    ⟨21, 1, .rw, 0, false, .any⟩, ⟨22, 1, .rw, 0, false, .any⟩,
    ⟨24, 8, .rw, 10, false, (.span 10 100)⟩]⟩,
  -- LCE_SP
  ⟨0x9100C, 256, 4, 0, 1, false, [⟨0, 32, .rw, 0, false, .any⟩]⟩,
  -- LCE_GAIN
  ⟨0x91010, 256, 4, 0, 1, false, [⟨0, 32, .rw, 0, false, .any⟩]⟩,
  -- LCE_SCALE
  ⟨0x91014, 256, 4, 0, 1, false, [⟨0, 5, .rw, 0, false, .any⟩]⟩,
  -- LCE_OFFSET
  ⟨0x91018, 256, 4, 0, 1, false, [⟨0, 32, .rw, 0, false, .any⟩]⟩,
  -- LCE_KP
  ⟨0x91020, 256, 4, 0, 1, false, [⟨0, 32, .rw, 0, false, .any⟩]⟩,
  -- LCE_KI
  ⟨0x91024, 256, 4, 0, 1, false, [⟨0, 32, .rw, 0, false, .any⟩]⟩,
  -- LCE_KD
  ⟨0x91028, 256, 4, 0, 1, false, [⟨0, 32, .rw, 0, false, .any⟩]⟩,
  -- LCE_KF
  ⟨0x9102C, 256, 4, 0, 1, false, [⟨0, 32, .rw, 0, false, .any⟩]⟩]

def lceRegs1 : List Reg := [
  -- LCE_SHIFT
  ⟨0x91030, 256, 4, 0, 1, false, [⟨0, 5, .rw, 0, false, .any⟩, ⟨8, 5, .rw, 0, false, .any⟩,
    ⟨16, 5, .rw, 0, false, .any⟩, ⟨24, 5, .rw, 0, false, .any⟩]⟩,
  -- LCE_OUT_MIN
  ⟨0x91034, 256, 4, 0, 1, false, [⟨0, 32, .rw, 0, false, .any⟩]⟩,
  -- LCE_OUT_MAX
  ⟨0x91038, 256, 4, 0, 1, false, [⟨0, 32, .rw, 65535, false, .any⟩]⟩,
  -- LCE_SLEW
  ⟨0x9103C, 256, 4, 0, 1, false, [⟨0, 32, .rw, 2147483647, false, (.span 1 2147483647)⟩]⟩,
  -- LCE_I_MIN
  ⟨0x91040, 256, 4, 0, 1, false, [⟨0, 32, .rw, 0, false, .any⟩]⟩,
  -- LCE_I_MAX
  ⟨0x91044, 256, 4, 0, 1, false, [⟨0, 32, .rw, 65535, false, .any⟩]⟩,
  -- LCE_FF_X0
  ⟨0x91048, 256, 4, 0, 1, false, [⟨0, 32, .rw, 0, false, .any⟩]⟩,
  -- LCE_FF_XS
  ⟨0x9104C, 256, 4, 0, 1, false, [⟨0, 5, .rw, 12, false, (.span 0 26)⟩]⟩,
  -- LCE_FF_Y
  ⟨0x91050, 256, 4, 4, 17, false, [⟨0, 32, .rw, 0, false, .any⟩]⟩,
  -- LCE_Y
  ⟨0x910A0, 256, 4, 0, 1, false, [⟨0, 32, .ro, 0, false, .any⟩]⟩,
  -- LCE_SPV
  ⟨0x910A4, 256, 4, 0, 1, false, [⟨0, 32, .ro, 0, false, .any⟩]⟩,
  -- LCE_E
  ⟨0x910A8, 256, 4, 0, 1, false, [⟨0, 32, .ro, 0, false, .any⟩]⟩,
  -- LCE_I
  ⟨0x910AC, 256, 4, 0, 1, false, [⟨0, 32, .ro, 0, false, .any⟩]⟩,
  -- LCE_U
  ⟨0x910B0, 256, 4, 0, 1, false, [⟨0, 32, .ro, 0, false, .any⟩]⟩]

/-- The registers of unit 9. -/
def lceRegs : List Reg := lceRegs0 ++ lceRegs1

def metRegs0 : List Reg := [
  -- MET_STAT
  ⟨0xA0000, 0, 1, 0, 1, false, [⟨0, 1, .ro, 0, false, .any⟩, ⟨1, 1, .ro, 0, false, .any⟩,
    ⟨2, 1, .ro, 0, false, .any⟩, ⟨3, 1, .ro, 0, false, .any⟩,
    ⟨8, 8, .ro, 0, false, .any⟩]⟩,
  -- MET_ALARM
  ⟨0xA0004, 0, 1, 0, 1, false, [⟨0, 1, .w1c, 0, false, .any⟩, ⟨1, 1, .w1c, 0, false, .any⟩,
    ⟨2, 1, .w1c, 0, false, .any⟩, ⟨3, 1, .w1c, 0, false, .any⟩,
    ⟨4, 1, .w1c, 0, false, .any⟩, ⟨5, 1, .w1c, 0, false, .any⟩,
    ⟨6, 1, .w1c, 0, false, .any⟩, ⟨8, 1, .w1c, 0, false, .any⟩,
    ⟨16, 1, .w1c, 0, false, .any⟩, ⟨17, 1, .w1c, 0, false, .any⟩]⟩,
  -- MET_FWID
  ⟨0xA0008, 0, 1, 0, 1, false, [⟨0, 32, .ro, 0, false, .any⟩]⟩,
  -- MET_FWCRC
  ⟨0xA000C, 0, 1, 0, 1, false, [⟨0, 32, .ro, 0, false, .any⟩]⟩,
  -- MET_FW_REQ
  ⟨0xA0010, 0, 1, 0, 1, false, [⟨0, 1, .wo, 0, false, .any⟩]⟩,
  -- MET_SEQ
  ⟨0xA0014, 0, 1, 0, 1, false, [⟨0, 32, .ro, 0, false, .any⟩]⟩,
  -- MET_TIME_LO
  ⟨0xA0018, 0, 1, 0, 1, false, [⟨0, 32, .ro, 0, false, .any⟩]⟩,
  -- MET_TIME_HI
  ⟨0xA001C, 0, 1, 0, 1, false, [⟨0, 16, .ro, 0, false, .any⟩]⟩,
  -- MET_TSYNC_CFG
  ⟨0xA0020, 0, 1, 0, 1, false, [⟨0, 1, .rw, 1, false, .any⟩]⟩,
  -- MET_TSYNC_CTRL
  ⟨0xA0024, 0, 1, 0, 1, false, [⟨0, 1, .wo, 0, false, .any⟩]⟩,
  -- MET_TSYNC_RES
  ⟨0xA0028, 0, 1, 0, 1, false, [⟨0, 8, .ro, 0, false, .any⟩, ⟨8, 2, .ro, 0, false, .any⟩]⟩,
  -- MET_TSYNC_APPLIED
  ⟨0xA002C, 0, 1, 0, 1, false, [⟨0, 32, .ro, 0, false, .any⟩]⟩,
  -- MET_TSYNC_BUDGET
  ⟨0xA0030, 0, 1, 0, 1, false, [⟨0, 14, .ro, 0, false, .any⟩]⟩,
  -- MET_LOG_COUNT
  ⟨0xA0034, 0, 1, 0, 1, false, [⟨0, 14, .ro, 0, false, .any⟩, ⟨16, 16, .ro, 0, false, .any⟩]⟩,
  -- MET_LINK_CNT
  ⟨0xA0038, 0, 1, 0, 1, false, [⟨0, 16, .rclr, 0, false, .any⟩, ⟨16, 16, .rclr, 0, false, .any⟩]⟩,
  -- MET_CT_RATIO
  ⟨0xA003C, 0, 1, 0, 1, false, [⟨0, 16, .ro, 0, false, .any⟩, ⟨16, 1, .ro, 0, false, .any⟩]⟩,
  -- MET_ENERGY_LO
  ⟨0xA0100, 8, 12, 0, 1, false, [⟨0, 32, .ro, 0, false, .any⟩]⟩,
  -- MET_ENERGY_HI
  ⟨0xA0104, 8, 12, 0, 1, false, [⟨0, 32, .ro, 0, false, .any⟩]⟩,
  -- MET_DEMAND_LAST
  ⟨0xA0200, 0, 1, 0, 1, false, [⟨0, 32, .ro, 0, false, .any⟩]⟩,
  -- MET_DEMAND_MAX
  ⟨0xA0204, 0, 1, 0, 1, false, [⟨0, 32, .ro, 0, false, .any⟩]⟩]

def metRegs1 : List Reg := [
  -- MET_DEMAND_MAX_PER
  ⟨0xA0208, 0, 1, 0, 1, false, [⟨0, 32, .ro, 0, false, .any⟩]⟩,
  -- MET_DEMAND_PREV
  ⟨0xA020C, 0, 1, 0, 1, false, [⟨0, 32, .ro, 0, false, .any⟩]⟩,
  -- MET_DEMAND_FLAGS
  ⟨0xA0210, 0, 1, 0, 1, false, [⟨0, 1, .ro, 0, false, .any⟩, ⟨1, 1, .ro, 0, false, .any⟩]⟩,
  -- MET_FREQ
  ⟨0xA0214, 0, 1, 0, 1, false, [⟨0, 16, .ro, 0, false, .any⟩]⟩,
  -- MET_SAG
  ⟨0xA0220, 4, 3, 0, 1, false, [⟨0, 32, .ro, 0, false, .any⟩]⟩,
  -- MET_SWELL
  ⟨0xA0230, 4, 3, 0, 1, false, [⟨0, 32, .ro, 0, false, .any⟩]⟩,
  -- MET_PH_V
  ⟨0xA0300, 16, 3, 0, 1, false, [⟨0, 16, .ro, 0, false, .any⟩, ⟨16, 16, .ro, 0, false, .any⟩]⟩,
  -- MET_PH_I
  ⟨0xA0304, 16, 3, 0, 1, false, [⟨0, 32, .ro, 0, false, .any⟩]⟩,
  -- MET_PH_P
  ⟨0xA0308, 16, 3, 0, 1, false, [⟨0, 32, .ro, 0, false, .any⟩]⟩,
  -- MET_PH_Q
  ⟨0xA030C, 16, 3, 0, 1, false, [⟨0, 32, .ro, 0, false, .any⟩]⟩,
  -- MET_FEEDER_E
  ⟨0xA0400, 16, 6, 0, 1, false, [⟨0, 32, .ro, 0, false, .any⟩]⟩,
  -- MET_FEEDER_P
  ⟨0xA0404, 16, 6, 0, 1, false, [⟨0, 32, .ro, 0, false, .any⟩]⟩,
  -- MET_FEEDER_RATIO
  ⟨0xA0408, 16, 6, 0, 1, false, [⟨0, 16, .rw, 5, false, (.span 1 5000)⟩, ⟨16, 1, .rw, 0, false, .any⟩]⟩]

/-- The registers of unit 10. -/
def metRegs : List Reg := metRegs0 ++ metRegs1

def rtcRegs0 : List Reg := [
  -- RTC_DATE
  ⟨0xB0000, 0, 1, 0, 1, false, [⟨0, 5, .ro, 1, false, .any⟩, ⟨5, 4, .ro, 1, false, .any⟩,
    ⟨9, 8, .ro, 0, false, .any⟩, ⟨17, 3, .ro, 5, false, .any⟩]⟩,
  -- RTC_TIME
  ⟨0xB0004, 0, 1, 0, 1, false, [⟨0, 6, .ro, 0, false, .any⟩, ⟨6, 6, .ro, 0, false, .any⟩,
    ⟨12, 5, .ro, 0, false, .any⟩]⟩,
  -- RTC_SUBSEC
  ⟨0xB0008, 0, 1, 0, 1, false, [⟨0, 15, .ro, 0, false, .any⟩]⟩,
  -- RTC_STATUS
  ⟨0xB000C, 0, 1, 0, 1, false, [⟨0, 1, .ro, 1, false, .any⟩, ⟨1, 1, .ro, 0, false, .any⟩]⟩,
  -- RTC_MONO
  ⟨0xB0010, 0, 1, 0, 1, false, [⟨0, 32, .ro, 0, false, .any⟩]⟩,
  -- RTC_SET_DATE
  ⟨0xB0014, 0, 1, 0, 1, false, [⟨0, 17, .rw, 0, false, .any⟩]⟩,
  -- RTC_SET_TIME
  ⟨0xB0018, 0, 1, 0, 1, false, [⟨0, 17, .rw, 0, false, .any⟩]⟩,
  -- RTC_SET
  ⟨0xB001C, 0, 1, 0, 1, false, [⟨0, 1, .wo, 0, false, .any⟩, ⟨1, 1, .wo, 0, false, .any⟩,
    ⟨2, 1, .wo, 0, false, .any⟩]⟩,
  -- RTC_SET_RES
  ⟨0xB0020, 0, 1, 0, 1, false, [⟨0, 8, .ro, 0, false, .any⟩, ⟨8, 2, .ro, 0, false, .any⟩]⟩,
  -- RTC_CAL
  ⟨0xB0024, 0, 1, 0, 1, false, [⟨0, 10, .rw, 0, false, .any⟩, ⟨16, 1, .rw, 1, false, .any⟩]⟩,
  -- RTC_STEER
  ⟨0xB0028, 0, 1, 0, 1, false, [⟨0, 32, .ro, 0, false, .any⟩]⟩,
  -- RTC_EVT
  ⟨0xB002C, 0, 1, 0, 1, false, [⟨0, 2, .w1c, 0, false, .any⟩, ⟨2, 2, .w1c, 0, false, .any⟩,
    ⟨4, 2, .w1c, 0, false, .any⟩]⟩,
  -- RTC_ALM_DATE
  ⟨0xB0040, 16, 2, 0, 1, false, [⟨0, 20, .rw, 0, false, .any⟩]⟩,
  -- RTC_ALM_TIME
  ⟨0xB0044, 16, 2, 0, 1, false, [⟨0, 17, .rw, 0, false, .any⟩]⟩,
  -- RTC_ALM_CTRL
  ⟨0xB0048, 16, 2, 0, 1, false, [⟨0, 1, .rw, 0, false, .any⟩, ⟨1, 1, .rw, 0, false, .any⟩,
    ⟨2, 1, .rw, 0, false, .any⟩, ⟨3, 7, .rw, 0, false, .any⟩,
    ⟨16, 16, .rclr, 0, false, .any⟩]⟩,
  -- RTC_ALM_LAST
  ⟨0xB004C, 16, 2, 0, 1, false, [⟨0, 32, .ro, 0, false, .any⟩]⟩,
  -- RTC_BKP
  ⟨0xB0100, 4, 32, 0, 1, false, [⟨0, 32, .rw, 0, false, .any⟩]⟩,
  -- RTC_EVIN_CFG
  ⟨0xB0200, 32, 4, 0, 1, true, [⟨0, 2, .rw, 0, false, .any⟩]⟩,
  -- RTC_EVIN_STAT
  ⟨0xB0204, 32, 4, 0, 1, false, [⟨0, 4, .ro, 0, false, .any⟩, ⟨8, 8, .rclr, 0, false, .any⟩,
    ⟨16, 1, .ro, 0, false, .any⟩]⟩,
  -- RTC_EVIN_DATE
  ⟨0xB0208, 32, 4, 0, 1, false, [⟨0, 20, .ro, 0, false, .any⟩]⟩]

def rtcRegs1 : List Reg := [
  -- RTC_EVIN_TIME
  ⟨0xB020C, 32, 4, 0, 1, false, [⟨0, 17, .ro, 0, false, .any⟩, ⟨17, 1, .ro, 0, false, .any⟩,
    ⟨18, 1, .ro, 0, false, .any⟩]⟩,
  -- RTC_EVIN_SUB
  ⟨0xB0210, 32, 4, 0, 1, false, [⟨0, 15, .ro, 0, false, .any⟩]⟩,
  -- RTC_EVIN_POP
  ⟨0xB0214, 32, 4, 0, 1, false, [⟨0, 1, .w1s, 0, false, .any⟩]⟩]

/-- The registers of unit 11. -/
def rtcRegs : List Reg := rtcRegs0 ++ rtcRegs1

def keyRegs0 : List Reg := [
  -- KEY_STAT
  ⟨0xC0000, 0, 1, 0, 1, false, [⟨0, 7, .ro, 0, false, .any⟩, ⟨16, 16, .rclr, 0, false, .any⟩]⟩,
  -- KEY_LIFECYCLE
  ⟨0xC0004, 0, 1, 0, 1, false, [⟨0, 2, .ro, 1, true, .any⟩]⟩,
  -- KEY_EVT
  ⟨0xC0008, 0, 1, 0, 1, false, [⟨0, 1, .w1c, 0, false, .any⟩, ⟨1, 1, .w1c, 0, false, .any⟩]⟩,
  -- KEY_MEAS_CNT
  ⟨0xC000C, 0, 1, 0, 1, false, [⟨0, 4, .ro, 0, false, .any⟩]⟩,
  -- KEY_BMR
  ⟨0xC0020, 4, 8, 0, 1, false, [⟨0, 32, .ro, 0, false, .any⟩]⟩,
  -- KEY_MEAS_SEL
  ⟨0xC0040, 0, 1, 0, 1, false, [⟨0, 4, .rw, 0, false, .any⟩]⟩,
  -- KEY_MEAS
  ⟨0xC0060, 4, 8, 0, 1, false, [⟨0, 32, .ro, 0, false, .any⟩]⟩,
  -- KEY_SLOT_CFG
  ⟨0xC0100, 16, 32, 0, 1, false, [⟨0, 3, .ro, 0, true, .any⟩, ⟨4, 7, .ro, 0, true, .any⟩,
    ⟨11, 5, .ro, 0, true, .any⟩, ⟨16, 1, .ro, 0, true, .any⟩]⟩,
  -- KEY_SLOT_STAT
  ⟨0xC0104, 16, 32, 0, 1, false, [⟨0, 3, .ro, 0, false, .any⟩, ⟨3, 1, .ro, 0, false, .any⟩,
    ⟨8, 24, .ro, 0, false, .any⟩]⟩,
  -- KEY_SLOT_SEQ
  ⟨0xC0108, 16, 32, 0, 1, false, [⟨0, 32, .ro, 0, false, .any⟩]⟩,
  -- KEY_SLOT_CTRL
  ⟨0xC010C, 16, 32, 0, 1, false, [⟨0, 1, .wo, 0, false, .any⟩]⟩]

/-- The registers of unit 12. -/
def keyRegs : List Reg := keyRegs0

def evrRegs0 : List Reg := [
  -- EVR_FLOOD_WINDOW
  ⟨0xD0000, 0, 1, 0, 1, false, [⟨0, 13, .rw, 100, false, (.span 0 6000)⟩]⟩,
  -- EVR_EPOCH
  ⟨0xD0004, 0, 1, 0, 1, false, [⟨0, 16, .ro, 0, true, .any⟩]⟩,
  -- EVR_BOOT
  ⟨0xD0008, 0, 1, 0, 1, false, [⟨0, 16, .ro, 0, true, .any⟩]⟩,
  -- EVR_STAT
  ⟨0xD000C, 0, 1, 0, 1, false, [⟨0, 17, .ro, 0, false, .any⟩]⟩,
  -- EVR_STAT2
  ⟨0xD0010, 0, 1, 0, 1, false, [⟨0, 16, .rclr, 0, false, .any⟩]⟩,
  -- EVR_EVT
  ⟨0xD0014, 0, 1, 0, 1, false, [⟨0, 1, .w1c, 0, false, .any⟩, ⟨1, 1, .w1c, 0, false, .any⟩]⟩,
  -- EVR_SEC_ACK_LO
  ⟨0xD0018, 0, 1, 0, 1, false, [⟨0, 32, .rw, 0, false, .any⟩]⟩,
  -- EVR_SEC_ACK_HI
  ⟨0xD001C, 0, 1, 0, 1, false, [⟨0, 16, .rw, 0, false, .any⟩]⟩,
  -- EVR_CNT
  ⟨0xD0020, 0, 1, 0, 1, false, [⟨0, 32, .rclr, 0, false, .any⟩]⟩,
  -- EVR_HEAD_SEQ_LO
  ⟨0xD0100, 32, 3, 0, 1, false, [⟨0, 32, .ro, 0, true, .any⟩]⟩,
  -- EVR_HEAD_SEQ_HI
  ⟨0xD0104, 32, 3, 0, 1, false, [⟨0, 16, .ro, 0, true, .any⟩]⟩,
  -- EVR_TAIL_SEQ_LO
  ⟨0xD0108, 32, 3, 0, 1, false, [⟨0, 32, .ro, 0, true, .any⟩]⟩,
  -- EVR_TAIL_SEQ_HI
  ⟨0xD010C, 32, 3, 0, 1, false, [⟨0, 16, .ro, 0, true, .any⟩]⟩,
  -- EVR_COUNT
  ⟨0xD0110, 32, 3, 0, 1, false, [⟨0, 21, .ro, 0, true, .any⟩]⟩,
  -- EVR_RD_LOG
  ⟨0xD0200, 0, 1, 0, 1, false, [⟨0, 2, .rw, 0, false, (.span 0 2)⟩]⟩,
  -- EVR_RD_SEQ_LO
  ⟨0xD0204, 0, 1, 0, 1, false, [⟨0, 32, .rw, 0, false, .any⟩]⟩,
  -- EVR_RD_SEQ_HI
  ⟨0xD0208, 0, 1, 0, 1, false, [⟨0, 16, .rw, 0, false, .any⟩]⟩,
  -- EVR_RD_STAT
  ⟨0xD020C, 0, 1, 0, 1, false, [⟨0, 8, .ro, 0, false, .any⟩]⟩,
  -- EVR_RD_DATA
  ⟨0xD0240, 4, 16, 0, 1, false, [⟨0, 32, .ro, 0, false, .any⟩]⟩]

/-- The registers of unit 13. -/
def evrRegs : List Reg := evrRegs0

def updRegs0 : List Reg := [
  -- UPD_STATE
  ⟨0xE0000, 0, 1, 0, 1, false, [⟨0, 3, .ro, 0, false, .any⟩, ⟨8, 8, .ro, 0, false, .any⟩,
    ⟨16, 8, .ro, 0, false, .any⟩]⟩,
  -- UPD_LOCK
  ⟨0xE0004, 0, 1, 0, 1, false, [⟨0, 1, .rw, 0, true, .any⟩]⟩,
  -- UPD_POLICY
  ⟨0xE0008, 0, 1, 0, 1, false, [⟨0, 1, .rw, 0, true, .any⟩]⟩,
  -- UPD_CONFIRM_WINDOW
  ⟨0xE000C, 0, 1, 0, 1, false, [⟨0, 8, .rw, 15, true, (.span 1 240)⟩]⟩,
  -- UPD_CTRL
  ⟨0xE0010, 0, 1, 0, 1, false, [⟨0, 1, .wo, 0, false, .any⟩, ⟨1, 1, .wo, 0, false, .any⟩,
    ⟨2, 1, .wo, 0, false, .any⟩, ⟨3, 1, .wo, 0, false, .any⟩]⟩,
  -- UPD_REMAIN
  ⟨0xE0014, 0, 1, 0, 1, false, [⟨0, 16, .ro, 0, false, .any⟩]⟩,
  -- UPD_SLOT
  ⟨0xE0018, 0, 1, 0, 1, false, [⟨0, 1, .ro, 0, true, .any⟩, ⟨1, 1, .ro, 0, true, .any⟩]⟩,
  -- UPD_SEQ
  ⟨0xE001C, 0, 1, 0, 1, false, [⟨0, 32, .ro, 0, true, .any⟩]⟩,
  -- UPD_SEQ_STAGED
  ⟨0xE0020, 0, 1, 0, 1, false, [⟨0, 32, .ro, 0, false, .any⟩]⟩,
  -- UPD_LAST
  ⟨0xE0024, 0, 1, 0, 1, false, [⟨0, 3, .ro, 0, true, .any⟩, ⟨8, 4, .ro, 0, true, .any⟩,
    ⟨16, 16, .ro, 0, true, .any⟩]⟩,
  -- UPD_STAT
  ⟨0xE0028, 0, 1, 0, 1, false, [⟨0, 16, .ro, 0, false, .any⟩, ⟨16, 16, .ro, 0, false, .any⟩]⟩,
  -- UPD_EVT
  ⟨0xE002C, 0, 1, 0, 1, false, [⟨0, 1, .w1c, 0, false, .any⟩, ⟨1, 1, .w1c, 0, false, .any⟩,
    ⟨2, 1, .w1c, 0, false, .any⟩, ⟨3, 1, .w1c, 0, false, .any⟩,
    ⟨4, 1, .w1c, 0, false, .any⟩]⟩,
  -- UPD_PART_ACTIVE
  ⟨0xE0100, 16, 6, 0, 1, false, [⟨0, 32, .ro, 0, true, .any⟩]⟩,
  -- UPD_PART_STAGED
  ⟨0xE0104, 16, 6, 0, 1, false, [⟨0, 32, .ro, 0, false, .any⟩]⟩,
  -- UPD_PART_STAT
  ⟨0xE0108, 16, 6, 0, 1, false, [⟨0, 1, .ro, 0, false, .any⟩, ⟨1, 1, .ro, 0, false, .any⟩]⟩]

/-- The registers of unit 14. -/
def updRegs : List Reg := updRegs0

def fpRegs0 : List Reg := [
  -- FP_INPUT
  ⟨0xF0000, 0, 1, 0, 1, false, [⟨0, 15, .ro, 0, false, .any⟩]⟩,
  -- FP_RAW
  ⟨0xF0004, 0, 1, 0, 1, false, [⟨0, 15, .ro, 0, false, .any⟩]⟩,
  -- FP_STUCK
  ⟨0xF0008, 0, 1, 0, 1, false, [⟨0, 7, .ro, 0, false, .any⟩]⟩,
  -- FP_CHATTER
  ⟨0xF000C, 0, 1, 0, 1, false, [⟨0, 15, .ro, 0, false, .any⟩]⟩,
  -- FP_STAT
  ⟨0xF0010, 0, 1, 0, 1, false, [⟨0, 2, .ro, 0, false, .any⟩, ⟨2, 1, .ro, 0, false, .any⟩,
    ⟨3, 1, .ro, 0, false, .any⟩, ⟨4, 3, .ro, 0, false, .any⟩]⟩,
  -- FP_EVT
  ⟨0xF0014, 0, 1, 0, 1, false, [⟨0, 1, .w1c, 0, false, .any⟩, ⟨1, 1, .w1c, 0, false, .any⟩,
    ⟨2, 1, .w1c, 0, false, .any⟩, ⟨3, 1, .w1c, 0, false, .any⟩,
    ⟨4, 1, .w1c, 0, false, .any⟩]⟩,
  -- FP_DIN_POL
  ⟨0xF0018, 0, 1, 0, 1, false, [⟨0, 4, .rw, 0, false, .any⟩]⟩,
  -- FP_CFG
  ⟨0xF001C, 0, 1, 0, 1, false, [⟨0, 8, .rw, 5, false, (.span 1 60)⟩]⟩,
  -- FP_PAD_CFG
  ⟨0xF0020, 0, 1, 0, 1, false, [⟨0, 8, .rw, 40, false, (.span 5 255)⟩, ⟨8, 8, .rw, 20, false, (.span 5 100)⟩]⟩,
  -- FP_PAD_RAW
  ⟨0xF0024, 0, 1, 0, 1, false, [⟨0, 16, .ro, 0, false, .any⟩]⟩,
  -- FP_PIN_SET
  ⟨0xF0028, 0, 1, 0, 1, false, [⟨0, 20, .wo, 0, false, (.span 0 999999)⟩]⟩,
  -- FP_USB_STAT
  ⟨0xF002C, 0, 1, 0, 1, false, [⟨0, 1, .ro, 0, false, .any⟩, ⟨1, 1, .ro, 0, false, .any⟩,
    ⟨2, 1, .ro, 0, false, .any⟩, ⟨4, 3, .ro, 0, false, .any⟩]⟩,
  -- FP_KEY_CNT
  ⟨0xF0030, 0, 1, 0, 1, false, [⟨0, 16, .rclr, 0, false, .any⟩]⟩]

/-- The registers of unit 15. -/
def fpRegs : List Reg := fpRegs0

def wchRegs0 : List Reg := [
  -- WCH_IN
  ⟨0x100000, 4, 9, 0, 1, false, [⟨0, 16, .ro, 0, false, .any⟩]⟩,
  -- WCH_BKP_FLAGS
  ⟨0x100040, 0, 1, 0, 1, false, [⟨0, 32, .w1c, 0, false, .any⟩]⟩,
  -- WCH_FIRED
  ⟨0x100044, 0, 1, 0, 1, false, [⟨0, 32, .w1c, 0, false, .any⟩]⟩,
  -- WCH_LOGQ
  ⟨0x100048, 0, 1, 0, 1, false, [⟨0, 16, .rclr, 0, false, .any⟩]⟩,
  -- WCH_PHOTO_CFG
  ⟨0x100050, 0, 1, 0, 1, false, [⟨0, 1, .rw, 0, true, .any⟩, ⟨1, 6, .rw, 63, true, .any⟩,
    ⟨8, 8, .rw, 60, true, (.span 10 255)⟩, ⟨16, 11, .rw, 120, true, (.span 1 1440)⟩]⟩,
  -- WCH_PHOTO_LUX
  ⟨0x100054, 0, 1, 0, 1, false, [⟨0, 16, .rw, 35, true, .any⟩, ⟨16, 16, .rw, 60, true, .any⟩]⟩,
  -- WCH_PHOTO_STAT
  ⟨0x100058, 0, 1, 0, 1, false, [⟨0, 1, .ro, 0, false, .any⟩, ⟨1, 1, .ro, 0, false, .any⟩]⟩,
  -- WCH_RULE_CFG
  ⟨0x100100, 16, 32, 0, 1, false, [⟨0, 4, .rw, 0, true, (.span 0 8)⟩, ⟨4, 2, .rw, 0, true, .any⟩,
    ⟨6, 4, .rw, 1, true, .any⟩, ⟨10, 3, .rw, 0, true, (.span 0 5)⟩,
    ⟨13, 3, .rw, 0, true, (.span 0 4)⟩, ⟨16, 5, .rw, 0, true, .any⟩,
    ⟨21, 3, .rw, 0, true, .any⟩, ⟨31, 1, .rw, 0, true, .any⟩]⟩,
  -- WCH_RULE_THR
  ⟨0x100104, 16, 32, 0, 1, false, [⟨0, 16, .rw, 0, true, .any⟩, ⟨16, 16, .rw, 0, true, .any⟩]⟩,
  -- WCH_RULE_TIME
  ⟨0x100108, 16, 32, 0, 1, false, [⟨0, 16, .rw, 0, true, .any⟩]⟩,
  -- WCH_RULE_STAT
  ⟨0x10010C, 16, 32, 0, 1, false, [⟨0, 16, .ro, 0, false, .any⟩, ⟨16, 1, .ro, 0, false, .any⟩,
    ⟨24, 8, .rclr, 0, false, .any⟩]⟩]

/-- The registers of unit 16. -/
def wchRegs : List Reg := wchRegs0

def hostRegs0 : List Reg := [
  -- HOST_CTRL
  ⟨0x110000, 0, 1, 0, 1, false, [⟨0, 1, .rw, 1, false, .any⟩, ⟨1, 1, .rw, 1, false, .any⟩,
    ⟨8, 8, .rw, 120, false, (.span 30 255)⟩]⟩,
  -- HOST_WINDOW
  ⟨0x110004, 0, 1, 0, 1, false, [⟨0, 9, .rw, 64, false, (.span 16 256)⟩]⟩,
  -- HOST_STAT
  ⟨0x110008, 0, 1, 0, 1, false, [⟨0, 4, .ro, 0, false, .any⟩, ⟨8, 4, .ro, 0, false, .any⟩]⟩,
  -- HOST_EVT
  ⟨0x11000C, 0, 1, 0, 1, false, [⟨0, 1, .w1c, 0, false, .any⟩, ⟨1, 1, .w1c, 0, false, .any⟩,
    ⟨2, 1, .w1c, 0, false, .any⟩]⟩,
  -- HOST_CNT
  ⟨0x110010, 0, 1, 0, 1, false, [⟨0, 16, .rclr, 0, false, .any⟩, ⟨16, 16, .rclr, 0, false, .any⟩]⟩,
  -- HOST_SESS
  ⟨0x110100, 16, 8, 0, 1, false, [⟨0, 2, .ro, 0, false, .any⟩, ⟨2, 3, .ro, 0, false, .any⟩,
    ⟨5, 1, .ro, 0, false, .any⟩, ⟨8, 4, .ro, 0, false, .any⟩,
    ⟨16, 6, .ro, 0, false, .any⟩]⟩,
  -- HOST_SESS_TXN
  ⟨0x110104, 16, 8, 0, 1, false, [⟨0, 1, .ro, 0, false, .any⟩, ⟨16, 13, .ro, 0, false, .any⟩]⟩,
  -- HOST_SESS_REQ
  ⟨0x110108, 16, 8, 0, 1, false, [⟨0, 32, .ro, 0, false, .any⟩]⟩,
  -- HOST_PEER_CFG
  ⟨0x110400, 32, 8, 0, 1, false, [⟨0, 1, .rw, 0, false, .any⟩, ⟨1, 1, .rw, 0, false, .any⟩]⟩,
  -- HOST_PEER_ADDR
  ⟨0x110404, 32, 8, 4, 4, false, [⟨0, 32, .rw, 0, false, .any⟩]⟩,
  -- HOST_PEER_ID_LO
  ⟨0x110414, 32, 8, 0, 1, false, [⟨0, 32, .rw, 0, false, .any⟩]⟩,
  -- HOST_PEER_ID_HI
  ⟨0x110418, 32, 8, 0, 1, false, [⟨0, 32, .rw, 0, false, .any⟩]⟩,
  -- HOST_PEER_STAT
  ⟨0x11041C, 32, 8, 0, 1, false, [⟨0, 2, .ro, 0, false, .any⟩, ⟨2, 1, .ro, 0, false, .any⟩,
    ⟨8, 8, .rclr, 0, false, .any⟩, ⟨16, 16, .ro, 0, false, .any⟩]⟩]

/-- The registers of unit 17. -/
def hostRegs : List Reg := hostRegs0

/-- The registers of the unit window `u` (01_architecture.md R12). -/
def unitRegs (u : Nat) : List Reg :=
  match u with
  | 0 => sysRegs
  | 1 => pwrRegs
  | 2 => icuRegs
  | 3 => rodRegs
  | 4 => flowRegs
  | 5 => ltabRegs
  | 6 => radRegs
  | 7 => ntuRegs
  | 8 => drvRegs
  | 9 => lceRegs
  | 10 => metRegs
  | 11 => rtcRegs
  | 12 => keyRegs
  | 13 => evrRegs
  | 14 => updRegs
  | 15 => fpRegs
  | 16 => wchRegs
  | 17 => hostRegs
  | _ => []

end Sys2Proof.Machine
end

