-- ==== Sys2Proof/Machine/Sparse.lean ====
section
/-! DEFINITION. Sparse tables: a list of (key, value) pairs in one canonical form, keys strictly rising and no
entry equal to what an unlisted key reads as. Registers, the RAMs F, I and C, bead contexts, street cells and
every other large array of the block are held so. -/

namespace Sys2Proof.Machine

/-- A sparse table keyed by number. -/
abbrev SMap (β : Type) := List (Nat × β)

/-- The value at `a`; `d` is what `a` reads as when it is not listed. -/
def SMap.find {β : Type} (d : β) : SMap β → Nat → β
  | [], _ => d
  | (k, v) :: t, a => if a < k then d else if a = k then v else SMap.find d t a

/-- `m` with `v` at `a`; `d` is what `a` reads as when it is not listed, so writing `d` unlists `a`. -/
def SMap.set {β : Type} [DecidableEq β] (d : β) : SMap β → Nat → β → SMap β
  | [], a, v => if v = d then [] else [(a, v)]
  | (k, w) :: t, a, v =>
    if a < k then (if v = d then (k, w) :: t else (a, v) :: (k, w) :: t)
    else if a = k then
      (if v = d then t.dropWhile (fun e => decide (e.1 ≤ a)) else (a, v) :: t)
    else (k, w) :: SMap.set d t a v

/-- All keys lie above `lo`, rise strictly, and no entry is what its key reads as unlisted. -/
def SMap.wfAbove {β : Type} [DecidableEq β] (dflt : Nat → β) : Nat → SMap β → Bool
  | _, [] => true
  | lo, (k, v) :: t => decide (lo ≤ k) && decide (v ≠ dflt k) && SMap.wfAbove dflt (k + 1) t

/-- The canonical form. -/
def SMap.wf {β : Type} [DecidableEq β] (dflt : Nat → β) (m : SMap β) : Bool := SMap.wfAbove dflt 0 m

/-- Set a run of consecutive keys from `a` on. -/
def SMap.setRun {β : Type} [DecidableEq β] (dflt : Nat → β) (m : SMap β) (a : Nat) : List β → SMap β
  | [] => m
  | v :: vs => SMap.setRun dflt (SMap.set (dflt a) m a v) (a + 1) vs

/-- The values at `n` consecutive keys from `a` on. -/
def SMap.findRun {β : Type} (dflt : Nat → β) (m : SMap β) (a : Nat) : Nat → List β
  | 0 => []
  | n + 1 => SMap.find (dflt a) m a :: SMap.findRun dflt m (a + 1) n

/-- `m` without its entries of keys `lo` to `hi`: each of them reads as unlisted again. -/
def SMap.clear {β : Type} (m : SMap β) (lo hi : Nat) : SMap β :=
  m.filter (fun e => decide (e.1 < lo) || decide (hi < e.1))

end Sys2Proof.Machine
end

