-- ==== Sys2Proof/Machine/Units.lean ====
section
/-! DEFINITION. The records of the units' own state: everything the spec gives a unit beside its registers. -/

namespace Sys2Proof.Machine

/-! ### What the block sends -/

/-- The content of a downlink message (07 R188 to R200, 09 R241 to R258). -/
inductive Msg where
  /-- A LAP broadcast message: its octets. -/
  | lap (payload : List Byte)
  /-- A command: code, transaction ID, payload. -/
  | cmd (code txn : Nat) (payload : List Byte)
  /-- JOIN_RSP: EUI-64, status, short address, LAP version, wrapped LANTERN_NET key, and for a Gen-1 node its SI and anchor in ms
  and its channel map (09 R248). -/
  | joinRsp (eui : Nat) (st : Status) (short lap : Nat) (key : List Byte) (slot : Option (Nat × Nat × Nat))
  /-- ROUTE_ADV of the module: HOPS, cost, CI and map version. -/
  | routeAdv (hops cost ci ver : Nat)
  /-- Resync beacon: next event counter and its time in ms, SI and anchor in ms. -/
  | beacon (evcnt evMs si anchor : Nat)
  /-- MAP_UPDATE: the new map and the event counter from which it applies. -/
  | mapUpdate (map evcnt : Nat)
  /-- A segment channel map announcement: map, version and the minute it takes effect, in ms. -/
  | mapAnnounce (map ver atMs : Nat)
  /-- A campaign message of class 3: code, first block, block or bitmap octets. -/
  | bulk (code block : Nat) (payload : List Byte)
  /-- The last-gasp report (14 R355). -/
  | lastGasp (payload : List Byte)
  deriving DecidableEq, Repr

/-- How a frame goes out: mode, channel, power in 0.5 dB (08 R233), PSDU octets, source route (09 R260), the rendezvous times of its
wake-up frames in units of 10 symbols (09 R245), the seconds, nanoseconds and CORR of its GTIME element (10 R283, beside its sub-type 1
and the OUI of NTU_RADIO), and its integrity code (10 R284). -/
structure AirForm where
  mode : Nat
  chan : Nat
  power : Int
  octets : Nat
  route : List Nat
  wake : List Nat
  gtime : Option (Nat × Nat × Int)
  mic : Option (List Byte)
  deriving DecidableEq, Repr

/-- What leaves the block. -/
inductive Output where
  /-- The status a requester gets for a write or an action. -/
  | status (who : Requester) (st : Status)
  /-- The words a requester reads. -/
  | data (who : Requester) (ws : List Word)
  /-- A FLOW_XCHG message to a peer (06 R171). -/
  | flowXchg (peer frame : Nat) (elems : List FlowElem)
  /-- A radio transmission: transceiver, module time of its SFD end, destination, sequence number, message, form. -/
  | radio (trx atNs dest seq : Nat) (m : Msg) (form : AirForm)
  /-- An acknowledgement: transceiver, mode, channel, sequence number, frame pending, and for an Enh-Ack its Time Correction. -/
  | ack (trx mode chan seq : Nat) (pend enh : Bool) (corr : Int)
  /-- The PA-enable line of a transceiver is at its active level, high or low, between two module times (08 R234). -/
  | paEnable (trx fromNs toNs : Nat) (high : Bool)
  /-- A notification to a session: topic and data. -/
  | notify (session topic : Nat) (data : List Nat)
  /-- A RESPONSE to a session: request ID, DUPLICATE, status, result. -/
  | response (session id : Nat) (dup : Bool) (st : Status) (result : List Int)
  /-- HELLO_ACK: version (0 with a status), features, token, window in KiB. -/
  | helloAck (session : Nat) (st : Status) (version features token window : Nat)
  /-- CREDIT: offset received in order, and the window in bytes. -/
  | credit (session id offset window : Nat)
  /-- The module ends a connection. -/
  | closed (session : Nat) (st : Status)
  /-- The module ends a connection that holds no slot. -/
  | refusedConn (conn : Nat) (st : Status)
  /-- Peer links: KEEPALIVE, and an attempt to open the link. -/
  | peerAlive (peer : Nat)
  | peerOpen (peer : Nat)
  /-- The key store's answers to the supervisor: SEAL with the index of its blob, UNSEAL with the data (17 R396). -/
  | sealed (slot : Nat) (st : Status) (index : Nat)
  | unsealed (slot : Nat) (st : Status) (data : List Byte)
  /-- The bytes of a meter link frame to the island, or from it (13 R335). -/
  | toIsland (frame : List Byte)
  | fromIsland (frame : List Byte)
  /-- A display refresh: the header byte and the frame buffer. -/
  | display (bytes : List Byte)
  deriving DecidableEq, Repr

/-! ### Frame tick (01_architecture.md R13, 10_network_time.md R266, R281) -/

/-- The four phases of a frame, or no frames running. -/
inductive Phase where
  | stopped | snap | exec | bar | emit
  deriving DecidableEq, Repr

structure Frame where
  phase : Phase
  /-- Network frame number (R32). -/
  number : Nat
  /-- Module time of the last tick edge, ns since the PTP epoch. -/
  edgeNs : Nat
  /-- Microseconds since that edge, as of the newest command that says so (log entry 7). -/
  nowUs : Nat
  /-- Frames since VAUX became valid, not saturating. -/
  mono : Nat
  /-- The exact rest of module time at the edge in 2^-16 ns (R266). -/
  frac : Nat
  /-- Module time of the end of the UTC day (86,400 s after its start) at which an announced leap second falls, and whether
  it is positive (10 R267). -/
  leapDue : Option (Nat × Bool)
  /-- The same of the last leap second that took effect. -/
  leapPast : Option (Nat × Bool)
  /-- ROD_ADMIT_LIMIT and ROD_PORT.COMPAT as of the last frame edge (02 R66). -/
  limitPct : Nat := 90
  compat : Bool := false
  /-- The local inputs as the last SNAP copied them, by register (01 R13, log entry 135). -/
  inputs : SMap Word := []
  deriving DecidableEq, Repr

/-! ### Frame engine (02_frame_engine.md, 03_marric_instruction_set.md) -/

/-- A lantern-set cursor: its selection and the position in it (03 R82). -/
structure Cursor where
  sel : List Nat
  pos : Nat
  deriving DecidableEq, Repr

/-- An active LOOP: iterations left, first word, the word after the body, and the call depth it was entered at. -/
structure LoopCtx where
  count : Nat
  first : Nat
  stop : Nat
  depth : Nat
  deriving DecidableEq, Repr

/-- An item of the output log (02 R44). A broadcast keeps its levels by LID, the offset k and the fade. -/
inductive OutReq where
  | portwr (addr : Nat) (value : Word)
  | bcast (levels : List (Nat × Nat)) (offset fade : Nat)
  | post (handle lid cmd : Nat) (payload : List Byte)
  | drvset (chan level : Nat)
  | tally (branches mw : Nat)
  | flowdet (lid cls dir speed timeNs : Nat)
  deriving DecidableEq, Repr

/-- What a checkpoint holds (02 R59): the registers that survive a pass, and the POST count. -/
structure Ckpt where
  s : SMap Word
  v : SMap Word
  m : SMap (BitVec 16)
  posts : Nat
  deriving DecidableEq, Repr

/-- One bead context (02, 03 R68). Its STATE, CLASS, BUDGET and IMAGE stand in the ROD_BEAD registers. -/
structure Bead where
  s : SMap Word := []
  /-- Lane j of V[v] at key 16·v + j. -/
  v : SMap Word := []
  m : SMap (BitVec 16) := []
  fl : BitVec 16 := 0
  c0 : Cursor := ⟨[], 0⟩
  c1 : Cursor := ⟨[], 0⟩
  pc : Nat := 0
  calls : List Nat := []
  loops : List LoopCtx := []
  /-- Image slot of the owning image, and the bead's index in its bead table. -/
  slot : Nat := 0
  index : Nat := 0
  entry : Nat := 0
  order : Nat := 0
  act : Nat := 0
  period : Nat := 0
  phase : Nat := 0
  bursts : Nat := 0
  /-- Write log: F word address and value, in program order. -/
  wlog : List (Nat × Word) := []
  olog : List OutReq := []
  /-- Log pool entries the two logs use. -/
  entries : Nat := 0
  /-- The open broadcast, if one is open: level by LID. -/
  openB : Option (List (Nat × Nat)) := none
  posts : Nat := 0
  cycles : Nat := 0
  ckpt : Ckpt := ⟨[], [], [], 0⟩
  /-- The pass has executed STI, RAISE or EOI (02 R59). -/
  touched : Bool := false
  /-- It has had a bead replay in this frame. -/
  replayed : Bool := false
  passFrame : Nat := 0
  passEdgeNs : Nat := 0
  passSrc : Nat := 0
  /-- UTC of the pass frame edge in ms, and whether it is known (03 R87). -/
  passMs : Nat := 0
  passKnown : Bool := true
  /-- Tally branches that the broadcasts of its last committed pass addressed (07 R205). -/
  branches : Option Nat := none
  /-- The FLOW bit of SYS_READY at the pass frame's SNAP (03 R92). -/
  passFlow : Bool := false
  /-- Arrival time-stamp of the event the activation serves (03 R93). -/
  arrivalNs : Nat := 0
  /-- The access a parked bead waits for: its bursts, and the word index of the instruction that issued it. -/
  parked : Option (Nat × Nat) := none
  startReq : Bool := false
  stopReq : Bool := false
  resetReq : Bool := false
  startSeq : Nat := 0
  /-- A FRAME pass is due and not yet run. -/
  due : Bool := false
  spanned : Bool := false
  /-- Frame of the last committed pass or activation since START. -/
  lastCommit : Option Nat := none
  /-- Module time has stepped since that commit (10 R276). -/
  stepped : Bool := false
  acts : Nat := 0
  deriving DecidableEq, Repr

/-- One rod (02 R29, R30, R54, R55). -/
structure Rod where
  /-- Slots of READY beads, in selection order. -/
  select : List Nat := []
  /-- Parked slots in the order they parked, and whether the access has completed. -/
  waiting : List (Nat × Bool) := []
  /-- The handler in service on the rod, from its entry to its end. -/
  handler : Option Nat := none
  /-- A bead would park while 8 are parked (R29). -/
  stalled : Bool := false
  /-- What event activations may still draw on in this frame (R55). -/
  remain : Nat := 0
  used : Nat := 0
  /-- Frame edges until a reset rod selects again (21 R457). -/
  resetIn : Nat := 0
  deriving DecidableEq, Repr

/-- A log queued for a bar (02 R41). -/
structure QLog where
  bead : Nat
  passFrame : Nat
  wlog : List (Nat × Word)
  olog : List OutReq
  entries : Nat
  deriving DecidableEq, Repr

/-- GSP writes held for the bar (05 R141, 19 R428): a plain F word, or a transaction with the request ID of its TXN_COMMIT. -/
structure HostWr where
  session : Nat
  txn : Option Nat
  /-- Held writes: address (an F word from 2^28 on) and value, in order of acceptance. -/
  ws : List (Nat × Word)
  deriving DecidableEq, Repr

structure Bar where
  queue : List QLog := []
  host : List HostWr := []
  /-- The committed image as it stood before the bar in progress (02 R42), or before the SNAP in progress (05 R142). -/
  old : Option (SMap Byte) := none
  overrun : Bool := false
  /-- Entries that this bar has committed (R66). -/
  entries : Nat := 0
  /-- The committed image as of the end of the last SNAP, which EMIT builds from (07 R182). -/
  image : Option (SMap Byte) := none
  /-- Released output, for EMIT. -/
  released : List QLog := []
  deriving DecidableEq, Repr

/-- The counters of a leaf-weighted deficit tree (02 R61), keyed by a code of the node's path. -/
structure Arb where
  deficit : SMap Nat := []
  /-- `last` + 1 per branch; 0 before its first grant. -/
  last : SMap Nat := []
  credit : SMap Nat := []
  deriving DecidableEq, Repr

/-! ### Event delivery (04_event_delivery.md) -/

/-- A stacked context: the bead that was issuing, the handler then in service, its claim word, and what the end of its service
restores. -/
structure IcuCtx where
  slot : Option Nat
  handler : Option Nat
  claim : Word
  svc : Option Nat
  deriving DecidableEq, Repr

structure IcuTarget where
  stack : List IcuCtx := []
  /-- The claim in force is in service: the value of RP that its end restores (R119), but for a privileged source, whose value stands
  on the privileged stack. None once its EOI has ended it. -/
  svc : Option Nat := none
  /-- The privileged priority stack (R115). -/
  priv : List Nat := []
  /-- Module time at which the coalescing interval ends (R114). -/
  timerNs : Nat := 0
  deriving DecidableEq, Repr

structure Icu where
  /-- The latched levels (R107, R108). -/
  level : BitVec 256 := 0
  /-- Module time of the last assertion of a source. -/
  raised : SMap Nat := []
  /-- The sources found pending when their target last went idle: they did not find it idle when they became pending (R114). -/
  busyAt : BitVec 256 := 0
  /-- Claimed sources whose drop since the claim has been counted (R122). -/
  late : BitVec 256 := 0
  targets : SMap IcuTarget := []
  deriving DecidableEq, Repr

/-! ### Event recorder (16_event_recorder.md) -/

/-- One record. `event` stands for CODE and `key`, `data` for PAYLOAD (log entry 12). -/
structure Rec where
  seq : Nat
  epoch : Nat
  boot : Nat
  gen : Nat
  source : Nat
  event : Event
  repeats : Nat
  firstMs : Nat
  lastMs : Nat
  monoUs : Nat
  key : List Nat
  data : List Nat
  deriving DecidableEq, Repr

structure EvrLog where
  /-- Newest first. -/
  recs : List Rec := []
  head : Nat := 0
  /-- Sequence numbers of the flood table, newest first. -/
  flood : List Nat := []
  /-- Newest sequence number in NAND, and the head saved at ONYX entry. -/
  nandHead : Nat := 0
  savedHead : Option Nat := none
  /-- What NAND holds of records still open: they are written again when they close (R382). -/
  copies : List Rec := []
  deriving DecidableEq, Repr

structure Evr where
  ops : EvrLog := {}
  sec : EvrLog := {}
  met : EvrLog := {}
  /-- Records reported before EVR is ready: log and record. -/
  early : List (Nat × Rec) := []
  deriving DecidableEq, Repr

/-! ### Faults (21_faults.md) -/

structure FaultRec where
  cls : Nat
  count : Nat
  info : List Nat
  deriving DecidableEq, Repr

structure Flt where
  /-- The die junction is at or above 125 °C (R448, 04 R108). -/
  hot : Bool := false
  cur : Option FaultRec := none
  queue : List FaultRec := []
  /-- Module time at which the fault in service went into service. -/
  sinceNs : Nat := 0
  /-- Times of GARNET entries. -/
  entries : List Nat := []
  /-- Step of R453 reached: 0 none, 1 stopped, 5 reset, 6 rebuilding. -/
  step : Nat := 0
  /-- Image slots to activate again, in handle order. -/
  images : List Nat := []
  /-- The stored images still wait for their verification after a start (05 R138). -/
  reverify : Bool := false
  deriving DecidableEq, Repr

/-! ### Images (05_programs_and_lantern_table.md R126 to R138) -/

/-- A bead table entry (R128). -/
structure BeadEntry where
  cls : Nat
  rod : Nat
  slot : Nat
  order : Nat
  flags : Nat
  act : Nat
  period : Nat
  phase : Nat
  entry : Nat
  codeStart : Nat
  codeWords : Nat
  budget : Nat
  bursts : Nat
  logEntries : Nat
  deriving DecidableEq, Repr

/-- A subscription entry (R130). -/
structure SubEntry where
  source : Nat
  prio : Nat
  bead : Nat
  pool : Nat
  deriving DecidableEq, Repr

/-- A grant entry (R131). -/
structure GrantEntry where
  kind : Nat
  access : Nat
  first : Nat
  last : Nat
  deriving DecidableEq, Repr

/-- The header and tables of an image (R127 to R131). -/
structure Mpi where
  /-- ISA_MAJOR times 256, and ISA_MINOR. -/
  isa : Nat := 0
  keepState : Bool := false
  name : List Nat := []
  version : Nat := 0
  codeOff : Nat := 0
  codeWords : Nat := 0
  constOff : Nat := 0
  constSize : Nat := 0
  constBase : Nat := 0
  fBase : Nat := 0
  fSize : Nat := 0
  iBase : Nat := 0
  iSize : Nat := 0
  sigOff : Nat := 0
  total : Nat := 0
  beads : List BeadEntry := []
  subs : List SubEntry := []
  grants : List GrantEntry := []
  deriving DecidableEq, Repr

/-- An image slot (R135): the bytes received, the session and the request that load it, the header and tables once checked, the
beads placed (table index, bead
number), frame edges since ACTIVATE, and what the program store keeps of it. -/
structure Image where
  bytes : List Byte := []
  mpi : Mpi := {}
  session : Nat := 0
  reqId : Nat := 0
  placed : List (Nat × Nat) := []
  edges : Nat := 0
  /-- DEACTIVATE accepted, beads not yet unloaded. -/
  unloading : Bool := false
  /-- The program store keeps it, and whether it was ACTIVE. -/
  stored : Bool := false
  wasActive : Bool := false
  deriving DecidableEq, Repr

/-! ### Flow reckoner (06_flow_reckoner.md) -/

/-- One street cell (R157). -/
structure FlowCell where
  rho : Nat := 0
  vel : Nat := 0
  conf : Nat := 0
  dw : Nat := 0
  s : Int := 0
  last : Nat := 0
  deriving DecidableEq, Repr

/-- A detection report waiting for, or in, the snapshot (R160). -/
structure FlowDet where
  arrNs : Nat
  detNs : Nat
  lid : Nat
  cls : Nat
  dir : Nat
  speed : Nat
  deriving DecidableEq, Repr

/-- A received FLOW_XCHG message: arrival time, peer, frame number. -/
structure FlowMsg where
  arrNs : Nat
  peer : Nat
  frame : Nat
  elems : List FlowElem
  deriving DecidableEq, Repr

/-- The boundary inflow of an IN entry (R172): outflow to spread, tenths given so far, inflow kept for want of room,
and the ghost cells with their LEN and their age in ms, fixed at the receiving update (R173). -/
structure FlowIn where
  total : Nat := 0
  given : Nat := 10
  kept : Nat := 0
  ghosts : List (Nat × Nat × Nat) := []
  len : Nat := 0
  ageMs : Nat := 0
  deriving DecidableEq, Repr

structure Flow where
  /-- Shadow link records, word k of link l at 8·l + k, and the records in force. -/
  shadow : SMap Word := []
  links : SMap Word := []
  /-- Boundary entries in force (their shadow is FLOW_BND_CFG). -/
  bnd : SMap Word := []
  /-- Cell c of link l at 64·l + c. -/
  cells : SMap FlowCell := []
  /-- Learned fraction of exit k of link l at 4·l + k, plus 1 (0: none learned yet, the configured one is in force), and its count. -/
  tfl : SMap Nat := []
  cnt : SMap Nat := []
  inflow : SMap FlowIn := []
  outSum : SMap Nat := []
  /-- Placements taken at SNAP: LID, link, cell, and REACHABLE without STALE. -/
  placed : List (Nat × Nat × Nat × Bool) := []
  /-- Detections and messages waiting for a snapshot, and those of the snapshot not yet used. -/
  dets : List FlowDet := []
  snapDets : List FlowDet := []
  msgs : List FlowMsg := []
  snapMsgs : List FlowMsg := []
  /-- Presence of LID i at horizon h at 4·i + h, computed and not yet published. -/
  back : SMap Nat := []
  busy : Bool := false
  /-- An update still ran when the next one was to start: the snapshot's inputs wait (R170). -/
  missed : Bool := false
  ready : Bool := false
  clearReq : Bool := false
  /-- The FLOW bit of SYS_READY at the last SNAP (03 R92). -/
  snapReady : Bool := false
  /-- Frames run when the last valid message of a peer arrived, plus 1. -/
  heard : SMap Nat := []
  /-- The peers that are lost (R173): bit p. -/
  lost : BitVec 8 := 0
  /-- Messages of a format other than 1 per peer, and the frames run at the last EVR record of them, plus 1 (log entry 140). -/
  badFormat : SMap Nat := []
  badFrame : SMap Nat := []
  deriving DecidableEq, Repr

end Sys2Proof.Machine
end

