-- ==== Sys2Proof/Machine/Units2.lean ====
section
/-! DEFINITION. The state of the outward units: local drive, radio, links, segment and tally (07, 08, 09, 11). -/

namespace Sys2Proof.Machine

/-! ### Local drive (11_local_drive.md) -/

/-- The PWM of a group of eight channels (R291): its depth with the module time of a period boundary, and the depth that takes over at the
boundary `fromNs`. -/
structure PwmGrp where
  bits : Nat := 12
  origin : Nat := 0
  next : Nat := 12
  fromNs : Nat := 0
  deriving DecidableEq, Repr

/-- One channel: the fade in progress or ended (R292), its source, and its diagnosis bookkeeping (R301). -/
structure DrvChan where
  base : Nat := 0
  goal : Nat := 0
  startNs : Nat := 0
  fadeNs : Nat := 0
  source : Nat := 0
  /-- Condition of the last check, and how many checks in a row met it. -/
  cond : Nat := 0
  run : Nat := 0
  /-- In the present bus state (R296): it was checked, how many checks in a row it has passed, at most 2, and it was measured. -/
  seen : Bool := false
  fit : Nat := 0
  measured : Bool := false
  passNs : Option Nat := none
  /-- Counts by which R298 shortens its on-time. -/
  cut : Nat := 0
  /-- Module time at which its count of periods for R300 was last restarted. -/
  countNs : Nat := 0
  /-- When an OPEN is checked again, or a DROPOUT left at VMAX is tried again (R301). -/
  nextNs : Option Nat := none
  deriving DecidableEq, Repr

/-- A staged channel level; `frame` is its apply frame. -/
structure DrvStaged where
  chan : Nat
  level : Nat
  fadeMs : Nat
  source : Nat
  frame : Nat
  deriving DecidableEq, Repr

/-- One feeder output (R306). -/
structure DrvFeeder where
  out : Bool := false
  changeNs : Option Nat := none
  /-- The auxiliary contact as it stands. -/
  raw : Bool := false
  written : Bool := false
  deriving DecidableEq, Repr

structure Drv where
  chans : SMap DrvChan := []
  staged : List DrvStaged := []
  bound : List DrvStaged := []
  feeders : SMap DrvFeeder := []
  closeNs : Option Nat := none
  storeRead : Bool := false
  /-- ISET and CHAN_CFG in force (R289), and the groups' PWM (R291). -/
  iset : Nat := 0
  cfg : SMap Word := []
  pwm : SMap PwmGrp := []
  /-- Set-point: value at `rampNs`, target, and rate in 10 mV per ms. -/
  rampFrom : Nat := 0
  rampTo : Nat := 0
  rampNs : Nat := 0
  rampRate : Nat := 0
  /-- Times of automatic retries, since when the bank is below 110 °C, and a shut-down that none may end (R303). -/
  retries : List Nat := []
  coolNs : Option Nat := none
  noRetry : Bool := false
  /-- Sinks, boost and coils are off for ONYX (R308). -/
  off : Bool := false
  deriving DecidableEq, Repr

/-! ### Loop engine (12_loop_engine.md) -/

structure Lce where
  /-- The filtered D term. -/
  d : SMap Word := []
  /-- Re-initialisation is due (R319). -/
  reinit : SMap Bool := []
  /-- State that a FORCED loop left (R318). -/
  left : SMap Nat := []
  /-- Register set-points in force (R317). -/
  sp : SMap Word := []
  /-- Module time of the last pulse of a PIN, plus 1 (R311). -/
  pulseNs : SMap Nat := []
  /-- Module time from which a loop's next sample may come (R310). -/
  nextNs : SMap Nat := []
  deriving DecidableEq, Repr

/-! ### Radio (08_radio_air_interface.md) -/

/-- A downlink item (09 R261 to R264). `due` is the earliest launch in ns, 0 for at once. -/
structure DownItem where
  cls : Nat
  link : Bool
  dest : Nat
  msg : Msg
  octets : Nat
  due : Nat
  /-- The copy of a broadcast that goes to the sampling children, behind a wake-up sequence (09 R245). -/
  sampling : Bool := false
  deriving DecidableEq, Repr

/-- A timed launch queue entry (08 R235). `wake`: frames of its wake-up sequence (09 R245); `flex`: a launch that is late keeps the
limits of 09 R247 and the channel of the period it begins in. -/
structure TlqEntry where
  due : Nat
  cls : Nat
  mode : Nat
  chan : Nat
  power : Int
  cca : Bool
  octets : Nat
  tries : Nat
  seq : Nat
  retryNs : Option Nat
  item : DownItem
  wake : Nat := 0
  flex : Bool := false
  deriving DecidableEq, Repr

/-- A stored frame: partition, bytes held, when its PHR and its end had arrived, descriptor (R231). -/
structure RxStored where
  part : Nat
  space : Nat
  arrNs : Nat
  desc : List Byte
  deriving DecidableEq, Repr

/-- An acknowledgement due (R226, R227): E in ns, its length in octets, and the frame it answers. -/
structure AckDue where
  trx : Nat
  demod : Nat
  endNs : Nat
  mode : Nat
  chan : Nat
  octets : Nat
  seq : Nat
  pend : Bool
  /-- Short source address, 0xFFFF for none. -/
  src : Nat
  /-- Enh-Ack, and its Time Correction in µs (10 R285). -/
  enh : Bool
  corr : Int
  deriving DecidableEq, Repr

/-- A frame in progress whose PHR has been received (R230): its demodulator, the end of its SFD, and the space reserved for it. -/
structure RxAir where
  demod : Nat
  sfdNs : Nat
  part : Nat
  space : Nat
  deriving DecidableEq, Repr

structure Rad where
  tlq : SMap (List TlqEntry) := []
  stored : List RxStored := []
  acks : List AckDue := []
  rxCount : SMap Nat := []
  /-- Channel of an open Gen-1 window (09 R249). -/
  g1chan : Option Nat := none
  /-- Airtime not yet counted in whole ms, ns. -/
  airRem : SMap Nat := []
  inAir : List RxAir := []
  /-- Periods in which a transceiver takes no frame because it transmits (R224), newest first, and in which a demodulator is deaf
  (R223). -/
  txSpans : SMap (List (Nat × Nat)) := []
  deafSpans : SMap (List (Nat × Nat)) := []
  /-- Mode and channel of the newest transmission. -/
  txChan : SMap (Nat × Nat) := []
  /-- Periods in which the PA-enable line of a transceiver is asserted (R234). -/
  pa : SMap (List (Nat × Nat)) := []
  /-- Window centres to restore on return to QUARTZ (R238). -/
  savedWin : Option Nat := none
  deriving DecidableEq, Repr

/-! ### Links (09_radio_links.md) -/

/-- A connection (R243, R249, R250). State: 0 none, 1 CONNECTED, 2 WIDENING, 3 RESYNC, 4 DROPPED. -/
structure Conn where
  st : Nat := 0
  gen2 : Bool := false
  ci : Nat := 0
  m : Nat := 0
  evcnt : Nat := 0
  chmap : Nat := 0
  /-- A Gen-1 map that takes over at an event counter (R251). -/
  newMap : Option (Nat × Nat) := none
  si : Nat := 0
  anchor : Nat := 0
  /-- Supervision timeout in ms, and when the timer started. -/
  supMs : Nat := 0
  supNs : Option Nat := none
  heardNs : Nat := 0
  /-- The node keeps its receiver on until then, on this channel (R246). -/
  openNs : Nat := 0
  openChan : Nat := 0
  /-- Module time of its newest event, ns (R249). -/
  evNs : Nat := 0
  /-- Its event window is open, and a frame has come in it. -/
  window : Bool := false
  got : Bool := false
  deriving DecidableEq, Repr

/-- An accepted sequence number of a peer record (R255). -/
structure PeerEntry where
  seq : Nat
  pend : Bool
  ns : Nat
  deriving DecidableEq, Repr

/-- A unicast waiting for its acknowledgement, until `limitNs`, on the channel it went out on (R254). -/
structure Flight where
  trx : Nat
  hop : Nat
  seq : Nat
  tries : Nat
  chan : Nat
  limitNs : Nat
  item : DownItem
  deriving DecidableEq, Repr

/-- What an uplink frame says of its originator's route, for SNAP (R259). -/
structure RouteNote where
  lid : Nat
  parent : Nat
  hops : Nat
  lqi : Nat
  ns : Nat
  deriving DecidableEq, Repr

structure Links where
  conns : SMap Conn := []
  /-- Connections that the acknowledgement of a JOIN_RSP will make (R248, R250). -/
  prep : SMap Conn := []
  peers : SMap (List PeerEntry) := []
  /-- Extended sources, most recently used first. -/
  xpeers : List (Nat × List PeerEntry) := []
  /-- The last four record numbers of a LID (R256). -/
  recNos : SMap (List Nat) := []
  notes : List RouteNote := []
  /-- Hops named by a ROUTE_ERR since their last frame, and hops whose link is dropped (R260). -/
  failed : List Nat := []
  /-- Until when DST of a LID is set (R259). -/
  dst : SMap Nat := []
  queue : List DownItem := []
  arb : Arb := {}
  flight : List Flight := []
  seq : Nat := 0
  /-- The committed segment map: in force, and the one waiting with its minute in ms (R251). -/
  map : Nat := 2 ^ 64 - 1
  mapNext : Option (Nat × Nat) := none
  /-- Hop maps whose first ROUTE_ADV is due. -/
  advDue : List Nat := []
  /-- When the last periodic ROUTE_ADV was queued (R258). -/
  advNs : Option Nat := none
  deriving DecidableEq, Repr

/-! ### Segment and tally (07_segment_lighting.md) -/

/-- A command to a lantern (R190 to R193). -/
structure SegCmd where
  handle : Nat
  code : Nat
  payload : List Byte
  txn : Nat
  /-- The request it answers, for a GSP command. -/
  session : Option Nat
  sends : Nat
  sentNs : Nat
  firstNs : Nat
  deriving DecidableEq, Repr

/-- What the module keeps of a lantern, or of a channel as leaf 16,384 + c, beside its record (R184 to R208). -/
structure Leafing where
  sched : Option Nat := none
  traf : Option Nat := none
  /-- Frame in which the traffic hold ends. -/
  hold : Nat := 0
  source : Nat := 0
  garnet : Bool := false
  shed : Bool := false
  /-- Level last sent. -/
  sent : Nat := 0
  /-- Levels it was lowered from, each with the module time until which its load still counts at it (R202). -/
  olds : List (Nat × Nat) := []
  /-- When its fade has ended, ns (R186). -/
  settleNs : Nat := 0
  mism : Nat := 0
  /-- Active codes with the time of their raise, and codes cleared within the last 60 s (R208). -/
  codes : List (Nat × Nat) := []
  cleared : List (Nat × Nat) := []
  /-- Flaps of a continuing fault, by code (R208). -/
  flaps : List (Nat × Nat) := []
  /-- Last fault code reported, detection reports not yet counted in the record, and STALE. -/
  lastCode : Nat := 0
  detects : Nat := 0
  stale : Bool := false
  reportNs : Option Nat := none
  mains : Bool := false
  badNs : Option Nat := none
  cmds : List SegCmd := []
  txn : Nat := 0
  /-- Failsafe level and fade last sent to it (R198). -/
  fsSent : Option (Nat × Nat) := none
  /-- UTC in ms and ENERGY of the last report, and readings at reconciliation boundaries, newest first (R210). -/
  energy : Option (Nat × Nat) := none
  latched : List (Nat × Nat) := []
  joined : Bool := false
  hw : Nat := 0
  /-- Identity as of the last SNAP: COMMISSIONED and EUI-64 (R181). -/
  known : Option Nat := none
  /-- When the module came to know it, ns. -/
  sinceNs : Nat := 0
  deriving DecidableEq, Repr

/-- A join waiting for SNAP, or for EMIT once its record is found (R179): the node, its arrival, its LID. -/
structure JoinWait where
  node : JoinReq
  ns : Nat
  lid : Option Nat
  deriving DecidableEq, Repr

/-- A level that a bead released for a leaf (a lantern, or channel c as 16,384 + c): its apply frame and fade in ms, and
whether it is bound to a broadcast (R97). -/
structure SegLevel where
  leaf : Nat
  bead : Nat
  level : Nat
  frame : Nat
  fade : Nat
  bound : Bool
  deriving DecidableEq, Repr

/-- A level to send: leaf, level, apply frame, fade in ms; whether a program's class sends it, so that the tally arbitrates a
rise, whether the source changed, and whether it is a channel level bound to a broadcast. -/
structure SegSend where
  leaf : Nat
  level : Nat
  frame : Nat
  fade : Nat
  arb : Bool
  changed : Bool
  bound : Bool
  deriving DecidableEq, Repr

/-- A change of a fault code for the summary (R209): LID, code, kind (0 cleared, 1 raised, 2 a continuing fault that has flapped),
flaps. -/
structure FaultNote where
  lid : Nat
  code : Nat
  kind : Nat
  flaps : Nat
  deriving DecidableEq, Repr

/-- A target of a firmware campaign (R212): the bitmaps of the present poll not yet answered, missing blocks, checked, failed. -/
structure CampTarget where
  lid : Nat
  lap : Nat
  maps : List Nat
  missing : List Nat
  checked : Bool
  failed : Bool
  deriving DecidableEq, Repr

structure Campaign where
  image : Nat := 0
  version : Nat := 0
  bytes : List Byte := []
  targets : List CampTarget := []
  /-- Polls and checks that wait for room, and those outstanding: LID, code, bitmap (R177, 09 R264). -/
  todo : List (Nat × Nat × Nat) := []
  asked : List (Nat × Nat × Nat) := []
  /-- When the present state of the campaign began. -/
  actNs : Nat := 0
  actFrame : Nat := 0
  deriving DecidableEq, Repr

/-- The last complete and the present reconciliation of a feeder (R210, R211). -/
structure Recon where
  /-- Consecutive complete periods with LOSS above THRESH, and below −THRESH. -/
  highRun : Nat := 0
  lowRun : Nat := 0
  deriving DecidableEq, Repr

/-- The tally's values in force, as taken at the last settlement (R217): C in mW, the branch caps in mW, q in mW, COMPAT, SHED,
SHED_DELAY. -/
structure TallyCfg where
  cap : Nat := 2 ^ 32 - 1
  caps : List Nat := []
  q : Nat := 100
  compat : Bool := false
  shed : Bool := false
  delay : Nat := 50
  deriving DecidableEq, Repr

structure Seg where
  leaves : SMap Leafing := []
  enrol : List JoinReq := []
  joins : List JoinWait := []
  /-- Released output waiting for EMIT: levels in bar order, and POSTs as handle, LID, code, payload. -/
  levels : List SegLevel := []
  posts : List (Nat × Nat × Nat × List Byte) := []
  /-- The settlement tree's counters (R203). -/
  arb : Arb := {}
  /-- Levels queued, for CMD_LEVEL at the next SNAP (R184). -/
  cmdNotes : List SegSend := []
  /-- Broadcasts queued in this EMIT: apply frame, ID, number of queued items (R187). -/
  bcasts : List (Nat × Nat × Nat) := []
  tally : TallyCfg := {}
  /-- Status reports waiting for SNAP: LID, arrival, the frame number at the arrival, report. -/
  reports : List (Nat × Nat × Nat × StatusReport) := []
  notes : List FaultNote := []
  camp : Campaign := {}
  recon : SMap Recon := []
  /-- Feeders energised as sampled at SNAP (R183), bit f. -/
  feeders : Nat := 0
  bcastId : Nat := 0
  /-- Frames in a row with L above C (R206). -/
  overRun : Nat := 0
  /-- Headroom to publish at the next SNAP: global, then the eight branches (R205). -/
  heads : Option (Nat × List Nat) := none
  /-- When the present fault summary period began (R209), and the last reconciliation boundary done, in s of UTC. -/
  aggNs : Nat := 0
  reconDone : Nat := 0
  deriving DecidableEq, Repr

end Sys2Proof.Machine
end

