-- ==== Sys2Proof/Machine/Units3.lean ====
section
/-! DEFINITION. The state of supplies and power (14), the watch core and what the NAND keeps of the configuration. -/

namespace Sys2Proof.Machine

/-! ### Power (14_power_and_watch.md) -/

/-- Where the main domain stands: off, on VBKP only, in ONYX, or on VAUX (QUARTZ and AGATE, by PWR_STAT.STATE). -/
inductive PMode where
  | off | backup | onyx | on
  deriving DecidableEq, Repr

structure Pwr where
  mode : PMode := .off
  vaux : Bool := false
  vbkp : Bool := false
  /-- A QUARTZ request was made in this frame (R350). -/
  quartzNow : Bool := false
  /-- An update activation is in its control pause (18 R412). -/
  paused : Bool := false
  /-- Retired NAND blocks (21 R448). -/
  retired : List Nat := []
  /-- Module time of ONYX entry, and the last task still running or to run next: 1 to 3, none when they have ended (R354). -/
  onyxNs : Nat := 0
  task : Option Nat := none
  /-- VAUX has come back while a last task runs: a warm start follows it (R349). -/
  warmWait : Bool := false
  /-- VLEDIN as sensed last, in 10 mV, and whether it is valid (14 R345, 11 R296): it rises and falls apart from VAUX. -/
  vledin : Nat × Bool := (0, false)
  deriving DecidableEq, Repr

/-! ### Watch core -/

/-- The running state of a watch rule: filter output and history (newest first), samples of an equal run, whether the filter
has started, the condition, samples it has held, and whether the rule has fired since it was last false. -/
structure WchRule where
  out : Int := 0
  hist : List Int := []
  equal : Nat := 0
  started : Bool := false
  held : Nat := 0
  fired : Bool := false
  deriving DecidableEq, Repr

structure Wch where
  rules : SMap WchRule := []
  /-- Consecutive samples of PHOTO below DUSK, and above DAWN. -/
  darkRun : Nat := 0
  lightRun : Nat := 0
  /-- LOG records waiting (R360). -/
  logq : List Rec := []
  /-- Module time of the last pass committed by a SCHEDULE bead. -/
  schedNs : Option Nat := none
  /-- Module time from which the next sample may come (R357). -/
  nextNs : Nat := 0
  deriving DecidableEq, Repr

/-! ### Real-time clock (15_clock_and_calendar.md) -/

/-- An entry of an event input's FIFO: date word, time word with RISING and OSF, prescaler count. -/
structure EvEntry where
  date : Nat
  time : Nat
  sub : Nat
  deriving DecidableEq, Repr

structure Rtc where
  /-- A module time in the running second, the prescaler count then, and what steering has added in this second before `steerFrom`. -/
  tickNs : Nat := 0
  base : Nat := 0
  steered : Int := 0
  steerFrom : Nat := 0
  /-- CAL in force, and ticks of its 32 s window. -/
  calNow : Int := 0
  window : Nat := 0
  /-- Net prescaler counts added by steering in the present hour of LOCKED, and when that hour began (R369). -/
  steer : Int := 0
  hourNs : Option Nat := none
  /-- Module time at which steering stops, and from which the next comparison may come (R369). -/
  steerEnd : Nat := 0
  checkNs : Nat := 0
  /-- Module time of the whole second of UTC at which the RTC is to be stepped. -/
  stepNs : Option Nat := none
  /-- CAL has been lost with the always-on domain's supply and is not restored yet (R368). -/
  calLost : Bool := false
  evin : SMap (List EvEntry) := []
  deriving DecidableEq, Repr

/-! ### Network time (10_network_time.md) -/

/-- A foreign master: its newest Announce, and when that and the one before it came (10 R270). -/
structure Foreign where
  ann : Announce
  lastNs : Nat
  prevNs : Option Nat
  deriving DecidableEq, Repr

/-- A port: link speed in Mbit/s (0 no link), its best master with the time of its last Announce, the masters it has heard, the run of Announces by which
it beats the active port, and the last offset not yet paired (R279). -/
structure NtuPort where
  speed : Nat := 0
  master : Option Announce := none
  annNs : Nat := 0
  wins : Nat := 0
  fresh : Option Int := none
  foreign : List Foreign := []
  deriving DecidableEq, Repr

structure Ntu where
  ports : SMap NtuPort := []
  /-- The servo's integrator, 2^-8 ppb. -/
  integ : Int := 0
  /-- In RTC: network clock minus module time in ns, as of `netNs`. -/
  net : Option Int := none
  netNs : Nat := 0
  /-- Measurements in a row within THRESH. -/
  run : Nat := 0
  /-- A step of module time due at the next tick edge, in ns; it ends in LOCKED when it is the first lock. -/
  step : Option Int := none
  /-- The step was made at the edge that comes next (R276: every input enters its snapshot). -/
  stepped : Bool := false
  accept : Bool := false
  jumpGm : Nat := 0
  pairs : List Int := []
  ptpOff : Option Int := none
  deriving DecidableEq, Repr

/-! ### NAND -/

/-- What a CONFIG_SAVE put into NAND: the configuration bytes of F, the saved registers, and the reckoner's link records, boundary
entries and learned fractions (06 R175). -/
structure Nand where
  f : SMap Byte := []
  regs : SMap Word := []
  links : SMap Word := []
  bnd : SMap Word := []
  tfl : SMap Nat := []
  deriving DecidableEq, Repr

end Sys2Proof.Machine
end

