-- ==== Sys2Proof/Machine/Units4.lean ====
section
/-! DEFINITION. The state of the key store (17), the meter island and its link (13), the update manager (18), the host session
unit (19) and the front panel (20). -/

namespace Sys2Proof.Machine

/-! ### Keys (17_keys_and_attestation.md) -/

/-- One half of a slot: header and material (R390). `good`: its integrity tag holds. -/
structure KeyHalf where
  typ : Nat
  usage : Nat
  parent : Nat
  derived : Bool
  label : List Byte
  gen : Nat
  seq : Nat
  mat : List Byte
  good : Bool
  deriving DecidableEq, Repr

/-- A copy of the commit record: the half it names (0 A, 1 B), its SEQ, and whether its CRC is valid. -/
structure KeyCopy where
  half : Nat
  seq : Nat
  good : Bool
  deriving DecidableEq, Repr

structure KeySlot where
  a : Option KeyHalf := none
  b : Option KeyHalf := none
  one : Option KeyCopy := none
  two : Option KeyCopy := none
  /-- The material in force: the active half's, or derived. -/
  mat : Option (List Byte) := none
  /-- Copy 2 is still to be written (R393 step 5), and by when. -/
  dueNs : Option Nat := none
  /-- Erased by a replacement of its parent: derived again at the next frame edge (R399). -/
  rederive : Bool := false
  /-- Revoked, and not valid again since. -/
  revoked : Bool := false
  /-- The AES-GCM invocation counter, and its value in NAND. -/
  counter : Nat := 0
  saved : Nat := 0
  deriving DecidableEq, Repr

/-- What an operation in the engine's queue is for: an attestation, a load, RETIRE, the signatures of a manifest, SEAL or UNSEAL. -/
inductive KeyWork where
  | attest (nonce : List Byte)
  | load (q : KeyLoad)
  | retire (body sig : List Byte)
  | manifest (m : Manifest)
  | seal (data : List Byte)
  | unseal (iv sealed : List Byte)
  deriving DecidableEq, Repr

/-- An operation in the engine's queue (R400): the slot whose key it uses and the usage bit that this takes, the slots that it names, the
request that it serves (session and ID), and what for. -/
structure KeyJob where
  use : Option (Nat × Nat)
  slots : List Nat
  who : Option (Nat × Nat)
  work : KeyWork
  /-- The engine has started it, and it completes normally (R399): what the slot answered then, and its material. -/
  key : Option (Status × List Byte) := none
  deriving DecidableEq, Repr

structure Key where
  slots : SMap KeySlot := []
  queue : List KeyJob := []
  bmr : List Byte := List.replicate 32 0
  meas : List (List Byte) := []
  /-- Recovered since the last start (R391). -/
  done : Bool := false
  deriving DecidableEq, Repr

/-! ### Meter island (13_meter_island.md) -/

/-- A change of parameters that applies from the island's next second (R331): constants of a channel, the incomer CT ratio, the test
output, the metrology key. -/
inductive IslParam where
  | cal (ch : Nat) (consts : List Byte)
  | ct (pri : Nat) (sec1 : Bool)
  | test (reactive : Bool)
  | mkey (key : List Byte)
  deriving DecidableEq, Repr

structure Island where
  run : Bool := false
  serial : Nat := 0
  /-- ACT[0..7] and REACT[0..3], 0.01 Wh or varh. -/
  energy : List Nat := List.replicate 12 0
  /-- What each register has still to count, in 2 nWh of its primary energy (log entry 185). -/
  energyRest : List Nat := List.replicate 12 0
  demLast : Nat := 0
  demMax : Nat := 0
  demPer : Nat := 0
  demPrev : Nat := 0
  demFlags : Nat := 0
  /-- The running period: its start in s, ACT[3] at its start, its flags so far, and the boundary at which the last one closed. -/
  perStart : Option Nat := none
  perBase : Nat := 0
  perFlags : Nat := 0
  perMark : Nat := 0
  /-- UTC month of DEMAND_MAX, year × 12 + month. -/
  month : Int := 0
  /-- SAG[0..2], SWELL[0..2]. -/
  events : List Nat := List.replicate 6 0
  /-- Sags and swells that last, in the same order (R329). -/
  lasting : List Bool := List.replicate 6 false
  freq : Nat := 0
  phases : List (List Nat) := []
  feeders : List (Nat × Nat) := List.replicate 6 (0, 0)
  cal : SMap (List Byte) := []
  ctPri : Nat := 5
  ctSec1 : Bool := false
  /-- Pulses of the METER LED, and the secondary energy that has given none yet, active and reactive, in 10 nWh (R343). -/
  pulses : Nat := 0
  pulseRest : Nat × Nat := (0, 0)
  /-- Parameters accepted and not yet applied, in their order. -/
  params : List IslParam := []
  fwid : Nat := 0
  code : List Byte := []
  /-- A loaded image: FWID, code, signature. -/
  loaded : Option (Nat × List Byte × List Byte) := none
  fwKey : List Byte := []
  mkey : List Byte := []
  nonce : Nat := 0
  /-- Clock: UTC seconds, and whether it is valid. -/
  secs : Nat := 0
  timeValid : Bool := false
  /-- Slew still to run in µs, and the µs moved while SEALED in the UTC days of its clock, the newest first (R340). -/
  slew : Int := 0
  spent : List (Nat × Nat) := []
  log : List IslRec := []
  unlogged : Nat := 0
  isOpen : Bool := false
  /-- After a timeout the jumper has to be removed and fitted again. -/
  reseat : Bool := false
  /-- Seconds since the last accepted signed message in OPEN. -/
  openSecs : Nat := 0
  testReactive : Bool := false
  cover : Bool := false
  /-- Alarms since the last record, as MET_ALARM bits 8 to 0. -/
  alarm : Nat := 0
  seq : Nat := 0
  refused : Nat := 0
  /-- The last 900 records, newest first. -/
  kept : List Meas := []
  /-- Counter of its next link frame (R335), and whether its link session is acknowledged (R336). -/
  counter : Nat := 0
  acked : Bool := false
  deriving DecidableEq, Repr

/-- The die's side of the meter link (R336, R338). -/
structure MetLink where
  sess : Bool := false
  heardNs : Nat := 0
  /-- The newest record received and not yet in a snapshot: arrival and record. -/
  next : Option (Nat × Meas) := none
  /-- Newest SEQ received. -/
  last : Option Nat := none
  /-- Records asked for and not yet seen: the first SEQ and how many (R338). -/
  want : Option (Nat × Nat) := none
  /-- Boundary readings of reconciliation: island seconds, and E of the six feeders. -/
  bounds : List (Nat × List Nat) := []
  /-- The service session that waits for the island's answer, with its request. -/
  waiting : Option (Nat × Nat) := none
  nonce : Nat := 0
  serial : Nat := 0
  identNs : Option Nat := none
  /-- Counter of the die's next link frame (R335). -/
  counter : Nat := 0
  /-- The hour of module UTC whose TSYNC_REQ went out last (R341). -/
  autoHour : Nat := 0
  deriving DecidableEq, Repr

/-! ### Update manager (18_update.md) -/

/-- A part in a slot: kind, index, version, digest. -/
structure UpdPart where
  kind : Nat
  index : Nat
  version : Nat
  digest : List Byte
  hw : Nat
  bytes : List Byte
  deriving DecidableEq, Repr

/-- The class A stores as they stood at the pause (R415): configuration bytes of F, registers, images. -/
structure Frozen where
  f : SMap Byte
  regs : SMap Word
  images : SMap Image
  deriving DecidableEq, Repr

/-- A copy of the selector record (18 R404): sequence number, slot and TRIAL; `good`: its CRC is valid. -/
structure SelCopy where
  seq : Nat := 0
  slot : Nat := 0
  trial : Bool := false
  good : Bool := true
  deriving DecidableEq, Repr

structure Upd where
  /-- The two copies of the selector record. -/
  selA : SelCopy := {}
  selB : SelCopy := {}
  /-- The two firmware slots. -/
  slot0 : List UpdPart := []
  slot1 : List UpdPart := []
  manifest : Option Manifest := none
  /-- Parts received so far, in PARTS order. -/
  got : Nat := 0
  /-- Blobs of the sealed-data area (slot, IV, sealed bytes), and of the inactive slot's. -/
  blobs : List (Nat × List Byte × List Byte) := []
  fwdBlobs : List (Nat × List Byte × List Byte) := []
  /-- Start of the control pause, and whether the selector has been written in it. -/
  pauseNs : Nat := 0
  switched : Bool := false
  /-- End of the confirmation window. -/
  endNs : Nat := 0
  /-- The frozen class A copies, while a trial runs. -/
  frozen : Option Frozen := none
  fmt : Nat := 1
  trialFmt : Nat := 1
  rollCause : Nat := 0
  deriving DecidableEq, Repr

/-! ### Host session unit (19_host_protocol.md) -/

/-- A cached response (R425). -/
structure HostResp where
  id : Nat
  st : Status
  words : List Int
  deriving DecidableEq, Repr

/-- The open transaction (R428): its number, its writes in order of acceptance, and when its newest request came. -/
structure HostTxn where
  number : Nat
  writes : List (Nat × Word) := []
  lastNs : Nat
  deriving DecidableEq, Repr

/-- An open stream (R427): request ID, operation, total length, the bytes in order so far, and what arrived beyond them. -/
structure HostStream where
  id : Nat
  op : Nat
  len : Nat
  bytes : List Byte
  ahead : List (Nat × List Byte)
  granted : Nat
  deriving DecidableEq, Repr

structure Session where
  subject : Nat := 0
  token : Nat := 0
  service : Bool := false
  window : Nat := 0
  cache : List HostResp := []
  /-- Requests that still run, and those of them that were repeated. -/
  running : List Nat := []
  repeated : List Nat := []
  topics : Nat := 0
  txn : Option HostTxn := none
  streams : List HostStream := []
  heardNs : Nat := 0
  endNs : Nat := 0
  /-- UNOWNED service session by PIN alone (R419). -/
  unowned : Bool := false
  /-- The offset up to which the client has granted the module to send, by stream (R427). -/
  sendLimit : SMap Nat := []
  deriving DecidableEq, Repr

/-- A peer link: when its last datagram came (0: none has), when this side last opened it, and when its last KEEPALIVE left. -/
structure HostPeer where
  heardNs : Nat := 0
  tryNs : Nat := 0
  aliveNs : Nat := 0
  deriving DecidableEq, Repr

/-- A connection whose handshake is complete and whose HELLO has not come (R419, R421). -/
structure HostConn where
  conn : Nat
  service : Bool
  dtls : Bool
  subject : Nat
  role : Nat
  unowned : Bool
  atNs : Nat
  deriving DecidableEq, Repr

structure HostUnit where
  sessions : SMap Session := []
  conns : List HostConn := []
  peers : SMap HostPeer := []
  /-- Per-session registers, and latched words, by requester and address. -/
  own : List (Requester × Nat × Word) := []
  txnNo : Nat := 0
  /-- OPS and SEC heads at the last EVR_HEAD notification, and its time. -/
  headSeen : Nat × Nat := (0, 0)
  headNs : Nat := 0
  deriving DecidableEq, Repr

/-! ### Front panel (20_panel_and_inputs.md) -/

/-- The filter of one input (R436): raw samples and raw transitions of the last 1,000 samples as bits (newest bit 0), samples
the raw value has been stable, samples the transition count has been calm, and how long the state has been active. -/
structure FpInput where
  raw : Bool := false
  hist : Nat := 0
  trans : Nat := 0
  /-- How many bits of `hist` and of `trans` are set. -/
  ones : Nat := 0
  moves : Nat := 0
  stable : Nat := 0
  calm : Nat := 0
  active : Nat := 0
  deriving DecidableEq, Repr

structure Fp where
  inputs : SMap FpInput := []
  /-- Pad baseline × 2^16, and whether the pad is touched. -/
  base : Nat := 0
  touched : Bool := false
  started : Bool := false
  /-- Hold in progress on an offered action: since when (ms of samples), none when no touch counts. -/
  offered : Bool := false
  held : Option Nat := none
  /-- Milliseconds since the last key event. -/
  quiet : Nat := 0
  lampEnd : Option Nat := none
  /-- When the display was last refreshed. -/
  refreshNs : Nat := 0
  /-- PIN entry: digits, position, wrong entries in this connection, its session and since when it waits. -/
  digits : List Nat := List.replicate 6 0
  pos : Nat := 0
  wrong : Nat := 0
  entry : Option Nat := none
  submitted : Bool := false
  /-- Times of wrong PINs, and the end of a lockout. -/
  wrongNs : List Nat := []
  lockNs : Option Nat := none
  /-- Salt and hash of the PIN. -/
  salt : List Byte := []
  pinHash : List Byte := []
  /-- Scroll position within the page. -/
  scroll : Nat := 0
  deriving DecidableEq, Repr

end Sys2Proof.Machine
end

