-- ==== Sys2Proof/Machine/Factory.lean ====
section
/-! DEFINITION. What the factory puts into the module: the keys of KEY[0], KEY[1] and KEY[3] (17_keys_and_attestation.md R387, R388) and the
parts of the firmware slots (18_update.md R404). -/

namespace Sys2Proof.Machine

/-- A byte string brought to a length: cut, or filled with 0. -/
def fitBytes (n : Nat) (bs : List Byte) : List Byte := (bs ++ List.replicate n 0).take n

/-- A slot that the factory has filled: its first half, named by both copies of the commit record. -/
def factorySlot (typ usage : Nat) (mat : List Byte) : KeySlot :=
  let c : Option KeyCopy := some ⟨0, 1, true⟩
  { a := some ⟨typ, usage, 0, false, [], 1, 1, mat, true⟩, one := c, two := c }

/-- KEY[0], DEVICE_ATTEST; KEY[1], the vendor half of UPDATE_VERIFY; KEY[3], the STORAGE root. Each permits all that its type does. The
lengths are those of a P-256 private key, a P-256 public key and an AES-256 key (log entry 189). -/
def factoryKeys : SMap KeySlot :=
  [(0, factorySlot 1 1 (fitBytes 32 (Config.factoryKey 0))), (1, factorySlot 5 2 (fitBytes 64 (Config.factoryKey 1))),
   (3, factorySlot 4 96 (fitBytes 32 (Config.factoryKey 3)))]

/-- A part of the factory's set: version 0, and a SHA-256 digest (log entry 189). -/
def factoryPart (kind index : Nat) : UpdPart := ⟨kind, index, 0, fitBytes 32 (Config.factoryDigest kind index), 0, []⟩

/-- The set with which the module comes, in slot 0. -/
def factoryParts (p : Part) : List UpdPart :=
  [factoryPart 1 0, factoryPart 2 0, factoryPart 3 0] ++ (if p.trxs = 2 then [factoryPart 3 1] else []) ++ [factoryPart 4 0, factoryPart 5 0]

end Sys2Proof.Machine
end

