-- ==== Sys2Proof/Machine/State.lean ====
section
/-! DEFINITION. The state of the module: every register, RAM, queue, counter and mode the spec gives it, as plain data, and
the queue of waiting commands. INVENTORY.md lists each piece with the rule that names it. -/

namespace Sys2Proof.Machine

/-- Why a step stops. No command of this block stops so: every command has an effect, or changes nothing. -/
inductive Fault where
  /-- Raised by no meaning; kept so that the type has a value. Safe. -/
  | illFormed
  deriving DecidableEq, Repr

/-- Why a command is turned away by the model. -/
inductive Refusal where
  /-- Raised by `exec` for a command without a meaning. Safe: nothing can be proved of such a command's effect. -/
  | notModelled (mnemonic : String)
  deriving DecidableEq, Repr

/-- The state of the module. -/
structure State where
  part : Part
  pending : List Instr
  /-- Every memory-mapped register that differs from its reset value, by address. -/
  regs : SMap Word
  fmem : SMap Byte
  ftwin : SMap Byte
  imem : SMap Byte
  cmem : SMap Byte
  fr : Frame
  beads : SMap Bead
  rods : SMap Rod
  bar : Bar
  port : Arb
  icu : Icu
  evr : Evr
  flt : Flt
  flow : Flow
  images : SMap Image
  drv : Drv
  lce : Lce
  rad : Rad
  links : Links
  seg : Seg
  pwr : Pwr
  wch : Wch
  nand : Nand
  rtc : Rtc
  ntu : Ntu
  key : Key
  isl : Island
  met : MetLink
  upd : Upd
  host : HostUnit
  fp : Fp
  /-- What the block has sent, oldest first. -/
  out : List Output
  /-- Draws made so far on the free values (log entry 9). -/
  free : Nat
  deriving DecidableEq, Repr

/-- The module as it comes, without any supply (log entries 1 to 5): no register differs from its reset value, every store is
empty but for what the factory puts in (17 R387, 18 R404), and nothing runs until VAUX becomes valid (01 R21, 14 R349). -/
def State.reset : State :=
  { part := { size := .cm16k, meter := true, bandU := false }
    pending := []
    regs := [], fmem := [], ftwin := [], imem := [], cmem := []
    fr := { phase := .stopped, number := 0, edgeNs := 0, nowUs := 0, mono := 0, frac := 0, leapDue := none, leapPast := none }
    beads := [], rods := [], bar := {}, port := {}, icu := {}, evr := {}, flt := {}, flow := {}, images := [], drv := {}, lce := {}
    rad := {}, links := {}, seg := {}, pwr := {}, wch := {}, nand := {}, rtc := {}, ntu := {}, key := { slots := factoryKeys }, isl := {}, met := {}
    upd := { slot0 := factoryParts { size := .cm16k, meter := true, bandU := false } }, host := {}, fp := {}, out := [], free := 0 }

end Sys2Proof.Machine
end

