-- ==== Sys2Proof/Machine/Regs.lean ====
section
/-! DEFINITION. Reading and writing registers and their fields in the state's register file, below all access rules
(log entry 4). -/

namespace Sys2Proof.Machine

/-- The index of address `a` in the register array `r`. -/
def Reg.indexOf (r : Reg) (a : Nat) : Option (Nat × Nat) :=
  if a < r.base then none
  else
    let o := a - r.base
    if r.stride = 0 then (if o = 0 then some (0, 0) else none)
    else if r.count2 ≤ 1 then (if o % r.stride = 0 ∧ o / r.stride < r.count then some (o / r.stride, 0) else none)
    else
      let i := o / r.stride
      let q := o % r.stride
      if i < r.count ∧ q % r.stride2 = 0 ∧ q / r.stride2 < r.count2 then some (i, q / r.stride2) else none

/-- The first register of a list that holds address `a`, with the index. -/
def findIn (a : Nat) : List Reg → Option (Reg × Nat × Nat)
  | [] => none
  | r :: rs =>
    match r.indexOf a with
    | some (i, j) => some (r, i, j)
    | none => findIn a rs

/-- The register at address `a` (01_architecture.md R26). -/
def findReg (a : Nat) : Option (Reg × Nat × Nat) := findIn a (unitRegs (a / 0x10000))

/-- The word of the reset values of a register's fields. -/
def Reg.resetWord (r : Reg) : Word := BitVec.ofNat 32 ((r.fields.map (fun f => f.reset <<< f.lo)).sum)

/-- FLOW_TUNE defaults, 06_flow_reckoner.md R174. -/
def flowTuneReset (i : Nat) : Nat :=
  ([16384, 16, 655, 13107, 256, 65208, 3277, 6, 70, 128, 2000, 1024, 6554, 3000, 8, 358 + 1280 * 2 ^ 16] : List Nat).getD i 0

/-- Reset values that depend on the part or on the index: SYS_IDENT (R5), ICU_POOL and ICU_SRC_CFG (04 R106, R125),
RAD_DEMOD, RAD_RXPART, RAD_WIN, RAD_TXPWR and RAD_TS_CORR (08 R232, R239), FLOW_TUNE (06 R174), RTC_EVIN_CFG (15 R376),
LCE_CFG (12 R322). -/
def dynReset (p : Part) (base i : Nat) : Word :=
  if base = 0x0 then
    BitVec.ofNat 32 (p.sizeCode + 0xB1 * 2 ^ 8 + (if p.meter then 1 else 0) * 2 ^ 16 + (if p.bandU then 1 else 0) * 2 ^ 17
      + (if p.evin then 1 else 0) * 2 ^ 18 + 2 ^ 24 + 2 ^ 28)
  else if base = 0x20000 then BitVec.ofNat 32 (2 ^ p.rods - 1)
  else if base = 0x21000 then BitVec.ofNat 32 (([15, 15, 14, 13, 12, 14, 11, 13] : List Nat).getD i 0 + 16 * 2 ^ 4)
  else if base = 0x60040 then
    BitVec.ofNat 32 ((if i < p.demods then 1 else 0) + (if i < 4 then 0 else 2) + 2 * 2 ^ 2
      + (if i < 4 then i else i + 4) * 2 ^ 8 + i * 2 ^ 16)
  else if base = 0x60080 ∨ base = 0x600A0 then
    (match p.size with
      | .cm02k => if i < 4 then 917504 else 0
      | _ => 458752)
  else if base = 0x60100 then
    BitVec.ofNat 32 (if p.bandU then (if i = 0 then 903800 else 907000) else (if i = 0 then 864625 else 867825))
  else if base = 0x60104 then (if p.bandU then 40 else 28)
  else if base = 0x40100 then BitVec.ofNat 32 (flowTuneReset i)
  else if base = 0x60020 then BitVec.ofNat 32 (([41600, 21200, 14400, 11000] : List Nat).getD i 0)
  else if base = 0xB0200 then (if i < 2 then 3 else 0)
  else if base = 0x91008 then BitVec.ofNat 32 ((if i = 0 then 3 * 2 ^ 4 else 0) + 10 * 2 ^ 24)
  else 0

/-- What the register at `a` holds after reset. -/
def regReset (p : Part) (a : Nat) : Word :=
  match findReg a with
  | none => 0
  | some (r, i, _) => if r.dyn then dynReset p r.base i else r.resetWord

/-- Bits `lo` to `lo + width − 1` of a word, as a number. -/
def getBits (w : Word) (lo width : Nat) : Nat := (w >>> lo).toNat % 2 ^ width

/-- `w` with bits `lo` to `lo + width − 1` replaced by the low bits of `v`. -/
def putBits (w : Word) (lo width v : Nat) : Word :=
  let mask : Word := BitVec.ofNat 32 ((2 ^ width - 1) * 2 ^ lo)
  (w &&& ~~~mask) ||| (BitVec.ofNat 32 ((v % 2 ^ width) * 2 ^ lo))

namespace State

/-- The word of the register file at `a`. -/
def rd (s : State) (a : Nat) : Word := SMap.find (regReset s.part a) s.regs a

/-- Put a word into the register file at `a`. -/
def wr (s : State) (a : Nat) (w : Word) : State := { s with regs := SMap.set (regReset s.part a) s.regs a w }

end State

/-- The address of element `i`, `j` of a field's register. -/
def Fld.at (f : Fld) (i j : Nat) : Nat := f.addr + i * f.stride + j * f.stride2

namespace State

/-- The value of a field. -/
def fld (s : State) (f : Fld) (i : Nat := 0) (j : Nat := 0) : Nat := getBits (s.rd (f.at i j)) f.lo f.width

/-- The value of a one-bit field. -/
def bit (s : State) (f : Fld) (i : Nat := 0) (j : Nat := 0) : Bool := decide (s.fld f i j ≠ 0)

/-- The value of a two's-complement field. -/
def fldI (s : State) (f : Fld) (i : Nat := 0) (j : Nat := 0) : Int :=
  let v := s.fld f i j
  if v < 2 ^ (f.width - 1) then (v : Int) else (v : Int) - 2 ^ f.width

/-- Set a field to the low bits of `v`. -/
def setFld (s : State) (f : Fld) (v : Nat) (i : Nat := 0) (j : Nat := 0) : State :=
  s.wr (f.at i j) (putBits (s.rd (f.at i j)) f.lo f.width v)

/-- Set a one-bit field. -/
def setBit (s : State) (f : Fld) (v : Bool) (i : Nat := 0) (j : Nat := 0) : State :=
  s.setFld f (if v then 1 else 0) i j

/-- Set a field to the two's-complement form of `v`. -/
def setFldI (s : State) (f : Fld) (v : Int) (i : Nat := 0) (j : Nat := 0) : State :=
  s.setFld f (v % (2 ^ f.width : Nat)).toNat i j

/-- Add `n` to a counter that saturates at all ones. -/
def addSat (s : State) (f : Fld) (n : Nat) (i : Nat := 0) (j : Nat := 0) : State :=
  s.setFld f (min (s.fld f i j + n) (2 ^ f.width - 1)) i j

/-- Add `n` to a counter that wraps. -/
def addWrap (s : State) (f : Fld) (n : Nat) (i : Nat := 0) (j : Nat := 0) : State :=
  s.setFld f (s.fld f i j + n) i j

end State

end Sys2Proof.Machine
end

