-- ==== Sys2Proof/Machine/Ops.lean ====
section
/-! DEFINITION. The shared operations: time, status codes, ready bits, bytes and words of F, I and C, event records,
source levels, bead and rod access. -/

namespace Sys2Proof.Machine

/-- The outcome of a command. -/
abbrev Out := Host.Outcome State Fault Refusal

end Sys2Proof.Machine

namespace Sys2Proof

/-- The codes of 00_scope.md R10. -/
def Status.code : Status → Nat
  | .ok => 0x00
  | .busy => 0x01
  | .refusedState => 0x02
  | .invalid => 0x03
  | .range => 0x04
  | .locked => 0x05
  | .revoked => 0x06
  | .integrity => 0x07
  | .noSpace => 0x08
  | .timeout => 0x09
  | .version => 0x0A
  | .duplicate => 0x0B
  | .auth => 0x0C
  | .budget => 0x0D
  | .notReady => 0x0E
  | .late => 0x0F
  | .dateInvalid => 0x10

end Sys2Proof

namespace Sys2Proof.Machine

/-! ### Integers -/

/-- The two's-complement value of the low `w` bits of `v`. -/
def sext (w v : Nat) : Int :=
  let x := v % 2 ^ w
  if x < 2 ^ (w - 1) then (x : Int) else (x : Int) - 2 ^ w

/-- The 32-bit word of an integer, wrapping. -/
def wordOf (x : Int) : Word := BitVec.ofInt 32 x

/-- Clamp to a closed interval. -/
def clampI (x lo hi : Int) : Int := max lo (min x hi)

/-- Arithmetic right shift of an exact integer: towards minus infinity (03 R76). -/
def sarI (x : Int) (n : Nat) : Int := Int.fdiv x (2 ^ n : Nat)

/-- Ceiling division. -/
def ceilDiv (a b : Nat) : Nat := (a + (b - 1)) / b

/-- Bytes of a number, little-endian. -/
def leBytes : Nat → Nat → List Byte
  | 0, _ => []
  | n + 1, v => BitVec.ofNat 8 v :: leBytes n (v / 256)

/-- The number of a little-endian byte string. -/
def leNat : List Byte → Nat
  | [] => 0
  | b :: bs => b.toNat + 256 * leNat bs

/-- Insert into an ascending list without repeats. -/
def insertNat (n : Nat) : List Nat → List Nat
  | [] => [n]
  | x :: xs => if n < x then n :: x :: xs else if n = x then x :: xs else x :: insertNat n xs

/-- The numbers of a list, ascending, without repeats. -/
def sortNat (xs : List Nat) : List Nat := xs.foldl (fun acc x => insertNat x acc) []

namespace State

/-! ### Time (10_network_time.md R266, R267, R281) -/

/-- The frame period in nanoseconds. -/
def frameNs : Nat := 20000000

/-- Module time now, ns since the PTP epoch. -/
def nowNs (s : State) : Nat := s.fr.edgeNs + s.fr.nowUs * 1000

/-- The UTC offset in force, s: PTP's while it is valid, else NTU_UTC.OFFSET (R267). -/
def utcOffset (s : State) : Int := s.ntu.ptpOff.getD (s.fldI R.NTU_UTC_OFFSET)

/-- Network clock minus module time now, ns: it runs at the TCXO rate × (1 − f), module time at the TCXO rate (R274). -/
def netNow (s : State) : Option Int :=
  s.ntu.net.map (fun d => d - Int.fdiv (s.fldI R.NTU_FREQ_F * ((s.nowNs : Int) - s.ntu.netNs)) 256000000000)

/-- What the clock that announced days are counted on is ahead of module time: in RTC the network clock, otherwise module time is that
clock (R267). -/
def netShift (s : State) : Int := if s.fld R.NTU_STAT_STATE = 0 then s.netNow.getD 0 else 0

/-- A module time of an instant given on that clock. -/
def onModule (s : State) (ns : Nat) : Nat := ((ns : Int) - s.netShift).toNat

/-- Milliseconds of UTC since 1970-01-01 of a module time in ns. -/
def utcMsOf (s : State) (ns : Nat) : Nat := (((ns / 1000000 : Nat) : Int) - s.utcOffset * 1000).toNat

/-- Milliseconds of UTC of a module time in ms for CAL FIELDS, counted without leap seconds, and whether it lies in a positive
leap second, during which 23:59:59 shows (R267, 03 R88). -/
def utcShown (s : State) (ms : Int) : Int × Bool :=
  let u := ms - s.utcOffset * 1000
  match s.fr.leapDue, s.fr.leapPast with
  | some (ns, pos), _ =>
    let l : Int := (s.onModule ns / 1000000 : Nat)
    if pos then (if ms < l then (u, false) else (u - 1000, decide (ms < l + 1000)))
    else (if ms < l - 1000 then (u, false) else (u + 1000, false))
  | none, some (ns, pos) =>
    let l : Int := (ns / 1000000 : Nat)
    if pos then (if l + 1000 ≤ ms then (u, false) else if l ≤ ms then (u, true) else (u + 1000, false))
    else (if l - 1000 ≤ ms then (u, false) else (u - 1000, false))
  | none, none => (u, false)

/-- The time of frame edges is not known (03 R87). -/
def timeUnknown (s : State) : Bool := s.bit R.RTC_STATUS_OSF && decide (s.fld R.SYS_READY_TIME_FRAME 17 = 2 ^ 32 - 1)

/-- UTC now, in milliseconds. -/
def utcMs (s : State) : Nat := s.utcMsOf s.nowNs

/-- UTC now as records show it, in milliseconds: a positive leap second repeats 23:59:59 (16 R381). -/
def utcRecord (s : State) : Nat := (s.utcShown (s.nowNs / 1000000 : Nat)).1.toNat

/-- Microseconds from VAUX valid, wrapping at 48 bits (16 R379). -/
def monoUs (s : State) : Nat := (s.fr.mono * 20000 + s.fr.nowUs) % 2 ^ 48

/-- The state at `t` µs after the tick edge, if it is not past that already. -/
def atUs (s : State) (t : Nat) : State := { s with fr := { s.fr with nowUs := max s.fr.nowUs t } }

/-- `f` at the module time `ns`, when that lies in the frame in progress or before it; later nothing happens yet. -/
def whenDue (s : State) (ns : Nat) (f : State → State) : State :=
  if ns ≤ s.fr.edgeNs + frameNs then f (s.atUs (ceilDiv (ns - s.fr.edgeNs) 1000)) else s

/-- Frames run (01 R20). -/
def framesRun (s : State) : Bool := decide (s.fr.phase ≠ .stopped)

/-- Add to the outputs. -/
def emit (s : State) (o : Output) : State := { s with out := s.out ++ [o] }

/-- Answer a requester with a status. -/
def answer (s : State) (who : Requester) (st : Status) : State := s.emit (.status who st)

/-! ### Ready bits (01_architecture.md R21 to R23) -/

/-- Bit n of SYS_READY. -/
def ready (s : State) (n : Nat) : Bool := (s.rd 4).getLsbD n

/-- Set bit n and its time (R21). -/
def setReady (s : State) (n : Nat) : State :=
  (s.wr 4 (putBits (s.rd 4) n 1 1)).setFld R.SYS_READY_TIME_FRAME (s.fld R.SYS_FRAME_COUNT_COUNT) n

/-- Clear bit n (R23). -/
def clearReady (s : State) (n : Nat) : State := s.wr 4 (putBits (s.rd 4) n 1 0)

/-! ### Bytes of F, I and C (00 R6, 02 R36, R37) -/

/-- What a byte of F reads as when nothing has written it: 0, but PARENT 0xFFFF and STORE 0xFF of a lantern record, and FADE_MIN
2,000 of a group (05 R143, R146). -/
def fDflt (a : Nat) : Byte :=
  if a < 0x200000 then (if a % 128 = 0x52 ∨ a % 128 = 0x53 ∨ a % 128 = 0x55 then 0xFF else 0)
  else if 0x208000 ≤ a ∧ a < 0x20A000 then (if a % 8 = 0 then 0xD0 else if a % 8 = 1 then 0x07 else 0)
  else 0

/-- What a byte of I or C reads as when nothing has written it (log entry 5). -/
def zDflt (_ : Nat) : Byte := 0

end State

/-- The number in `n` bytes of a RAM at `a`, little-endian. -/
def memNat (dflt : Nat → Byte) (m : SMap Byte) (a n : Nat) : Nat := leNat (SMap.findRun dflt m a n)

/-- Store `n` bytes of `v` at `a`, little-endian. -/
def memPut (dflt : Nat → Byte) (m : SMap Byte) (a n v : Nat) : SMap Byte := SMap.setRun dflt m a (leBytes n v)

/-- A field of a lantern record (05 R139): byte offset and width in bytes. -/
def recNat (m : SMap Byte) (lid off n : Nat) : Nat := memNat State.fDflt m (128 * lid + off) n

/-- COMMISSIONED of a lantern record. -/
def recComm (m : SMap Byte) (lid : Nat) : Bool := (recNat m lid 0 2).testBit 14

/-- Group entry b of row `row` of the group map (05 R144, R145). -/
def groupEntry (f : SMap Byte) (row b : Nat) : Nat := memNat State.fDflt f (0x200000 + 128 * row + 2 * b) 2

/-- The groups of a lantern, R145: entries 0 to 1,023 of its row under its mask. -/
def groupsOf (f : SMap Byte) (lid : Nat) : List Nat :=
  let row := recNat f lid 0x0E 1
  let mask := recNat f lid 0x10 8
  sortNat (((List.range 64).filter (fun b => mask.testBit b)).filterMap (fun b =>
    let g := groupEntry f row b
    if g < 1024 then some g else none))

/-- The commissioned records, ascending: the records whose byte 1 is listed with COMMISSIONED set. -/
def commissioned (f : SMap Byte) (lanterns : Nat) : List Nat :=
  f.filterMap (fun e => if e.1 % 128 = 1 ∧ e.1 < 128 * lanterns ∧ e.2.getLsbD 6 then some (e.1 / 128) else none)

namespace State

/-- COMMISSIONED of LTAB_STAT, counted where the tables are restored, at SNAP and at BAR_COMPLETE (log entry 173). -/
def countComm (s : State) : State :=
  s.setFld R.LTAB_STAT_COMMISSIONED (min 32767 (commissioned s.fmem s.part.lanterns).length)

/-- A field of a lantern record as committed. -/
def lan (s : State) (lid off n : Nat) : Nat := recNat s.fmem lid off n

/-- A module write to F and its twin (02 R37, R43). -/
def putF (s : State) (a n v : Nat) : State :=
  { s with fmem := memPut fDflt s.fmem a n v, ftwin := memPut fDflt s.ftwin a n v }

/-- A module write to a field of a lantern record. -/
def setLan (s : State) (lid off n v : Nat) : State := s.putF (128 * lid + off) n v

/-! ### Event recorder (16_event_recorder.md R378 to R382) -/

/-- Records a log holds, R377. -/
def evrCap (l : Nat) : Nat := if l = 0 then 1048576 else if l = 1 then 131072 else 8192

def evrLog (s : State) (l : Nat) : EvrLog := if l = 0 then s.evr.ops else if l = 1 then s.evr.sec else s.evr.met

/-- Put a log back and show its head, tail and count (R386). -/
def setEvrLog (s : State) (l : Nat) (g : EvrLog) : State :=
  let s1 := { s with evr := (if l = 0 then { s.evr with ops := g } else if l = 1 then { s.evr with sec := g }
    else { s.evr with met := g }) }
  let tail := match g.recs.getLast? with
    | some r => r.seq
    | none => 0
  ((((s1.setFld R.EVR_HEAD_SEQ_LO_SEQ g.head l).setFld R.EVR_HEAD_SEQ_HI_SEQ (g.head / 2 ^ 32) l).setFld
    R.EVR_TAIL_SEQ_LO_SEQ tail l).setFld R.EVR_TAIL_SEQ_HI_SEQ (tail / 2 ^ 32) l).setFld R.EVR_COUNT_RECORDS g.recs.length l

end State

/-- The records with the one numbered `q` replaced by `f` of it. -/
def recUpdate (q : Nat) (f : Rec → Rec) (rs : List Rec) : List Rec := rs.map (fun r => if r.seq = q then f r else r)

/-- The open record that an event repeats (R382). -/
def floodHit (g : EvrLog) (win nowMs epoch source : Nat) (ev : Event) (key : List Nat) : Option Rec :=
  g.flood.findSome? (fun q =>
    match g.recs.find? (fun r => decide (r.seq = q)) with
    | some r =>
      if r.source = source ∧ r.event = ev ∧ r.key = key ∧ r.epoch = epoch ∧ nowMs ≤ r.firstMs + r.lastMs + win then some r
      else none
    | none => none)

/-- What NAND holds of record r once it is written again: of two copies with one SEQ the one whose GEN is later in serial-number order
(R382). -/
def EvrLog.inNand (g : EvrLog) (r : Rec) : Rec :=
  match g.copies.find? (fun c => decide (c.seq = r.seq)) with
  | some c => if 128 < (r.gen + 256 - c.gen) % 256 then c else r
  | none => r

/-- The records of a log that wait for NAND are written, and those closed since they were written: with `all`, the open ones as they now are
too (log entry 47). What NAND holds otherwise than RAM stays in `copies`. -/
def EvrLog.toNand (all : Bool) (g : EvrLog) : EvrLog :=
  { g with
    nandHead := g.head
    copies := g.recs.filterMap (fun r =>
      let c := g.copies.find? (fun c => decide (c.seq = r.seq))
      if g.flood.contains r.seq then (if all ∨ g.nandHead < r.seq then some (g.inNand r) else c)
      else if c.isSome ∧ g.inNand r ≠ r then some (g.inNand r)
      else none) }

namespace State

def evrToNand (all : Bool) (s : State) : State :=
  ({ s with evr := { s.evr with ops := s.evr.ops.toNand all, sec := s.evr.sec.toNand all, met := s.evr.met.toNand all } } : State).setFld
    R.EVR_STAT_PENDING 0

/-- The log flush (14 R354, 21 R453). -/
def evrFlush (s : State) : State := s.evrToNand true

/-- EMIT hands the records of the frame over, and those closed since they were written (16 R378, R382). -/
def evrHand (s : State) : State := s.evrToNand false

/-- One record more waits for NAND: at most 32,768 ever do, so with that many waiting they are written first (log entry 186). -/
def evrPend (s : State) : State :=
  let s1 := if 32768 ≤ s.fld R.EVR_STAT_PENDING then s.evrHand else s
  s1.setFld R.EVR_STAT_PENDING (s1.fld R.EVR_STAT_PENDING + 1)

/-- Write a new record to log `l`, dropping the oldest when it is full (R377, R383). -/
def evrNew (s0 : State) (l : Nat) (r : Rec) : State :=
  let s := s0.evrPend
  let g := s.evrLog l
  let q := g.head + 1
  let full := decide (evrCap l ≤ g.recs.length)
  let lost := match g.recs.getLast? with
    | some o => o.seq
    | none => 0
  let ack := s.fld R.EVR_SEC_ACK_LO_SEQ + s.fld R.EVR_SEC_ACK_HI_SEQ * 2 ^ 32
  let s1 := if full ∧ l = 1 ∧ ack < lost then s.setBit R.EVR_EVT_SEC_UNREAD true else s
  let recs := { r with seq := q, gen := 2 } :: (if full then g.recs.dropLast else g.recs)
  s1.setEvrLog l { g with recs := recs, head := q, flood := (q :: g.flood).take 16 }

/-- Enter a record into log `l`: merged into an open record, or new (R382). -/
def evrEnter (s : State) (l : Nat) (r : Rec) : State :=
  let g := s.evrLog l
  let win := s.fld R.EVR_FLOOD_WINDOW_WINDOW * 100
  let nowMs := r.firstMs
  match (if win = 0 ∨ l = 2 then none else floodHit g win nowMs r.epoch r.source r.event r.key) with
  | some o =>
    let n := o.repeats + 1
    let upd : Rec → Rec := fun x => { x with repeats := n, lastMs := nowMs - x.firstMs, gen := (x.gen + 2) % 256 }
    let flood := if n = 65535 then g.flood.filter (fun q => decide (q ≠ o.seq)) else g.flood
    (s.setEvrLog l { g with recs := recUpdate o.seq upd g.recs, flood := flood }).addSat R.EVR_CNT_MERGED 1
  | none => s.evrNew l r

/-- A record that is reported before EVR is ready is held, up to 256 of them, and counted beyond these (R378). -/
def evrHold (s : State) (l : Nat) (r : Rec) : State :=
  if s.evr.early.length < 256 then { s with evr := { s.evr with early := s.evr.early ++ [(l, r)] } } else s.addSat R.EVR_STAT2_EARLY_LOST 1

/-- A METLOG record stands at its island index; it never merges (R382, R383). -/
def evrMirror (s0 : State) (x : Rec) : State :=
  if s0.evr.met.recs.any (fun y => decide (y.seq = x.seq)) then s0
  else
    let s := s0.evrPend
    let g := s.evr.met
    s.setEvrLog 2 { g with
      recs := g.recs.filter (fun y => decide (x.seq < y.seq)) ++ x :: g.recs.filter (fun y => decide (y.seq < x.seq)), head := max g.head x.seq }

/-- A unit reports an event (R378): OPS is log 0, SEC log 1; `source` is the unit number of R379. -/
def report (s : State) (l source : Nat) (ev : Event) (key data : List Nat) : State :=
  let r : Rec :=
    { seq := 0, epoch := s.fld R.EVR_EPOCH_EPOCH, boot := s.fld R.EVR_BOOT_BOOT, gen := 0, source := source, event := ev
      repeats := 0, firstMs := s.utcRecord, lastMs := 0, monoUs := s.monoUs, key := key, data := data }
  if s.ready 7 then s.evrEnter l r else s.evrHold l r

/-- EPOCH increments when a step moves time backward or forward by more than 2 s; TIME_SET goes to OPS and SEC (16 R381). Times
in ns; the record gives them in ms, and `source` as RTC_SET_RES.SOURCE. -/
def epochStep (s : State) (source : Nat) (before after : Int) : State :=
  if after < before ∨ before + 2000000000 < after then
    let s1 := s.addWrap R.EVR_EPOCH_EPOCH 1
    let data := [(before / 1000000).toNat, (after / 1000000).toNat, source]
    (s1.report 0 0x0D .timeSet [] data).report 1 0x0D .timeSet [] data
  else s

/-! ### Sources (04_event_delivery.md R107, R108) -/

/-- Source n is no longer one that was found pending when its target went idle (R114). -/
def unmark (s : State) (n : Nat) : State := { s with icu := { s.icu with busyAt := s.icu.busyAt &&& ~~~(1#256 <<< n) } }

/-- A latched source's occurrence, or a RAISE. -/
def assertSrc (s : State) (n : Nat) : State :=
  if s.icu.level.getLsbD n then s
  else
    { s with icu := { s.icu with
      level := s.icu.level ||| (1#256 <<< n), busyAt := s.icu.busyAt &&& ~~~(1#256 <<< n)
      raised := SMap.set 0 s.icu.raised n s.nowNs } }

/-- The claim of a latched source. -/
def dropSrc (s : State) (n : Nat) : State :=
  let keep : BitVec 256 := ~~~(1#256 <<< n)
  { s with icu := { s.icu with level := s.icu.level &&& keep, busyAt := s.icu.busyAt &&& keep } }

/-- The event register of a unit is not 0. -/
def evtSet (s : State) (f : Fld) : Bool := decide (s.rd f.addr ≠ 0)

/-- A source that is active while its condition lasts (R108 and the owning chapters). -/
def srcCond (s : State) (n : Nat) : Bool :=
  match n with
  | 1 => s.flt.cur.isSome || !s.flt.queue.isEmpty
  | 4 => (s.fld R.FP_INPUT_STATE).testBit 7 || (s.fld R.FP_INPUT_STATE).testBit 8
  | 6 => s.evtSet R.MET_ALARM_OPENED
  | 7 => s.bit R.DRV_STAT_THERM_LATCH || s.flt.hot
  | 8 => s.evtSet R.DRV_EVT_OPEN
  | 9 => s.evtSet R.LCE_EVT_WIRE
  | 10 => s.evtSet R.WCH_FIRED_RULE
  | 11 => s.evtSet R.PWR_EVT_ONYX
  | 12 => s.evtSet R.RTC_EVT_ALM
  | 13 => (List.range 4).any (fun i => s.bit R.RTC_EVIN_STAT_DEPTH i)
  | 14 => s.evtSet R.EVR_EVT_GAP
  | 15 => s.evtSet R.KEY_EVT_INTEGRITY
  | 16 => s.evtSet R.UPD_EVT_STAGED
  | 17 => s.evtSet R.FP_EVT_USB
  | 18 => s.evtSet R.ROD_FLT_EVT_FAULT
  | 24 => s.evtSet R.FLOW_EVT_LOST
  | 41 => s.evtSet R.SEG_RECON_EVT_FLAG
  | 42 => s.bit R.PWR_TALLY_STAT_OVER
  | 66 => s.evtSet R.RAD_EVT_OVR
  | 67 => s.evtSet R.RAD_LINK_EVT_DROP
  | 72 => s.bit R.SEG_ENROL_CNT_COUNT
  | 128 => s.evtSet R.HOST_EVT_REFUSED
  | 144 => s.evtSet R.NTU_EVT_JUMP
  | _ => false

/-- The source is one of those that are active while a condition lasts. -/
def condSource (n : Nat) : Bool :=
  [1, 4, 6, 7, 8, 9, 10, 11, 12, 13, 14, 15, 16, 17, 18, 24, 41, 42, 66, 67, 72, 128, 144].contains n

/-- The register whose bits keep source n active, for a source that is active while an event register is not 0. -/
def condReg (n : Nat) : Option Nat :=
  match n with
  | 6 => some R.MET_ALARM_OPENED.addr
  | 8 => some R.DRV_EVT_OPEN.addr
  | 9 => some R.LCE_EVT_WIRE.addr
  | 10 => some R.WCH_FIRED_RULE.addr
  | 11 => some R.PWR_EVT_ONYX.addr
  | 12 => some R.RTC_EVT_ALM.addr
  | 14 => some R.EVR_EVT_GAP.addr
  | 15 => some R.KEY_EVT_INTEGRITY.addr
  | 16 => some R.UPD_EVT_STAGED.addr
  | 17 => some R.FP_EVT_USB.addr
  | 18 => some R.ROD_FLT_EVT_FAULT.addr
  | 24 => some R.FLOW_EVT_LOST.addr
  | 41 => some R.SEG_RECON_EVT_FLAG.addr
  | 66 => some R.RAD_EVT_OVR.addr
  | 67 => some R.RAD_LINK_EVT_DROP.addr
  | 128 => some R.HOST_EVT_REFUSED.addr
  | 144 => some R.NTU_EVT_JUMP.addr
  | _ => none

/-- The source of which a write of the register at `a` can end the condition. -/
def regSource (a : Nat) : Option Nat :=
  if a ∈ [0xB0214, 0xB0234, 0xB0254, 0xB0274] then some 13
  else (List.range 145).find? (fun n => condReg n = some a)

/-- Source n was active in `s0` and is so no more: a mark of R114 goes, and the drop of a claimed source is counted (04 R122). -/
def noteDrop (n : Nat) (s0 s : State) : State :=
  if s0.srcCond n ∧ !s.srcCond n then
    let s0 := s.unmark n
    if s0.bit R.ICU_SRC_STAT_INSVC n then
      let s1 := s0.addSat R.ICU_LATE_DROP_COUNT 1 n
      { s1 with icu := { s1.icu with late := s1.icu.late ||| (1#256 <<< n) } }
    else s0
  else s

/-- A source is active: latched, or its condition lasts. -/
def srcActive (s : State) (n : Nat) : Bool := s.icu.level.getLsbD n || s.srcCond n

/-! ### Beads and rods -/

/-- The context of bead n. -/
def bead (s : State) (n : Nat) : Bead := SMap.find {} s.beads n

def setBead (s : State) (n : Nat) (b : Bead) : State := { s with beads := SMap.set {} s.beads n b }

def rod (s : State) (r : Nat) : Rod := SMap.find {} s.rods r

def setRod (s : State) (r : Nat) (x : Rod) : State := { s with rods := SMap.set {} s.rods r x }

def target (s : State) (t : Nat) : IcuTarget := SMap.find {} s.icu.targets t

def setTarget (s : State) (t : Nat) (x : IcuTarget) : State :=
  { s with icu := { s.icu with targets := SMap.set {} s.icu.targets t x } }

/-- Rod r is fitted and clocked in the present power state (02 R28, R56). -/
def rodClocked (s : State) (r : Nat) : Bool := decide (r < s.part.rods) && (!s.bit R.PWR_STAT_STATE || decide (r < 2))

/-- A free value, and the state that has drawn it (log entry 9). -/
def draw (s : State) : Nat × State := (Config.free s.free, { s with free := s.free + 1 })

end State
end Sys2Proof.Machine
end

