-- ==== Sys2Proof/Machine/Calendar.lean ====
section
/-! DEFINITION. Calendar arithmetic: civil dates, the time-zone and holiday tables of the segment tables
(05_programs_and_lantern_table.md R144, R147 to R150), local time and due instants (03_marric_instruction_set.md R87 to
R89). Instants are seconds of UTC since 1970-01-01, as integers. -/

namespace Sys2Proof.Machine

/-! ### Civil dates -/

/-- Days since 1970-01-01 of a date of the proleptic Gregorian calendar. -/
def daysFrom (y m d : Int) : Int :=
  let y1 := if m ≤ 2 then y - 1 else y
  let era := Int.fdiv y1 400
  let yoe := y1 - era * 400
  let mp := Int.emod (m + 9) 12
  let doy := Int.fdiv (153 * mp + 2) 5 + d - 1
  let doe := yoe * 365 + Int.fdiv yoe 4 - Int.fdiv yoe 100 + doy
  era * 146097 + doe - 719468

/-- Year, month and day of a day number. -/
def civilOf (z0 : Int) : Int × Int × Int :=
  let z := z0 + 719468
  let era := Int.fdiv z 146097
  let doe := z - era * 146097
  let yoe := Int.fdiv (doe - Int.fdiv doe 1460 + Int.fdiv doe 36524 - Int.fdiv doe 146096) 365
  let doy := doe - (365 * yoe + Int.fdiv yoe 4 - Int.fdiv yoe 100)
  let mp := Int.fdiv (5 * doy + 2) 153
  let d := doy - Int.fdiv (153 * mp + 2) 5 + 1
  let m := if mp < 10 then mp + 3 else mp - 9
  let y := yoe + era * 400
  (if m ≤ 2 then y + 1 else y, m, d)

/-- Weekday of a day number, 0 Monday to 6 Sunday: 1970-01-01 was a Thursday. -/
def weekdayOf (z : Int) : Int := Int.emod (z + 3) 7

def leapYear (y : Int) : Bool := decide (y % 4 = 0 ∧ (y % 100 ≠ 0 ∨ y % 400 = 0))

/-- Days of a month. -/
def monthDays (y m : Int) : Int :=
  if m = 2 then (if leapYear y then 29 else 28) else if m = 4 ∨ m = 6 ∨ m = 9 ∨ m = 11 then 30 else 31

/-! ### Time-zone table (R148) -/

/-- One era: FIRST_YEAR, STD_OFFSET and DST_SAVE in minutes, and the start and end rules. -/
structure Era where
  firstYear : Int
  std : Int
  save : Int
  startRule : Word
  endRule : Word
  deriving DecidableEq, Repr

/-- A word of the segment tables. -/
def segWord (f : SMap Byte) (a : Nat) : Word := BitVec.ofNat 32 (memNat State.fDflt f a 4)

/-- A rule word is legal: month 1 to 12, week 1 to 5, weekday 0 to 6, minute 0 to 1,439, other bits 0. -/
def ruleOk (w : Word) : Bool :=
  decide (1 ≤ getBits w 0 4 ∧ getBits w 0 4 ≤ 12 ∧ 1 ≤ getBits w 4 3 ∧ getBits w 4 3 ≤ 5 ∧ getBits w 7 3 ≤ 6 ∧
    getBits w 10 11 ≤ 1439 ∧ getBits w 21 11 = 0)

def eraAt (f : SMap Byte) (i : Nat) : Era :=
  let a := 0x20B010 + 16 * i
  ⟨getBits (segWord f a) 0 16, sext 16 (getBits (segWord f (a + 4)) 0 16), getBits (segWord f (a + 4)) 16 8,
    segWord f (a + 8), segWord f (a + 12)⟩

def eraOk (f : SMap Byte) (i : Nat) : Bool :=
  let a := 0x20B010 + 16 * i
  let e := eraAt f i
  decide (getBits (segWord f a) 16 16 = 0 ∧ getBits (segWord f (a + 4)) 24 8 = 0) &&
    decide (2000 ≤ e.firstYear ∧ e.firstYear ≤ 2199 ∧ -900 ≤ e.std ∧ e.std ≤ 900 ∧ e.save ≤ 120) &&
    (if e.save = 0 then decide (e.startRule = 0 ∧ e.endRule = 0) else ruleOk e.startRule && ruleOk e.endRule) &&
    (if i = 0 then decide (e.firstYear = 2000) else decide ((eraAt f (i - 1)).firstYear < e.firstYear))

def eraCount (f : SMap Byte) : Nat := getBits (segWord f 0x20B000) 8 4

/-- The time-zone table is valid (R148, R150). -/
def zoneValid (f : SMap Byte) : Bool :=
  let w := segWord f 0x20B000
  let n := eraCount f
  decide (getBits w 0 8 = 1 ∧ 1 ≤ n ∧ n ≤ 8 ∧ getBits w 12 20 = 0) &&
    decide (segWord f 0x20B004 = 0 ∧ segWord f 0x20B008 = 0 ∧ segWord f 0x20B00C = 0) && (List.range n).all (eraOk f)

/-- The eras of a table that LTAB_STAT calls valid; none otherwise: local time is then UTC (R88, R150). -/
def zoneOf (f : SMap Byte) (valid : Bool) : List Era := if valid then (List.range (eraCount f)).map (eraAt f) else []

/-- The UTC instant of a rule in a year. -/
def ruleInstant (w : Word) (y : Int) : Int :=
  let m : Int := getBits w 0 4
  let week : Int := getBits w 4 3
  let wd : Int := getBits w 7 3
  let minute : Int := getBits w 10 11
  let first := daysFrom y m 1
  let d0 := first + Int.emod (wd - weekdayOf first) 7
  let day := if week = 5 then
      (let last := first + monthDays y m - 1
       last - Int.emod (weekdayOf last - wd) 7)
    else d0 + 7 * (week - 1)
  day * 86400 + minute * 60

/-- The UTC year of an instant. -/
def utcYear (t : Int) : Int := (civilOf (Int.fdiv t 86400)).1

/-- The era in force at a UTC instant: the last whose FIRST_YEAR has begun. -/
def eraFor (zone : List Era) (t : Int) : Option Era :=
  let y := utcYear t
  match (zone.filter (fun e => decide (e.firstYear ≤ y))).getLast? with
  | some e => some e
  | none => zone.head?

/-- DST is in force at a UTC instant (R148). -/
def dstAt (zone : List Era) (t : Int) : Bool :=
  match eraFor zone t with
  | none => false
  | some e =>
    if e.save = 0 then false
    else
      let y := utcYear t
      let a := ruleInstant e.startRule y
      let b := ruleInstant e.endRule y
      if a < b then decide (a ≤ t ∧ t < b) else !decide (b ≤ t ∧ t < a)

/-- Local time minus UTC at a UTC instant, in seconds. -/
def offsetAt (zone : List Era) (t : Int) : Int :=
  match eraFor zone t with
  | none => 0
  | some e => 60 * (e.std + (if dstAt zone t then e.save else 0))

def localOf (zone : List Era) (t : Int) : Int := t + offsetAt zone t

/-- The UTC instants near a span at which the offset may change: the rule instants and era starts of the years around. -/
def changes (zone : List Era) (t : Int) : List Int :=
  let y := utcYear t
  ([y - 1, y, y + 1] : List Int).flatMap (fun q =>
    (daysFrom q 1 1 * 86400) ::
      zone.flatMap (fun e => if e.save = 0 then [] else [ruleInstant e.startRule q, ruleInstant e.endRule q]))

/-- The offsets that occur within two days of an instant. -/
def offsetsNear (zone : List Era) (t : Int) : List Int :=
  ((offsetAt zone (t - 172800)) :: (offsetAt zone (t + 172800)) ::
    ((changes zone t).filter (fun c => decide (t - 172800 ≤ c ∧ c ≤ t + 172800))).flatMap
      (fun c => [offsetAt zone (c - 1), offsetAt zone c])).eraseDups

/-- Insert into an ascending list of integers without repeats. -/
def insertInt (n : Int) : List Int → List Int
  | [] => [n]
  | x :: xs => if n < x then n :: x :: xs else if n = x then x :: xs else x :: insertInt n xs

/-- The UTC instants at which local time equals the local instant `w`, ascending. -/
def instantsOf (zone : List Era) (w : Int) : List Int :=
  ((offsetsNear zone w).map (fun o => w - o)).foldl
    (fun acc t => if localOf zone t = w then insertInt t acc else acc) []

/-- The first instant after the gap that skips the local instant `w`: the change at which local time jumps over it. -/
def afterGap (zone : List Era) (w : Int) : Option Int :=
  ((changes zone w).filter (fun c => decide (localOf zone (c - 1) < w ∧ w < localOf zone c))).head?

/-- FOLD2: a UTC instant lies in the second pass through a repeated local hour. -/
def secondPass (zone : List Era) (t : Int) : Bool :=
  match instantsOf zone (localOf zone t) with
  | first :: _ => decide (first < t)
  | [] => false

/-! ### Holiday table (R147) -/

/-- A holiday entry is legal. -/
def holOk (w : Word) : Bool :=
  let y := getBits w 9 8
  decide (getBits w 17 3 = 0 ∧ getBits w 24 8 = 0 ∧ 1 ≤ getBits w 20 4 ∧ (y ≤ 199 ∨ y = 255) ∧ 1 ≤ getBits w 5 4 ∧
    getBits w 5 4 ≤ 12 ∧ 1 ≤ getBits w 0 5)

def holCount (f : SMap Byte) : Nat := getBits (segWord f 0x20A000) 16 10

def holEntry (f : SMap Byte) (i : Nat) : Word := segWord f (0x20A010 + 4 * i)

/-- The holiday table is valid (R147, R150). -/
def holValid (f : SMap Byte) : Bool :=
  let w := segWord f 0x20A000
  decide (getBits w 0 8 = 1 ∧ holCount f ≤ 512 ∧ getBits w 8 8 = 0 ∧ getBits w 26 6 = 0) &&
    decide (segWord f 0x20A004 = 0 ∧ segWord f 0x20A008 = 0 ∧ segWord f 0x20A00C = 0) &&
    (List.range (holCount f)).all (fun i => holOk (holEntry f i))

/-- The day type of a local date (R147): an entry for the year wins over an every-year entry, then the lowest index. -/
def dayType (f : SMap Byte) (valid : Bool) (y m d : Int) : Nat :=
  if !valid then 0
  else
    let es := (List.range (holCount f)).map (holEntry f)
    let same (w : Word) : Bool := decide ((getBits w 0 5 : Int) = d ∧ (getBits w 5 4 : Int) = m)
    match es.find? (fun w => same w && decide ((getBits w 9 8 : Int) = y - 2000)) with
    | some w => getBits w 20 4
    | none =>
      match es.find? (fun w => same w && decide (getBits w 9 8 = 255)) with
      | some w => getBits w 20 4
      | none => 0

/-! ### Site record (R149) -/

/-- The site record is valid: VERSION 1, latitude within ±90 and longitude within ±180 degrees in Q9.23. The bits of word 0 above
VERSION, which R149 does not name, have to be 0, as the other tables' unused bits (DESIGN CHOICE, log entry 131). -/
def siteValid (f : SMap Byte) : Bool :=
  let lat := sext 32 (segWord f 0x20C004).toNat
  let lon := sext 32 (segWord f 0x20C008).toNat
  decide (segWord f 0x20C000 = 1 ∧ segWord f 0x20C00C = 0 ∧ -(90 * 2 ^ 23) ≤ lat ∧ lat ≤ 90 * 2 ^ 23 ∧
    -(180 * 2 ^ 23) ≤ lon ∧ lon ≤ 180 * 2 ^ 23)

/-! ### The sun (R90, R91) -/

/-- The elevation by the module's one model of the sun, within 0.1° of the true one, in degrees × 2^24 (R90). -/
def sunElevation (lat lon : Int) (ms : Nat) : Int := Config.sunTrue lat lon ms + clampI (Config.sunError lat lon ms) (-1677721) 1677721

/-- On which side of an elevation (Q8.8) the curve lies: above 1, below −1, on it 0. -/
def sunSide (lat lon e : Int) (ms : Nat) : Int := (sunElevation lat lon ms - e * 65536).sign

/-- The first of the next `n` milliseconds from `ms` on at which the curve has passed an elevation in the direction `dir`, 1 rising and −1
setting; `side` is the side on which it was last seen. A curve that only touches the elevation does not pass it (R91). -/
def sunPass (lat lon e dir : Int) : Nat → Nat → Int → Option Nat
  | 0, _, _ => none
  | n + 1, ms, side =>
    let x := sunSide lat lon e ms
    if x = dir ∧ side = -dir then some ms else sunPass lat lon e dir n (ms + 1) (if x = 0 then side else x)

/-- The milliseconds from `ms` to the next crossing of an elevation within 48 hours, as reported within 5 s (R91). The curve is followed
by the millisecond (log entry 11). -/
def sunCrossing (lat lon : Int) (ms : Nat) (e : Int) (rising : Bool) : Option Nat :=
  (sunPass lat lon e (if rising then 1 else -1) 172800000 (ms + 1) (sunSide lat lon e ms)).map (fun (t : Nat) =>
    ((t : Int) - ms + clampI (Config.sunSlip lat lon t) (-5000) 5000).toNat)

/-! ### CAL FIELDS and CAL DUE (R88, R89) -/

/-- The two FIELDS words of the instant `ms` (ms of UTC); `leap`: it lies in a positive leap second. Where the spec states no
value the free one `v` stands: every field before the first era, and a year that does not fit its field. -/
def calFields (f : SMap Byte) (zone : List Era) (hol : Bool) (ms : Int) (leap : Bool) (v : Nat) : Word × Word :=
  let t := Int.fdiv ms 1000
  let l := localOf zone t
  let z := Int.fdiv l 86400
  let (y, m, d) := civilOf z
  let sod := l - z * 86400
  let year : Int := if 2000 ≤ y ∧ y ≤ 2255 then y - 2000 else ((v % 256 : Nat) : Int)
  let w0 := d + m * 2 ^ 5 + year * 2 ^ 9 + weekdayOf z * 2 ^ 17 + (dayType f hol y m d : Int) * 2 ^ 20 +
    (if dstAt zone t then 2 ^ 24 else 0) + (if secondPass zone t then 2 ^ 25 else 0) + (if leap then 2 ^ 26 else 0)
  let w1 := Int.emod sod 60 + Int.fdiv (Int.emod sod 3600) 60 * 2 ^ 6 + Int.fdiv sod 3600 * 2 ^ 12 +
    Int.emod ms 1000 * 2 ^ 17
  if !zone.isEmpty ∧ utcYear t < 2000 then (BitVec.ofNat 32 (v % 2 ^ 27), BitVec.ofNat 32 (v / 2 ^ 27 % 2 ^ 27))
  else (wordOf w0, wordOf w1)

/-- A candidate instant of a schedule time: instant in seconds, second occurrence, gap substitute. -/
def candidates (zone : List Era) (day T : Int) (both : Bool) : List (Int × Bool × Bool) :=
  let w := day * 86400 + T
  match instantsOf zone w with
  | [] => match afterGap zone w with
    | some c => [(c, false, true)]
    | none => []
  | t :: rest => (t, false, false) :: (if both then rest.map (fun u => (u, true, false)) else [])

/-- CAL DUE (R89): the window (lo, hi] in ms of UTC, the schedule time in seconds of the local day. -/
def calDue (zone : List Era) (lo hi T : Int) (both : Bool) : Word :=
  let d0 := Int.fdiv (localOf zone (Int.fdiv lo 1000)) 86400
  let cs := ([d0 - 1, d0, d0 + 1, d0 + 2] : List Int).flatMap (fun d => candidates zone d T both)
  match cs.find? (fun c => decide (lo < c.1 * 1000 ∧ c.1 * 1000 ≤ hi)) with
  | some (_, second, gap) => wordOf (1 + (if second then 2 else 0) + (if gap then 4 else 0))
  | none => 0

end Sys2Proof.Machine
end

