-- ==== Sys2Proof/Machine/Arbiter.lean ====
section
/-! DEFINITION. The leaf-weighted deficit arbiter (02_frame_engine.md R61 to R64), shared by the frame port, the tally and
the radio downlink. -/

namespace Sys2Proof.Machine

/-- A backlogged requester: its path from the root, its weight and the charge of its oldest item. -/
structure Leaf where
  path : List Nat
  weight : Nat
  charge : Nat
  deriving DecidableEq, Repr

/-- The code of a node: the root is 0, child `c` of a node `p` is 65,536·p + c + 1. -/
def nodeCode (path : List Nat) : Nat := path.foldl (fun k c => 65536 * k + c + 1) 0

/-- The backlogged children of a node: the heads of the paths below it, ascending, no repeats. -/
def childIdx (ls : List Leaf) : List Nat := sortNat (ls.filterMap (fun l => l.path.head?))

/-- The leaves below child `c`, with their paths from there. -/
def below (ls : List Leaf) (c : Nat) : List Leaf :=
  ls.filterMap (fun l =>
    match l.path with
    | [] => none
    | i :: rest => if i = c then some { l with path := rest } else none)

/-- The weight of child `c` (R61, R64): the sum over the backlogged leaves below it, or 1 for a branch in compatibility
mode. A leaf keeps its own weight. -/
def childWeight (compat : Bool) (ls : List Leaf) (c : Nat) : Nat :=
  let b := below ls c
  if compat ∧ b.any (fun l => !l.path.isEmpty) then 1 else (b.map (fun l => l.weight)).sum

/-- Deficits of the children of node `p` that are not backlogged go to 0. -/
def dropDeficits (m : SMap Nat) (p : Nat) (cs : List Nat) : SMap Nat :=
  m.filter (fun e => decide (e.1 / 65536 ≠ p ∨ e.1 % 65536 = 0) || cs.contains (e.1 % 65536 - 1))

/-- The next child in cyclic index order at or above `start` with a deficit, else the first from index 0. -/
def pickChild (d : Nat → Nat) (start : Nat) (cs : List Nat) : Option Nat :=
  match cs.find? (fun c => decide (start ≤ c ∧ 1 ≤ d c)) with
  | some c => some c
  | none => cs.find? (fun c => decide (1 ≤ d c))

/-- One grant from node `p` down (R61): the counters after it and the leaf that gets the quantum. The number is the depth
still allowed. -/
def grantAt (compat : Bool) : Nat → Arb → Nat → List Leaf → Arb × Option Nat
  | 0, a, _, _ => (a, none)
  | n + 1, a, p, ls =>
    let cs := childIdx ls
    if cs.isEmpty then ({ a with credit := SMap.set 0 a.credit p (SMap.find 0 a.credit p + 1) }, some p)
    else
      let key (c : Nat) : Nat := 65536 * p + c + 1
      let d0 := dropDeficits a.deficit p cs
      let d1 := if cs.any (fun c => decide (1 ≤ SMap.find 0 d0 (key c))) then d0
        else cs.foldl (fun m c => SMap.set 0 m (key c) (SMap.find 0 m (key c) + childWeight compat ls c)) d0
      match pickChild (fun c => SMap.find 0 d1 (key c)) (SMap.find 0 a.last p) cs with
      | none => ({ a with deficit := d1 }, none)
      | some c =>
        let d2 := SMap.set 0 d1 (key c) (SMap.find 0 d1 (key c) - 1)
        grantAt compat n { a with deficit := d2, last := SMap.set 0 a.last p (c + 1) } (key c) (below ls c)

/-- A leaf that is not backlogged loses its credit (R62). -/
def dropCredits (a : Arb) (ls : List Leaf) : Arb :=
  let codes := ls.map (fun l => nodeCode l.path)
  { a with credit := a.credit.filter (fun e => codes.contains e.1) }

/-- One quantum at the root. -/
def grant (compat : Bool) (a : Arb) (ls : List Leaf) : Arb × Option Nat := grantAt compat 8 (dropCredits a ls) 0 ls

/-- Grant quanta until a leaf's credit covers its charge, which is deducted; the leaf that issues (R62). At most `n` quanta. -/
def grantUntil (compat : Bool) (ls : List Leaf) : Nat → Arb → Arb × Option Leaf
  | 0, a => (a, none)
  | n + 1, a =>
    match grant compat a ls with
    | (a1, none) => (a1, none)
    | (a1, some code) =>
      match ls.find? (fun l => decide (nodeCode l.path = code)) with
      | none => (a1, none)
      | some l =>
        let c := SMap.find 0 a1.credit code
        if l.charge ≤ c then ({ a1 with credit := SMap.set 0 a1.credit code (c - l.charge) }, some l)
        else grantUntil compat ls n a1

/-- Serve the oldest item of some backlogged leaf. -/
def serveOne (compat : Bool) (a : Arb) (ls : List Leaf) : Arb × Option Leaf :=
  grantUntil compat ls ((ls.map (fun l => l.charge)).sum + 1) a

end Sys2Proof.Machine
end

