-- ==== Sys2Proof/Machine/Operands.lean ====
section
/-! DEFINITION. Operand forms of Marric (03_marric_instruction_set.md R68, R72, R78): reading and writing scalar, vector and
mask registers, the broadcast operand, enabled lanes, effective addresses. -/

namespace Sys2Proof.Machine

namespace Bead

/-- S[i]; S0 reads 0 (R68). -/
def rs (b : Bead) (i : Nat) : Word := if i = 0 then 0 else SMap.find 0 b.s i

/-- Write S[i]; a write to S0 is discarded. -/
def ws (b : Bead) (i : Nat) (w : Word) : Bead := if i = 0 then b else { b with s := SMap.set 0 b.s i w }

/-- Lane j of V[v]. -/
def rv (b : Bead) (v j : Nat) : Word := SMap.find 0 b.v (16 * v + j)

/-- Write lane j of V[v]. -/
def wv (b : Bead) (v j : Nat) (w : Word) : Bead := { b with v := SMap.set 0 b.v (16 * v + j) w }

/-- M[k]; M0 reads 0xFFFF. -/
def rm (b : Bead) (k : Nat) : BitVec 16 := if k = 0 then 0xFFFF else SMap.find 0 b.m k

/-- Write M[k]; a write to M0 is discarded. -/
def wm (b : Bead) (k : Nat) (w : BitVec 16) : Bead := if k = 0 then b else { b with m := SMap.set 0 b.m k w }

/-- Lane j of the B operand of a vector instruction (R72). -/
def rb (b : Bead) (o : VB) (j : Nat) : Word :=
  match o with
  | .vec v => b.rv v j
  | .bcast i => b.rs i

/-- Lane j is enabled under the governing mask k. -/
def lane (b : Bead) (k j : Nat) : Bool := (b.rm k).getLsbD j

/-- The enabled lanes, ascending. -/
def lanes (b : Bead) (k : Nat) : List Nat := (List.range 16).filter (b.lane k)

/-- Write lanes 0 to n − 1 of V[v] by `f`. -/
def putLanes (b : Bead) (v : Nat) (f : Nat → Word) : Nat → Bead
  | 0 => b
  | n + 1 => (putLanes b v f n).wv v n (f n)

/-- Write the enabled lanes of V[v] by `f`; the others keep their values (R77). -/
def putEnabled (b : Bead) (v k : Nat) (f : Nat → Word) : Bead :=
  b.putLanes v (fun j => if b.lane k j then f j else b.rv v j) 16

/-- The effective address S[a] + sign-extended IMM (R78). -/
def ea (b : Bead) (a : Nat) (imm : BitVec 14) : Nat := (b.rs a + imm.signExtend 32).toNat

end Bead

/-- The shift amount of SHL, SHR and SAR: SH if B = 0, else S[b][5:0] (R76). -/
def shAmount (b : Bead) (rb sh : Nat) : Nat := if rb = 0 then sh else (b.rs rb).toNat % 64

/-- Bytes of a size code (R78): byte, halfword, word, 64 bytes. -/
def sizeBytes (m : Nat) : Nat := if m = 0 then 1 else if m = 1 then 2 else if m = 2 then 4 else 64

end Sys2Proof.Machine
end

