-- ==== Sys2Proof/Machine/Flags.lean ====
section
/-! DEFINITION. Flag computations and exact arithmetic of Marric (03_marric_instruction_set.md R69 to R71, R76). -/

namespace Sys2Proof.Machine

namespace Bead

/-- Set bit i of FL. -/
def setFl (b : Bead) (i : Nat) (v : Bool) : Bead :=
  { b with fl := if v then b.fl ||| (1#16 <<< i) else b.fl &&& ~~~(1#16 <<< i) }

def z (b : Bead) : Bool := b.fl.getLsbD 0
def n (b : Bead) : Bool := b.fl.getLsbD 1
def c (b : Bead) : Bool := b.fl.getLsbD 2
def vf (b : Bead) : Bool := b.fl.getLsbD 3
def sat (b : Bead) : Bool := b.fl.getLsbD 4
def d (b : Bead) : Bool := b.fl.getLsbD 5

/-- ST, FL[15:8]. -/
def st (b : Bead) : Nat := (b.fl >>> 8).toNat

/-- Write ST. -/
def setSt (b : Bead) (x : Status) : Bead := { b with fl := (b.fl &&& 0x00FF) ||| (BitVec.ofNat 16 x.code <<< 8) }

/-- Z and N of a result. -/
def zn (b : Bead) (w : Word) : Bead := (b.setFl 0 (decide (w = 0))).setFl 1 w.msb

/-- Z N C V of a sum. -/
def flagsAdd (b : Bead) (x y : Word) : Bead :=
  let r := x + y
  ((b.zn r).setFl 2 (decide (2 ^ 32 ≤ x.toNat + y.toNat))).setFl 3 (decide (x.msb = y.msb ∧ r.msb ≠ x.msb))

/-- Z N C V of a difference: C is the borrow (R69). -/
def flagsSub (b : Bead) (x y : Word) : Bead :=
  let r := x - y
  ((b.zn r).setFl 2 (decide (x.toNat < y.toNat))).setFl 3 (decide (x.msb ≠ y.msb ∧ r.msb ≠ x.msb))

/-- A condition code holds (R71). -/
def cond (b : Bead) (code : Nat) : Bool :=
  match code with
  | 0x0 => b.z
  | 0x1 => !b.z
  | 0x2 => b.n != b.vf
  | 0x3 => b.n == b.vf
  | 0x4 => b.c
  | 0x5 => !b.c
  | 0x6 => b.z || (b.n != b.vf)
  | 0x7 => !b.z && (b.n == b.vf)
  | 0x8 => b.n
  | 0x9 => !b.n
  | 0xA => b.sat
  | 0xB => !b.sat
  | 0xC => b.d
  | 0xD => !b.d
  | 0xE => decide (b.st = 0)
  | _ => decide (b.st ≠ 0)

end Bead

/-- A lane condition of VCMP, codes 0 to 7: signed, but LTU and GEU (R71). -/
def laneCond (code : Nat) (x y : Word) : Bool :=
  match code with
  | 0x0 => decide (x = y)
  | 0x1 => decide (x ≠ y)
  | 0x2 => decide (x.toInt < y.toInt)
  | 0x3 => decide (y.toInt ≤ x.toInt)
  | 0x4 => decide (x.toNat < y.toNat)
  | 0x5 => decide (y.toNat ≤ x.toNat)
  | 0x6 => decide (x.toInt ≤ y.toInt)
  | _ => decide (y.toInt < x.toInt)

/-- sat (R76): clamp to −2^31 to 2^31 − 1; the flag tells whether the clamp changed the value. -/
def satW (x : Int) : Word × Bool :=
  let y := clampI x (-(2 ^ 31)) (2 ^ 31 - 1)
  (wordOf y, decide (y ≠ x))

/-- MULQ: the saturated shifted product. -/
def mulq (x y : Word) (sh : Nat) : Word × Bool := satW (sarI (x.toInt * y.toInt) sh)

/-- MACQ: the accumulator plus the shifted product, saturated. -/
def macq (acc x y : Word) (sh : Nat) : Word × Bool := satW (acc.toInt + sarI (x.toInt * y.toInt) sh)

/-- DIVQ: the shifted dividend over the divisor, truncated towards zero and saturated; the stated result for 0. -/
def divq (x y : Word) (sh : Nat) : Word × Bool :=
  if y = 0 then ((if x.msb then 0x80000000 else 0x7FFFFFFF), true)
  else satW (Int.tdiv (x.toInt * (2 ^ sh : Nat)) y.toInt)

/-- Signed minimum and maximum. -/
def smin (x y : Word) : Word := if x.toInt ≤ y.toInt then x else y
def smax (x y : Word) : Word := if x.toInt ≤ y.toInt then y else x

/-- CLAMP: min(max(d, a), b). -/
def clampW (d a b : Word) : Word := smin (smax d a) b

/-- SHL, SHR and SAR by 0 to 63 (R76). -/
def shlW (x : Word) (n : Nat) : Word := x <<< n
def shrW (x : Word) (n : Nat) : Word := x >>> n
def sarW (x : Word) (n : Nat) : Word := x.sshiftRight n

end Sys2Proof.Machine
end

