-- ==== Sys2Proof/Machine/RtcOps.lean ====
section
/-! DEFINITION. The real-time clock, the shared part (15_clock_and_calendar.md): the running fields, the prescaler, and the event
inputs. -/

namespace Sys2Proof.Machine

/-- RTC fields: year from 2000. -/
structure RtcTime where
  year : Nat
  month : Nat
  day : Nat
  hour : Nat
  min : Nat
  sec : Nat
  deriving DecidableEq, Repr

namespace RtcTime

/-- Seconds of UTC since 1970-01-01. -/
def secs (t : RtcTime) : Int :=
  daysFrom (2000 + t.year) t.month t.day * 86400 + ((t.hour * 3600 + t.min * 60 + t.sec : Nat) : Int)

def weekday (t : RtcTime) : Nat := (weekdayOf (daysFrom (2000 + t.year) t.month t.day)).toNat

/-- The date word (R88 layout) with the weekday, and the time word. -/
def dateWord (t : RtcTime) : Nat := t.day + t.month * 2 ^ 5 + t.year * 2 ^ 9 + t.weekday * 2 ^ 17

def timeWord (t : RtcTime) : Nat := t.sec + t.min * 2 ^ 6 + t.hour * 2 ^ 12

/-- The fields of an instant in range; 2000-01-01 before it and from 2200 on. -/
def ofSecs (x : Int) : RtcTime :=
  let z := Int.fdiv x 86400
  let (y, m, d) := civilOf z
  let sod := (x - z * 86400).toNat
  if 2000 ≤ y ∧ y < 2200 then ⟨(y - 2000).toNat, m.toNat, d.toNat, sod / 3600, sod / 60 % 60, sod % 60⟩
  else ⟨0, 1, 1, sod / 3600, sod / 60 % 60, sod % 60⟩

/-- R366. -/
def valid (t : RtcTime) : Bool :=
  decide (t.sec < 60 ∧ t.min < 60 ∧ t.hour < 24 ∧ 1 ≤ t.month ∧ t.month ≤ 12 ∧ 1 ≤ t.day ∧ t.year ≤ 199) &&
    decide ((t.day : Int) ≤ monthDays (2000 + t.year) t.month)

end RtcTime

namespace State

/-- The running fields. -/
def rtcTime (s : State) : RtcTime :=
  ⟨s.fld R.RTC_DATE_YEAR, s.fld R.RTC_DATE_MONTH, s.fld R.RTC_DATE_DAY, s.fld R.RTC_TIME_HOUR, s.fld R.RTC_TIME_MIN,
    s.fld R.RTC_TIME_SEC⟩

def setRtcTime (s : State) (t : RtcTime) : State :=
  (s.wr R.RTC_DATE_DAY.addr (BitVec.ofNat 32 t.dateWord)).wr R.RTC_TIME_SEC.addr (BitVec.ofNat 32 t.timeWord)

/-- Prescaler counts of the running second, before steering and CAL, at module time `ns`. -/
def rtcCount (s : State) (ns : Nat) : Nat := s.rtc.base + (ns - s.rtc.tickNs) * 32768 / 1000000000

/-- Counts that steering has added in the running second: 32 a second while it runs, negative when it removes (R369). -/
def rtcSteered (s : State) : Int :=
  if !s.bit R.RTC_STATUS_STEERING then s.rtc.steered
  else
    let n := ((min s.nowNs s.rtc.steerEnd) - (max s.rtc.tickNs s.rtc.steerFrom)) * 32 / 1000000000
    if 0 < s.fldI R.RTC_STEER_DIFF then s.rtc.steered - (n : Int) else s.rtc.steered + (n : Int)

/-- Counts that steering and CAL have added by now in the running second: |CAL| is spread evenly over 32 s (R368). -/
def rtcAdded (s : State) : Int :=
  let x := s.rtc.window * 32768
  let c := s.rtcCount s.nowNs
  s.rtcSteered + (Int.tdiv (s.rtc.calNow * ((x + c : Nat) : Int)) (2 ^ 20) - Int.tdiv (s.rtc.calNow * (x : Int)) (2 ^ 20))

/-- The prescaler count now. -/
def rtcSub (s : State) : Nat := (clampI ((s.rtcCount s.nowNs : Int) + s.rtcAdded) 0 32767).toNat

/-- The part of the RTC's second that has passed, ns. -/
def rtcPartNs (s : State) : Nat :=
  (clampI (((s.nowNs - s.rtc.tickNs : Nat) : Int) + Int.fdiv (((s.rtc.base : Int) + s.rtcAdded) * 1000000000) 32768) 0 999999999).toNat

/-! ### Event inputs (R375) -/

def evin (s : State) (i : Nat) : List EvEntry := SMap.find [] s.rtc.evin i

def setEvin (s : State) (i : Nat) (q : List EvEntry) : State :=
  ({ s with rtc := { s.rtc with evin := SMap.set [] s.rtc.evin i q } }).setFld R.RTC_EVIN_STAT_DEPTH q.length i

/-- An edge of input i after its filter, with the prescaler at `count`. -/
def evinEdge (s : State) (i count : Nat) (rising : Bool) : State :=
  let s1 := s.setBit R.RTC_EVIN_STAT_LEVEL rising i
  if !(s.fld R.RTC_EVIN_CFG_EDGE i).testBit (if rising then 0 else 1) then s1
  else
    let q := s1.evin i
    if 8 ≤ q.length then s1.addSat R.RTC_EVIN_STAT_OVERFLOW 1 i
    else
      let t := s1.rtcTime
      s1.setEvin i (q ++ [⟨t.dateWord, t.timeWord + (if rising then 2 ^ 17 else 0) +
        (if s1.bit R.RTC_STATUS_OSF then 2 ^ 18 else 0), count⟩])

end State
end Sys2Proof.Machine
end

