-- ==== Sys2Proof/Machine/EntryOps.lean ====
section
/-! DEFINITION. What may make a source active while a target enters another (04_event_delivery.md R116): a fault that goes into service
(21_faults.md R449), a node entered in the enrol list (07_segment_lighting.md R180), and, with RtcOps, an edge of an event input. -/

namespace Sys2Proof.Machine.State

/-! ### A fault goes into service (21 R449, R450) -/

/-- Show the fault in service and the queue (21 R459). -/
def fltSync (s : State) : State :=
  let ins := match s.flt.cur with
    | some c => c.cls
    | none => 0
  ((s.setFld R.ROD_FLT_STAT_INSVC ins).setFld R.ROD_FLT_STAT_QUEUED s.flt.queue.length).setFld R.ROD_FLT_QUEUE_CLASSES
    ((s.flt.queue.zipIdx.map (fun p => p.1.cls * 16 ^ p.2)).sum)

/-- A fault class is raised: FAULT and UNACK set. -/
def fltNote (s : State) : State := (s.setBit R.ROD_FLT_EVT_FAULT true).setBit R.ROD_FLT_STAT_UNACK true

/-- A fault goes into service, none being there. -/
def fltServe (s : State) (r : FaultRec) : State :=
  ({ s with flt := { s.flt with cur := some r, sinceNs := s.nowNs } } : State).fltSync

/-- The first fault since SRC[1] was last inactive. -/
def fltFirst (s : State) (cls : Nat) : State :=
  if s.srcCond 1 then s else (s.addSat R.ROD_FLT_CNT_RAISED 1 (cls - 1)).fltNote.fltServe ⟨cls, 1, []⟩

/-! ### The enrol list (07 R180) -/

/-- Show the enrol list. -/
def syncEnrol (s : State) : State := noteDrop 72 s (s.setFld R.SEG_ENROL_CNT_COUNT s.seg.enrol.length)

/-- Enter or update a node in the enrol list; false when it is full. -/
def enrolNode (s : State) (q : JoinReq) : State × Bool :=
  let e := s.seg.enrol
  if e.any (fun x => decide (x.eui = q.eui)) then
    (({ s with seg := { s.seg with enrol := e.map (fun x => if x.eui = q.eui then q else x) } }), true)
  else if 256 ≤ e.length then (s, false)
  else (({ s with seg := { s.seg with enrol := e ++ [q] } }).syncEnrol, true)

end Sys2Proof.Machine.State
end

