-- ==== Sys2Proof/Machine/Icu.lean ====
section
/-! DEFINITION. Event delivery (04_event_delivery.md R109 to R123): which source a target takes, the entry with its claim
point, the exit with its chain, and the rod's choice of the next bead to issue (02_frame_engine.md R30). -/

namespace Sys2Proof.Machine.State

/-! ### The bead issuing on a rod -/

/-- STATE codes of ROD_BEAD_STATE (02 R34, R66). -/
def stIdle : Nat := 0
def stReady : Nat := 1
def stRunning : Nat := 2
def stWaitEvent : Nat := 3
def stWaitFrame : Nat := 4
def stHalted : Nat := 5
def stFaulted : Nat := 6

def beadState (s : State) (n : Nat) : Nat := s.fld R.ROD_BEAD_STATE_STATE n

def setBeadState (s : State) (n st : Nat) : State := s.setFld R.ROD_BEAD_STATE_STATE st n

def beadValid (s : State) (n : Nat) : Bool := s.bit R.ROD_BEAD_STATE_VALID n

/-- CLASS: 0 FRAME, 1 EVENT, 2 ONESHOT (02 R31). -/
def beadClass (s : State) (n : Nat) : Nat := s.fld R.ROD_BEAD_STATE_CLASS n

/-- The slot issuing on rod r (ROD_CUR). -/
def curSlot (s : State) (r : Nat) : Option Nat :=
  if s.bit R.ROD_CUR_IDLE r then none else some (s.fld R.ROD_CUR_SLOT r)

/-- The running priority of target t (R109). -/
def rp (s : State) (t : Nat) : Nat := s.fld R.ICU_RUNPRI_RP t

def prio (s : State) (n : Nat) : Nat := s.fld R.ICU_SRC_CFG_PRIO n

/-- PENDING (R110). -/
def srcPending (s : State) (n : Nat) : Bool :=
  s.srcActive n && decide (s.prio n ≠ 0) && !s.bit R.ICU_SRC_STAT_INSVC n && !s.bit R.ICU_SRC_STAT_STORM n

/-- The interval timer of target t runs (R114). Its end stands since the dispatch: a write of another ICU_MOD that is not 0 does not
move it (DESIGN CHOICE, log entry 125). -/
def timerRuns (s : State) (t : Nat) : Bool := s.bit R.ICU_MOD_US t && decide (s.nowNs < (s.target t).timerNs)

/-- Target t becomes idle: of its sources, those pending now did not find it idle when they became pending (R114). Without moderation
the marks have no use. -/
def markBusy (s : State) (t : Nat) : State :=
  if s.bit R.ICU_MOD_US t then
    let mark (m : BitVec 256) (n : Nat) : BitVec 256 :=
      if s.fld R.ICU_SRC_CFG_TARGET n = t then (if s.srcPending n then m ||| (1#256 <<< n) else m &&& ~~~(1#256 <<< n)) else m
    { s with icu := { s.icu with busyAt := (List.range 256).foldl mark s.icu.busyAt } }
  else s

/-- ICU_RUNPRI.IDLE: no bead is issuing and RP is 0 (R112). -/
def syncIdle (s : State) (t : Nat) : State :=
  let idle := decide (s.rp t = 0) && (decide (16 ≤ t) || s.bit R.ROD_CUR_IDLE t)
  (if idle && !s.bit R.ICU_RUNPRI_IDLE t then s.markBusy t else s).setBit R.ICU_RUNPRI_IDLE idle t

def setRp (s : State) (t p : Nat) : State := (s.setFld R.ICU_RUNPRI_RP p t).syncIdle t

/-- Make a slot the one issuing on rod r, or none. -/
def setCur (s : State) (r : Nat) (c : Option Nat) : State :=
  match c with
  | some slot => ((s.setBit R.ROD_CUR_IDLE false r).setFld R.ROD_CUR_SLOT slot r).syncIdle r
  | none => (s.setBit R.ROD_CUR_IDLE true r).syncIdle r

/-- The rods issue: frames run, the rods are not stopped by GARNET, and the rod is clocked (01 R20, 02 R56, 21 R453). A rod that its
watchdog has reset selects again from the second frame edge only (21 R457, `selectWithin`), but takes EVENT entries meanwhile, since
R477 lets a pending source chain at the reset itself (DEDUCED, log entry 160). -/
def rodRuns (s : State) (r : Nat) : Bool :=
  s.framesRun && decide (s.flt.step = 0 ∨ s.flt.step = 6) && s.rodClocked r && s.ready 8

/-- The bead now issuing on rod r. -/
def curBead (s : State) (r : Nat) : Option Nat :=
  if s.rodRuns r ∧ !(s.rod r).stalled then (s.curSlot r).map (fun c => 64 * r + c) else none

/-! ### Start of a pass or activation (03 R69) -/

/-- The source of the frame edge's time (03 R86 kind 6): 0 locked, 1 holdover, 2 RTC, from NTU_STAT.STATE. -/
def timeSource (s : State) : Nat :=
  match s.fld R.NTU_STAT_STATE with
  | 0 => 2
  | 2 => 0
  | _ => 1

/-- Begin a pass or activation of bead n: FL, cursors and stacks are cleared, PC is the entry word, the checkpoint is
taken. -/
def begin (s : State) (n arrival : Nat) : State :=
  let b := s.bead n
  let b1 := { b with
    fl := 0, c0 := ⟨[], 0⟩, c1 := ⟨[], 0⟩, pc := b.entry, calls := [], loops := [], wlog := [], olog := [], entries := 0
    openB := none, cycles := 0, ckpt := ⟨b.s, b.v, b.m, b.posts⟩, touched := false, passFrame := s.fr.number
    passEdgeNs := s.fr.edgeNs, passSrc := s.timeSource, passMs := s.utcMsOf (s.fr.number * frameNs), passKnown := !s.timeUnknown
    passFlow := s.flow.snapReady, arrivalNs := arrival, parked := none, spanned := false }
  ((s.setBead n b1).setBit R.ROD_BEAD_STATE_SPAN false n).setBit R.ROD_BEAD_STATE_REPLAYED false n

/-! ### The next bead to issue (02 R30) -/

/-- A slot lies stacked beneath a handler. -/
def stacked (s : State) (r slot : Nat) : Bool :=
  (s.target r).stack.any (fun c => decide (c.slot = some slot) || decide (c.handler = some slot))

/-- PARKED of ROD_CUR: the beads whose access has not completed. -/
def syncParked (s : State) (r : Nat) : State :=
  s.setFld R.ROD_CUR_PARKED ((s.rod r).waiting.filter (fun w => !w.2)).length r

/-- Take a slot whose access has completed out of the waiting list and let it issue. -/
def resume (s : State) (r slot : Nat) : State :=
  let x := s.rod r
  let n := 64 * r + slot
  let s1 := s.setRod r { x with waiting := x.waiting.filter (fun w => decide (w.1 ≠ slot)) }
  ((s1.setBead n { s1.bead n with parked := none }).setCur r (some slot)).syncParked r

/-- Choose the next bead: the handler whose access has completed, else the completed bead that parked first, else in EXEC
the next READY bead in selection order. -/
def selectNext (s : State) (r : Nat) : State :=
  let x := s.rod r
  let s0 := s.setCur r none
  if !s.rodRuns r then s0
  else
    match x.waiting.find? (fun w => w.2 && decide (some w.1 = x.handler)) with
    | some w => s0.resume r w.1
    | none =>
      match x.waiting.find? (fun w => w.2 && decide (some w.1 ≠ x.handler) && !s.stacked r w.1) with
      | some w => s0.resume r w.1
      | none =>
        if s.fr.phase = .exec then
          match x.select with
          | [] => s0
          | slot :: rest =>
            let n := 64 * r + slot
            ((s0.setRod r { x with select := rest }).setBeadState n stRunning).setCur r (some slot)
        else s0

/-- Let an idle rod issue. -/
def kick (s : State) (r : Nat) : State := if s.bit R.ROD_CUR_IDLE r ∧ !(s.rod r).stalled then s.selectNext r else s

/-! ### Pending sources (R110 to R112, R114) -/

/-- The bound bead on rod r can take the source (R111, 02 R55): in WAIT_EVENT, its budget fits what remains, and it has
activations left in this frame; and the rod is not stalled in the middle of an instruction (02 R29; DEDUCED, log entry 126). A source
that is active at the EOI of its own bead does not chain on a rod, since that bead is still RUNNING (R111 before R121: DEDUCED,
log entry 127). -/
def eligibleRod (s : State) (n r : Nat) : Bool :=
  let b := 64 * r + s.fld R.ICU_SRC_CFG_SLOT n
  s.rodRuns r && !(s.rod r).stalled && s.bit R.ICU_SRC_CFG_BOUND n && s.beadValid b && decide (s.beadState b = stWaitEvent) &&
    decide (s.fld R.ROD_BEAD_BUDGET_BUDGET b ≤ (s.rod r).remain) && decide ((s.bead b).acts < (s.bead b).act)

/-- The coalescing timer of target t holds source n back (R114): all but a target that was idle when the source became
pending, or for the pool a rod that is idle now. -/
def moderated (s : State) (n t : Nat) : Bool :=
  decide (8 ≤ n) && s.timerRuns t &&
    !(s.bit R.ICU_RUNPRI_IDLE t && (decide (s.fld R.ICU_SRC_CFG_TARGET n = 31) || !s.icu.busyAt.getLsbD n))

/-- Source n may be dispatched to target t, whose RP counts as `r0`. -/
def mayTake (s : State) (n t r0 : Nat) : Bool :=
  s.srcPending n && decide (s.fld R.ICU_THRESH_THRESH t < s.prio n) && decide (r0 < s.prio n) &&
    !s.moderated n t && (decide (16 ≤ t) || s.eligibleRod n t)

/-- The rods of the pool (R112). -/
def poolRods (s : State) : List Nat :=
  (List.range s.part.rods).filter (fun r => (s.fld R.ICU_POOL_RODS).testBit r && s.rodClocked r)

/-- The lowest-RP rod of a list, ties to the lower index. -/
def lowestRp (s : State) : List Nat → Option Nat
  | [] => none
  | r :: rs =>
    match s.lowestRp rs with
    | none => some r
    | some q => if s.rp q < s.rp r then some q else some r

/-- The rod that a pool source goes to (R112). -/
def poolRod (s : State) (n : Nat) : Option Nat :=
  let el := s.poolRods.filter (fun r => s.mayTake n r (s.rp r))
  match el.find? (fun r => s.bit R.ICU_RUNPRI_IDLE r) with
  | some r => some r
  | none => s.lowestRp el

/-- The source is routed to target t. In an exit's search the rod still counts with the RP that the exit has not restored yet, so that
a source of the pool between the two values does not chain (DESIGN CHOICE, log entry 128). -/
def routedTo (s : State) (n t : Nat) : Bool :=
  let g := s.fld R.ICU_SRC_CFG_TARGET n
  if g = 31 then decide (s.poolRod n = some t) else decide (g = t)

/-- The highest-priority source of a list, ties to the lower number. -/
def highest (s : State) : List Nat → Option Nat
  | [] => none
  | n :: ns =>
    match s.highest ns with
    | none => some n
    | some q => if s.prio n < s.prio q then some q else some n

/-- The source that target t takes next, with its RP counting as `r0` (R110). -/
def nextSource (s : State) (t r0 : Nat) : Option Nat :=
  s.highest ((List.range 256).filter (fun n => s.mayTake n t r0 && s.routedTo n t))

/-! ### Claim and entry (R115) -/

/-- The word of ICU_CLAIM[t]. -/
def claim (s : State) (t : Nat) : Word := s.rd (R.ICU_CLAIM_SRC.at t 0)

def setClaim (s : State) (t : Nat) (w : Word) : State := s.wr (R.ICU_CLAIM_SRC.at t 0) w

/-- A claim word. -/
def claimWord (src pr prev : Nat) (priv : Bool) : Word :=
  BitVec.ofNat 32 (src % 256 + (pr % 16) * 2 ^ 8 + (prev % 16) * 2 ^ 12 + (if priv then 2 ^ 16 else 0) + 2 ^ 17)

def claimSrc (w : Word) : Nat := getBits w 0 8
def claimPrev (w : Word) : Nat := getBits w 12 4
def claimPriv (w : Word) : Bool := w.getLsbD 16
def claimValid (w : Word) : Bool := w.getLsbD 17

/-- The storm guard at a claim (R123): at the 64th in the frame STORM sets and an OPS record is written. TAKES stays at 64, so that a
claim after software has cleared STORM in the same frame sets it again, with another record (DESIGN CHOICE, log entry 129). -/
def storm (s : State) (n : Nat) : State :=
  if s.fld R.ICU_SRC_STAT_TAKES n = 64 ∧ 2 ≤ n then
    (s.setBit R.ICU_SRC_STAT_STORM true n).report 0 0x02 .storm [n] [s.fr.number]
  else s

/-- A dispatch to target t starts its interval timer (R114). -/
def startTimer (s : State) (t : Nat) : State :=
  s.setTarget t { s.target t with timerNs := s.nowNs + s.fld R.ICU_MOD_US t * 1000 }

/-- The claim point: the latched level clears, INSVC sets, the counts advance, RP becomes the source's priority. -/
def claimSource (s : State) (n t : Nat) : State :=
  let prev := s.rp t
  let p := s.prio n
  let s0 := s.dropSrc n
  let s1 : State := { s0 with icu := { s0.icu with late := s0.icu.late &&& ~~~(1#256 <<< n) } }
  let s2 := (s1.setBit R.ICU_SRC_STAT_INSVC true n).setFld R.ICU_SRC_STAT_LAST_T t n
  let s3 := (s2.setFld R.ICU_SRC_STAT_TAKES (min 64 (s2.fld R.ICU_SRC_STAT_TAKES n + 1)) n).addSat R.ICU_TAKEN_COUNT 1 n
  let s4 := s3.storm n
  let x := s4.target t
  let s5 := if n < 8 then
      (s4.setTarget t { x with priv := prev :: x.priv, svc := some 0 }).setFld R.ICU_RUNPRI_DEPTH (x.priv.length + 1) t
    else s4.setTarget t { x with svc := some prev }
  (s5.setClaim t (claimWord n p (if n < 8 then 0 else prev) (decide (n < 8)))).setRp t p

/-- The handler's side of an entry on rod r: the bound bead begins with the 8 entry cycles charged (R119), and its whole
budget leaves the frame's remainder (02 R55). -/
def startHandler (s : State) (n r arrival : Nat) : State :=
  let slot := s.fld R.ICU_SRC_CFG_SLOT n
  let b := 64 * r + slot
  let x := s.rod r
  let s1 := s.setRod r { x with handler := some slot, used := x.used + 8, remain := x.remain - s.fld R.ROD_BEAD_BUDGET_BUDGET b }
  let s2 := s1.begin b arrival
  let s3 := s2.setBead b { s2.bead b with cycles := 8, acts := (s2.bead b).acts + 1 }
  (s3.setBeadState b stRunning).setCur r (some slot)

/-- When source n was asserted, or now for one that is active while its condition lasts. -/
def arrivalOf (s : State) (n : Nat) : Nat := if s.icu.level.getLsbD n then SMap.find 0 s.icu.raised n else s.nowNs

/-- The whole entry of source n on target t; `push` is the context to stack, none when the interrupted handler does not
resume (R477). -/
def enter (s : State) (n t : Nat) (push : Option IcuCtx) : State :=
  let arrival := s.arrivalOf n
  let x := s.target t
  let s1 := match push with
    | some c => s.setTarget t { x with stack := c :: x.stack }
    | none => s
  let s2 := s1.claimSource n t
  if t < 16 then s2.startHandler n t arrival else s2

/-- The context of target t as it stands. -/
def context (s : State) (t : Nat) : IcuCtx :=
  ⟨if t < 16 then s.curSlot t else none, if t < 16 then (s.rod t).handler else none, s.claim t, (s.target t).svc⟩

/-- The claim in force on target t has not ended its service. -/
def inService (s : State) (t : Nat) : Bool := (s.target t).svc.isSome

/-! ### Exit (R119 to R122) -/

/-- The service of source n ends: INSVC clears, and a drop after the claim that has not been counted yet is (R122). SRC[1] drops with
the fault bead's EOI itself, not before it. -/
def endClaim (s : State) (n : Nat) : State :=
  let s1 := s.setBit R.ICU_SRC_STAT_INSVC false n
  if condSource n ∧ n ≠ 1 ∧ !s.srcActive n ∧ !s.icu.late.getLsbD n then s1.addSat R.ICU_LATE_DROP_COUNT 1 n else s1

/-- End of service on target t: INSVC clears, the privileged stack is popped; the claim word stands until its activation ends (R118).
With it, the value of RP to restore. -/
def endService (s : State) (t : Nat) : State × Nat :=
  let w := s.claim t
  let s1 := s.endClaim (claimSrc w)
  let x := s1.target t
  if claimPriv w then
    ((s1.setTarget t { x with svc := none, priv := x.priv.tail }).setFld R.ICU_RUNPRI_DEPTH x.priv.tail.length t, x.priv.headD 0)
  else (s1.setTarget t { x with svc := none }, x.svc.getD 0)

/-- The condition of source n ends, as an entry event: its event register is cleared, or what else it stands for is over (log entry
18). -/
def endCond (s : State) (n : Nat) : State :=
  match n with
  | 1 => { s with flt := { s.flt with cur := none, queue := [] } }
  | 4 => s.setFld R.FP_INPUT_STATE (s.fld R.FP_INPUT_STATE &&& 0xFFFFFE7F)
  | 7 => ({ s with flt := { s.flt with hot := false } } : State).setBit R.DRV_STAT_THERM_LATCH false
  | 13 => (List.range 4).foldl (fun t i => t.setFld R.RTC_EVIN_STAT_DEPTH 0 i) { s with rtc := { s.rtc with evin := [] } }
  | 42 => s.setBit R.PWR_TALLY_STAT_OVER false
  | 72 => ({ s with seg := { s.seg with enrol := [] } } : State).setFld R.SEG_ENROL_CNT_COUNT 0
  | _ => match condReg n with
    | some a => s.wr a 0
    | none => s

/-- The condition of source n begins, as an entry event: the first bit of its event register sets, or what else it stands for is there
(log entry 18). A fault, an edge of an event input and a sighted node are entry events of their own. -/
def startCond (s : State) (n : Nat) : State :=
  match n with
  | 4 => s.setFld R.FP_INPUT_STATE (s.fld R.FP_INPUT_STATE ||| 0x80)
  | 7 => { s with flt := { s.flt with hot := true } }
  | 42 => s.setBit R.PWR_TALLY_STAT_OVER true
  | _ => match condReg n with
    | some a => s.wr a (s.rd a ||| 1)
    | none => s

/-- What an entry event does while source n is being entered on target t (R116). -/
def entryEvent (s : State) (n t : Nat) : EntryEvent → State
  | .quiet => s
  | .raised m => if 256 ≤ m then s else if condSource m then s.startCond m else s.assertSrc m
  | .faulted c => s.fltFirst (c.val + 1)
  | .edge i rising => if s.part.evin then s.evinEdge i s.rtcSub rising else s
  | .sighted q => (s.enrolNode q).1
  | .dropped => if condSource n then noteDrop n s (s.endCond n) else s
  | .stopped =>
    let b := 64 * t + s.fld R.ICU_SRC_CFG_SLOT n
    if t < 16 ∧ s.beadState b = stWaitEvent then s.setBeadState b stIdle else s

/-- An arbitration for target t with RP counting as `r0`, and what is claimed at cycle 3: the state and the source to claim. Of what
becomes pending in the meantime only a source of higher priority displaces the one being entered (R116). The dispatch
starts the interval timer (R114), also where the entry ends without a claim and is counted in EARLY (R116). -/
def arbitrate (s : State) (t r0 : Nat) (ev : EntryEvent) : State × Option Nat :=
  match s.nextSource t r0 with
  | none => (s, none)
  | some n =>
    let s1 := s.entryEvent n t ev
    match s1.nextSource t r0 with
    | some m => (s1.startTimer t, some (if s1.prio m ≤ s1.prio n ∧ s1.mayTake n t r0 ∧ s1.routedTo n t then n else m))
    | none => ((s1.startTimer t).addSat R.ICU_STAT_EARLY 1, none)

/-- The exit after an EOI on target t (R119): a source above the value to restore chains (R120), else RP is restored. The
handler that ended resumes after its EOI unless `gone` (R477). -/
def exit (s : State) (t : Nat) (gone : Bool) (ev : EntryEvent := .quiet) : State × Bool :=
  let (s1, v) := s.endService t
  match s1.arbitrate t v ev with
  | (s2, some n) => (((s2.setFld R.ICU_RUNPRI_RP v t).enter n t (if gone then none else some (s2.context t))), true)
  | (s2, none) => (s2.setRp t v, false)

/-- The stacked context of target t resumes when its handler ends (R119). -/
def popContext (s : State) (t : Nat) : State :=
  let x := s.target t
  match x.stack with
  | [] =>
    let s1 := (s.setTarget t { x with svc := none }).setClaim t 0
    if t < 16 then (s1.setRod t { s1.rod t with handler := none }).selectNext t else s1
  | c :: rest =>
    let s1 := (s.setTarget t { x with stack := rest, svc := c.svc }).setClaim t c.claim
    if t < 16 then
      let s2 := s1.setRod t { s1.rod t with handler := c.handler }
      let x2 := s2.rod t
      match x2.waiting.find? (fun w => w.2 && decide (some w.1 = c.handler)) with
      | some h =>
        let s3 := match c.slot with
          | some q =>
            if some q = c.handler then s2
            else s2.setRod t { x2 with waiting := x2.waiting ++ [(q, true)] }
          | none => s2
        s3.resume t h.1
      | none =>
        match c.slot with
        | some q => s2.setCur t (some q)
        | none => s2.selectNext t
    else s1

/-! ### An activation that ends while it is stacked (R477) -/

/-- The claims of target t from the top, each with what the end of its service restores: the one in force, then those of the stacked
contexts. -/
def claimStack (s : State) (t : Nat) : List (Word × Option Nat) :=
  (s.claim t, (s.target t).svc) :: (s.target t).stack.map (fun c => (c.claim, c.svc))

/-- How many of the claims in service above level k stand on the privileged stack. -/
def privAbove (s : State) (t k : Nat) : Nat := (((s.claimStack t).take k).filter (fun e => e.2.isSome && claimPriv e.1)).length

/-- The value to which the claim at level k restores RP. -/
def prevAt (s : State) (t k : Nat) : Nat :=
  let e := (s.claimStack t).getD k (0, none)
  if claimPriv e.1 then (s.target t).priv.getD (s.privAbove t k) 0 else e.2.getD 0

/-- Let the end of the claim at level k restore RP to `v`. The claim words keep what they recorded (R118). -/
def setPrevAt (s : State) (t k v : Nat) : State :=
  let e := (s.claimStack t).getD k (0, none)
  let x := s.target t
  if e.2.isNone then s
  else if claimPriv e.1 then s.setTarget t { x with priv := x.priv.set (s.privAbove t k) v }
  else if k = 0 then s.setTarget t { x with svc := some v }
  else
    let c := x.stack.getD (k - 1) ⟨none, none, 0, none⟩
    s.setTarget t { x with stack := x.stack.set (k - 1) { c with svc := some v } }

/-- The value `v` to restore passes from the claim at level k to the nearest claim above it that is in service, or to RP. -/
def handDown (s : State) (t k v : Nat) : State :=
  match (List.range k).reverse.find? (fun j => ((s.claimStack t).getD j (0, none)).2.isSome) with
  | some j => s.setPrevAt t j v
  | none => s.setRp t v

/-- The service of the stacked claim at level k ends. -/
def endAt (s : State) (t k : Nat) : State :=
  let e := (s.claimStack t).getD k (0, none)
  if e.2.isNone then s
  else
    let s1 := (s.handDown t k (s.prevAt t k)).endClaim (claimSrc e.1)
    if claimPriv e.1 then
      let x := s1.target t
      let ps := x.priv.eraseIdx (s.privAbove t k)
      (s1.setTarget t { x with priv := ps }).setFld R.ICU_RUNPRI_DEPTH ps.length t
    else s1

/-- A bead that is stacked on rod t ends there: beneath a handler nothing resumes in its place; a stacked handler's service ends,
and what it had interrupted takes its place. -/
def unstack (s : State) (t slot : Nat) : State :=
  let x := s.target t
  match x.stack.findIdx? (fun c => decide (c.handler = some slot)) with
  | none => s.setTarget t { x with stack := x.stack.map (fun c => if c.slot = some slot then { c with slot := none } else c) }
  | some i =>
    let s1 := s.endAt t (i + 1)
    let y := s1.target t
    let c := y.stack.getD i ⟨none, none, 0, none⟩
    let b := y.stack.getD (i + 1) ⟨none, none, 0, none⟩
    let aside := decide (c.slot ≠ some slot) && b.slot.isSome
    let s2 := match c.slot with
      | some q => if aside then s1.setRod t { s1.rod t with waiting := (s1.rod t).waiting ++ [(q, true)] } else s1
      | none => s1
    let keep := if c.slot = some slot ∨ aside then b.slot else c.slot
    s2.setTarget t { y with stack := y.stack.take i ++ ⟨keep, b.handler, b.claim, b.svc⟩ :: y.stack.drop (i + 2) }

/-- The handler in service on target t ends: without its EOI the service ends now (R477). -/
def endHandler (s : State) (t : Nat) : State :=
  if s.inService t then
    let (s1, chained) := s.exit t true
    if chained then s1 else s1.popContext t
  else s.popContext t

end Sys2Proof.Machine.State
end

