-- ==== Sys2Proof/Machine/Engine.lean ====
section
/-! DEFINITION. How a bead's instruction runs (02_frame_engine.md R29, R30, R34, R38 to R44, R50; 03_marric_instruction_set.md
R69, R78, R79, R102, R103): issuing, parking, the ends of a pass, instruction faults, the write log and the view of F. -/

namespace Sys2Proof.Machine

namespace Bead

/-- PC by sequence: at the end of a LOOP body with iterations left control returns to its first word (R102). -/
def seqLoops (depth pc : Nat) : List LoopCtx → Nat × List LoopCtx
  | [] => (pc, [])
  | l :: rest =>
    if l.stop = pc ∧ l.depth = depth then
      if 1 < l.count then (l.first, { l with count := l.count - 1 } :: rest) else seqLoops depth pc rest
    else (pc, l :: rest)

/-- Move to the next instruction in sequence at word `pc`. -/
def seqTo (b : Bead) (pc : Nat) : Bead :=
  let (p, ls) := seqLoops b.calls.length pc b.loops
  { b with pc := p, loops := ls }

/-- A branch ends the loops whose bodies its target lies beyond (R102). -/
def dropLoops (depth pc : Nat) : List LoopCtx → List LoopCtx
  | [] => []
  | l :: rest => if l.stop ≤ pc ∧ l.depth = depth then dropLoops depth pc rest else l :: rest

def branchTo (b : Bead) (pc : Nat) : Bead := { b with pc := pc, loops := dropLoops b.calls.length pc b.loops }

/-- The value a log holds for the F word at `a`. -/
def logged (b : Bead) (a : Nat) : Option Word := (b.wlog.find? (fun e => decide (e.1 = a))).map (fun e => e.2)

/-- Log the F word at `a`: a second write to a word replaces its entry (02 R40). -/
def logWord (b : Bead) (a : Nat) (w : Word) : Bead :=
  match b.logged a with
  | some _ => { b with wlog := b.wlog.map (fun e => if e.1 = a then (a, w) else e) }
  | none => { b with wlog := b.wlog ++ [(a, w)], entries := b.entries + 1 }

/-- Add an item to the output log. -/
def logOut (b : Bead) (o : OutReq) (entries : Nat) : Bead := { b with olog := b.olog ++ [o], entries := b.entries + entries }

end Bead

namespace State

/-! ### F as a bead sees it (02 R38, R42, R47) -/

/-- The committed image that beads read: during a bar in progress the one before it (R42), during SNAP that of the frame before
(05 R142). -/
def seenF (s : State) : SMap Byte := s.bar.old.getD s.fmem

/-- The F word at the aligned address `a` in the bead's view. -/
def viewWord (s : State) (b : Bead) (a : Nat) : Word :=
  match b.logged a with
  | some w => w
  | none => BitVec.ofNat 32 (memNat fDflt s.seenF a 4)

/-- `n` ≤ 4 bytes at `a`, aligned, in the bead's view, zero-extended. -/
def viewBytes (s : State) (b : Bead) (a n : Nat) : Nat := getBits (s.viewWord b (a - a % 4)) (8 * (a % 4)) (8 * n)

/-- Log `n` ≤ 4 bytes of `v` at `a`, aligned, merged with the bead's own view of the word (R79). -/
def logBytes (s : State) (b : Bead) (a n v : Nat) : Bead :=
  let base := a - a % 4
  b.logWord base (putBits (s.viewWord b base) (8 * (a % 4)) (8 * n) v)

/-- Log pool entries in use (02 R40). -/
def poolUsed (s : State) : Nat :=
  (s.beads.map (fun e => e.2.entries)).sum + (s.bar.queue.map (fun q => q.entries)).sum

/-! ### Ends of a pass or activation (02 R34, R41, R46) -/

/-- The bead that found 8 parked on rod r parks, once fewer are (R29); the rod then issues nothing yet. -/
def letPark (s : State) (r : Nat) : State :=
  let x := s.rod r
  if x.stalled ∧ (x.waiting.filter (fun w => !w.2)).length < 8 then
    match s.curSlot r with
    | some q => ((s.setRod r { x with stalled := false, waiting := x.waiting ++ [(q, false)] }).setCur r none).syncParked r
    | none => s.setRod r { x with stalled := false }
  else s

/-- The bead that issues on rod r while its handler is parked is set aside, as one whose access completed now (R30). -/
def setAside (s : State) (r : Nat) : State :=
  match s.curSlot r with
  | some q =>
    if (s.rod r).handler = some q then s
    else (s.setRod r { s.rod r with waiting := (s.rod r).waiting ++ [(q, true)] }).setCur r none
  | none => s

/-- The leaf of slot `slot` of rod r is no longer backlogged: it loses its credit at the frame port (R62). -/
def dropPortCredit (s : State) (r slot : Nat) : State :=
  { s with port := { s.port with credit := SMap.set 0 s.port.credit (nodeCode [r, slot]) 0 } }

/-- Take bead n off its rod: it stops issuing, and its handler ends if it is one. -/
def leaveRod (s : State) (n : Nat) : State :=
  let r := n / 64
  let slot := n % 64
  let x := s.rod r
  let parkedHere := x.waiting.any (fun w => decide (w.1 = slot))
  let s1 := (s.setRod r { x with
    waiting := x.waiting.filter (fun w => decide (w.1 ≠ slot))
    select := x.select.filter (fun q => decide (q ≠ slot))
    stalled := x.stalled && (parkedHere || decide (s.curSlot r ≠ some slot)) }).syncParked r
  let s2 := (if parkedHere then s1.dropPortCredit r slot else s1).letPark r
  if s2.stacked r slot then (s2.unstack r slot).kick r
  else if (s2.rod r).handler = some slot then (s2.setAside r).endHandler r
  else if s2.curSlot r = some slot ∧ !parkedHere then s2.selectNext r
  else s2.kick r

/-- The next frame number in which a FRAME bead is due, after the frame in progress (02 R31, R66); a deferred pass stays due (R54). -/
def nextDue (b : Bead) (frame : Nat) : Nat :=
  if b.period = 0 then 2 ^ 32 - 1
  else if b.due then (frame + 1) % 2 ^ 32
  else
    let k := (b.phase + b.period - (frame + 1) % b.period) % b.period
    (frame + 1 + k) % 2 ^ 32

/-- Show ROD_BEAD_NEXT. -/
def syncNext (s : State) (n : Nat) : State :=
  let b := s.bead n
  let st := s.beadState n
  let v := if s.beadClass n = 0 ∧ (st = stReady ∨ st = stRunning ∨ st = stWaitFrame) then nextDue b s.fr.number else 2 ^ 32 - 1
  s.setFld R.ROD_BEAD_NEXT_FRAME v n

/-- A bead faults (03 R103): FAULTED with its cause and PC, its logs discarded, no STOP pending any more (R34), an OPS record. -/
def beadFault (s : State) (n : Nat) (cause : Status) (pc code : Nat) : State :=
  let b := s.bead n
  let s1 := s.setBead n { b with wlog := [], olog := [], entries := 0, openB := none, parked := none, stopReq := false, due := false }
  let s2 := ((s1.setBeadState n stFaulted).setFld R.ROD_BEAD_FAULT_CAUSE cause.code n).setFld R.ROD_BEAD_FAULT_PC pc n
  ((s2.syncNext n).report 0 0x03 .beadFault [n] [pc, cause.code, code]).leaveRod n

/-- Queue a bead's logs for the bar (02 R41, R46). -/
def queueLog (s : State) (n : Nat) : State :=
  let b := s.bead n
  let q : QLog := ⟨n, b.passFrame, b.wlog, b.olog, b.entries⟩
  { s.setBead n { b with wlog := [], olog := [], entries := 0, openB := none } with
    bar := { s.bar with queue := s.bar.queue ++ [q] } }

/-- HALT ends an activation whose claim is still in service: as without its EOI, its logs are discarded (04 R477). -/
def haltDrops (s : State) (n : Nat) (halt : Bool) : Bool :=
  halt && decide (s.beadClass n = 1) && decide ((s.rod (n / 64)).handler = some (n % 64)) && s.inService (n / 64)

/-- Bead n's logs are discarded. -/
def dropLog (s : State) (n : Nat) : State := s.setBead n { s.bead n with wlog := [], olog := [], entries := 0, openB := none }

/-- The pass or activation of bead n ends and its log is queued (02 R34). A broadcast still open is discarded and counted
(03 R96). `halt` is HALT, or the end of an ONESHOT pass. With a STOP pending the bead goes IDLE whichever way the pass ends, HALT and
ONESHOT included (DESIGN CHOICE, log entry 130). -/
def endPass (s : State) (n : Nat) (halt : Bool) : State :=
  let b := s.bead n
  let s1 := match b.openB with
    | some _ => s.report 0 0x03 .broadcastDiscarded [n] [s.fr.number]
    | none => s
  let c := s1.setFld R.ROD_BEAD_CYCLES_LAST b.cycles n
  let s2 := if s.haltDrops n halt then c.dropLog n else c.queueLog n
  let cls := s.beadClass n
  let next := if b.stopReq then stIdle
    else if halt ∨ cls = 2 then stHalted
    else if cls = 1 then stWaitEvent else stWaitFrame
  let s3 := (s2.setBead n { s2.bead n with stopReq := false, due := false }).setBeadState n next
  let s4 := s3.setBit R.ROD_BEAD_STATE_SPAN b.spanned n
  (s4.syncNext n).leaveRod n

/-! ### Parking (02 R29, R65) -/

/-- The bead issuing on rod r waits for `bursts` bursts of the frame port, for the instruction at word `pc`; while 8 are parked the rod
stalls. -/
def park (s : State) (r n bursts pc : Nat) : State :=
  let s1 := s.setBead n { s.bead n with parked := some (bursts, pc) }
  let x := s1.rod r
  if (x.waiting.filter (fun w => !w.2)).length < 8 then
    ((s1.setRod r { x with waiting := x.waiting ++ [(n % 64, false)] }).syncParked r).selectNext r
  else s1.setRod r { x with stalled := true }

/-- Charge issue cycles to the rod (02 R50, R66). -/
def charge (s : State) (r cyc : Nat) : State :=
  let x := s.rod r
  s.setRod r { x with used := x.used + cyc }

end State

/-- What an instruction does: a fault cause with a program code, or the new state and bead. -/
abbrev Eff := Except (Status × Nat) (State × Bead)

/-- Issue one instruction of the bead running on rod r: nothing when none is, or when its count is above its budget and the
abort is due (02 R50); a malformed word faults it with INVALID (03 R73); else `f`, with its cycles charged, and NO_SPACE for a log
entry beyond the pool (02 R40). `after` says what follows for the rod: not where the count has gone above the budget, which aborts the
bead at once (02 R50, log entry 16). -/
def issueWith (r : Fin 16) (wf : Bool) (cyc : Nat) (f : State → Nat → Bead → Eff) (after : State → Nat → State)
    (s : State) : Out :=
  match s.curBead r with
  | none => .next s
  | some n =>
    let b := s.bead n
    if s.fld R.ROD_BEAD_BUDGET_BUDGET n < b.cycles then .next s
    else if !wf then .next (s.beadFault n .invalid b.pc 0)
    else
      let s1 := s.charge r cyc
      match f s1 n { b with cycles := b.cycles + cyc } with
      | .error (c, code) => .next ((s1.setBead n { b with cycles := b.cycles + cyc }).beadFault n c b.pc code)
      | .ok (s2, b2) =>
        let s3 := s2.setBead n b2
        if b.entries < b2.entries ∧ 262144 < s3.poolUsed then .next (s3.beadFault n .noSpace b.pc 0)
        else if s3.fld R.ROD_BEAD_BUDGET_BUDGET n < b2.cycles then .next s3
        else .next (after s3 n)

/-- An instruction of `words` words that goes on in sequence. -/
def issue (r : Fin 16) (wf : Bool) (cyc words : Nat) (f : State → Nat → Bead → Eff) (s : State) : Out :=
  issueWith r wf cyc (fun s n b => (f s n b).map (fun p => (p.1, p.2.seqTo (b.pc + words)))) (fun s _ => s) s

/-- An instruction that changes registers of the bead only. -/
def issueReg (r : Fin 16) (wf : Bool) (cyc : Nat) (f : Bead → Bead) (s : State) : Out :=
  issue r wf cyc 1 (fun s _ b => .ok (s, f b)) s

/-- An instruction that goes on in sequence after its frame-port access of `bursts` bursts. -/
def issuePort (r : Fin 16) (wf : Bool) (cyc bursts : Nat) (f : State → Nat → Bead → Eff) (s : State) : Out :=
  issueWith r wf cyc (fun s n b => (f s n b).map (fun p => (p.1, p.2.seqTo (b.pc + 1))))
    (fun t n => if bursts = 0 then t else t.park r n bursts (s.bead n).pc) s

end Sys2Proof.Machine
end

