-- ==== Sys2Proof/Machine/IsaScalar.lean ====
section
/-! DEFINITION. The scalar group of Marric (03_marric_instruction_set.md R76) and the table lookup TLI (R85). Every meaning is
the instruction of the bead that rod `r` now issues. -/

namespace Sys2Proof.Machine

/-- A result with Z and N. -/
def Bead.putZn (b : Bead) (d : Nat) (w : Word) : Bead := (b.ws d w).zn w

/-- A saturated result with Z, N and SAT. -/
def Bead.putSat (b : Bead) (d : Nat) (x : Word × Bool) : Bead := ((b.ws d x.1).zn x.1).setFl 4 x.2

def execAdd (r : Fin 16) (d a b : Fin 32) (s : State) : Out :=
  issueReg r true 1 (fun x => (x.ws d (x.rs a + x.rs b)).flagsAdd (x.rs a) (x.rs b)) s

def execSub (r : Fin 16) (d a b : Fin 32) (s : State) : Out :=
  issueReg r true 1 (fun x => (x.ws d (x.rs a - x.rs b)).flagsSub (x.rs a) (x.rs b)) s

def execAnd (r : Fin 16) (d a b : Fin 32) (s : State) : Out :=
  issueReg r true 1 (fun x => x.putZn d (x.rs a &&& x.rs b)) s

def execOr (r : Fin 16) (d a b : Fin 32) (s : State) : Out :=
  issueReg r true 1 (fun x => x.putZn d (x.rs a ||| x.rs b)) s

def execXor (r : Fin 16) (d a b : Fin 32) (s : State) : Out :=
  issueReg r true 1 (fun x => x.putZn d (x.rs a ^^^ x.rs b)) s

/-- SH is put to use only when B = 0 (R72, R76). -/
def shiftWf (b sh : Fin 32) : Bool := decide (b.val = 0 ∨ sh.val = 0)

def execShl (r : Fin 16) (d a b sh : Fin 32) (s : State) : Out :=
  issueReg r (shiftWf b sh) 1 (fun x => x.putZn d (shlW (x.rs a) (shAmount x b sh))) s

def execShr (r : Fin 16) (d a b sh : Fin 32) (s : State) : Out :=
  issueReg r (shiftWf b sh) 1 (fun x => x.putZn d (shrW (x.rs a) (shAmount x b sh))) s

def execSar (r : Fin 16) (d a b sh : Fin 32) (s : State) : Out :=
  issueReg r (shiftWf b sh) 1 (fun x => x.putZn d (sarW (x.rs a) (shAmount x b sh))) s

def execMin (r : Fin 16) (d a b : Fin 32) (s : State) : Out :=
  issueReg r true 1 (fun x => x.putZn d (smin (x.rs a) (x.rs b))) s

def execMax (r : Fin 16) (d a b : Fin 32) (s : State) : Out :=
  issueReg r true 1 (fun x => x.putZn d (smax (x.rs a) (x.rs b))) s

def execAdds (r : Fin 16) (d a b : Fin 32) (s : State) : Out :=
  issueReg r true 1 (fun x => x.putSat d (satW ((x.rs a).toInt + (x.rs b).toInt))) s

def execSubs (r : Fin 16) (d a b : Fin 32) (s : State) : Out :=
  issueReg r true 1 (fun x => x.putSat d (satW ((x.rs a).toInt - (x.rs b).toInt))) s

def execMulq (r : Fin 16) (d a b sh : Fin 32) (s : State) : Out :=
  issueReg r true 2 (fun x => x.putSat d (mulq (x.rs a) (x.rs b) sh)) s

def execMacq (r : Fin 16) (d a b sh : Fin 32) (s : State) : Out :=
  issueReg r true 2 (fun x => x.putSat d (macq (x.rs d) (x.rs a) (x.rs b) sh)) s

def execDivq (r : Fin 16) (d a b sh : Fin 32) (s : State) : Out :=
  issueReg r true 34 (fun x => x.putSat d (divq (x.rs a) (x.rs b) sh)) s

def execAbs (r : Fin 16) (d a : Fin 32) (s : State) : Out :=
  issueReg r true 1 (fun x => x.putSat d (satW ((x.rs a).toInt.natAbs))) s

def execClamp (r : Fin 16) (d a b : Fin 32) (s : State) : Out :=
  issueReg r true 1 (fun x => x.putZn d (clampW (x.rs d) (x.rs a) (x.rs b))) s

def execSel (r : Fin 16) (d a b : Fin 32) (cond : Fin 16) (s : State) : Out :=
  issueReg r true 1 (fun x => x.ws d (if x.cond cond then x.rs a else x.rs b)) s

def execCmp (r : Fin 16) (a b : Fin 32) (s : State) : Out :=
  issueReg r true 1 (fun x => x.flagsSub (x.rs a) (x.rs b)) s

def execMov (r : Fin 16) (d a : Fin 32) (s : State) : Out := issueReg r true 1 (fun x => x.ws d (x.rs a)) s

def execAddi (r : Fin 16) (d a : Fin 32) (imm : BitVec 14) (s : State) : Out :=
  issueReg r true 1 (fun x => (x.ws d (x.rs a + imm.signExtend 32)).flagsAdd (x.rs a) (imm.signExtend 32)) s

def execAndi (r : Fin 16) (d a : Fin 32) (imm : BitVec 16) (s : State) : Out :=
  issueReg r true 1 (fun x => x.putZn d (x.rs a &&& imm.zeroExtend 32)) s

def execOri (r : Fin 16) (d a : Fin 32) (imm : BitVec 16) (s : State) : Out :=
  issueReg r true 1 (fun x => x.putZn d (x.rs a ||| imm.zeroExtend 32)) s

def execXori (r : Fin 16) (d a : Fin 32) (imm : BitVec 16) (s : State) : Out :=
  issueReg r true 1 (fun x => x.putZn d (x.rs a ^^^ imm.zeroExtend 32)) s

def execShli (r : Fin 16) (d a n : Fin 32) (s : State) : Out :=
  issueReg r true 1 (fun x => x.putZn d (shlW (x.rs a) n)) s

def execShri (r : Fin 16) (d a n : Fin 32) (s : State) : Out :=
  issueReg r true 1 (fun x => x.putZn d (shrW (x.rs a) n)) s

def execSari (r : Fin 16) (d a n : Fin 32) (s : State) : Out :=
  issueReg r true 1 (fun x => x.putZn d (sarW (x.rs a) n)) s

def execCmpi (r : Fin 16) (a : Fin 32) (imm : BitVec 14) (s : State) : Out :=
  issueReg r true 1 (fun x => x.flagsSub (x.rs a) (imm.signExtend 32)) s

def execLiShort (r : Fin 16) (d : Fin 32) (imm : BitVec 16) (s : State) : Out :=
  issueReg r true 1 (fun x => x.ws d (imm.signExtend 32)) s

def execLui (r : Fin 16) (d : Fin 32) (imm : BitVec 16) (s : State) : Out :=
  issueReg r true 1 (fun x => x.ws d (imm.zeroExtend 32 <<< 16)) s

def execLiLong (r : Fin 16) (d : Fin 32) (w : Word) (s : State) : Out :=
  issue r true 2 2 (fun s _ x => .ok (s, x.ws d w)) s

/-! ### Table lookup (R85) -/

/-- The image of a bead. -/
def State.mpi (s : State) (b : Bead) : Mpi := (SMap.find ({} : Image) s.images b.slot).mpi

/-- `n` bytes at `a` lie in the constants of the bead's image. -/
def inConst (m : Mpi) (a n : Nat) : Bool :=
  decide (0x1000000 ≤ a ∧ a + n ≤ 0x1800000 ∧ m.constBase ≤ a ∧ a + n ≤ m.constBase + m.constSize)

/-- A word of C. -/
def State.cWord (s : State) (a : Nat) : Word := BitVec.ofNat 32 (memNat State.zDflt s.cmem a 4)

/-- The interpolation of R85: the value before sat and the index i. -/
def tliValue (y : Nat → Int) (n xs : Nat) (x0 a : Int) : Int × Nat :=
  let u := clampI (a - x0) 0 (((n - 1) * 2 ^ xs : Nat) : Int)
  let i := (sarI u xs).toNat
  let f := u - (i : Int) * (2 ^ xs : Nat)
  if i = n - 1 then (y i, i) else (y i + sarI ((y (i + 1) - y i) * f) xs, i)

/-- The 64-byte blocks that a list of byte addresses touches. -/
def blocks (as : List Nat) : Nat := (sortNat (as.map (· / 64))).length

/-- The lookup: its fault, or the result and the bursts of the blocks it read (R65, at most 3 by R76). -/
def tliEff (s : State) (x : Bead) (a b : Nat) : Except (Status × Nat) ((Word × Bool) × Nat) :=
  let base := (x.rs b).toNat
  let m := s.mpi x
  if base % 4 ≠ 0 then .error (.invalid, 0)
  else if !inConst m base 4 then .error (.range, 0)
  else
    let w0 := s.cWord base
    let n := getBits w0 0 8
    let xs := getBits w0 8 5
    if !(decide (n = 17 ∨ n = 33) && decide (xs ≤ 26 ∧ getBits w0 13 19 = 0)) then .error (.invalid, 0)
    else if !inConst m base (4 * (n + 2)) then .error (.range, 0)
    else
      let y (i : Nat) : Int := (s.cWord (base + 4 * (2 + i))).toInt
      let (v, i) := tliValue y n xs (s.cWord (base + 4)).toInt (x.rs a).toInt
      let last := if i = n - 1 then i else i + 1
      .ok (satW v, min 3 (blocks [base, base + 4, base + 4 * (2 + i), base + 4 * (2 + last)]))

def execTli (r : Fin 16) (d a b : Fin 32) (s : State) : Out :=
  let bursts (s : State) : Nat :=
    match s.curBead r with
    | none => 0
    | some n => match tliEff s (s.bead n) a b with
      | .ok (_, k) => k
      | .error _ => 0
  issuePort r true 6 (bursts s) (fun s _ x => (tliEff s x a b).map (fun v => (s, x.putSat d v.1))) s

end Sys2Proof.Machine
end

