-- ==== Sys2Proof/Machine/Grants.lean ====
section
/-! DEFINITION. What a bead's image may reach: grants and own regions (02_frame_engine.md R36, R37;
05_programs_and_lantern_table.md R131, R132, R139, R140, R144). -/

namespace Sys2Proof.Machine

namespace Mpi

/-- Some grant of the kind, with the access bit, covers `x`. -/
def granted (m : Mpi) (kind bit x : Nat) : Bool :=
  m.grants.any (fun g => decide (g.kind = kind ∧ g.first ≤ x ∧ x ≤ g.last) && g.access.testBit bit)

/-- Every byte of a run is covered. -/
def grantedRun (m : Mpi) (kind bit a n : Nat) : Bool := (List.range n).all (fun i => m.granted kind bit (a + i))

/-- A LANTERNS grant names the LID. -/
def lantern (m : Mpi) (lid : Nat) : Bool := m.granted 3 1 lid

/-- A CHANNELS grant names the channel. -/
def channel (m : Mpi) (c : Nat) : Bool := m.grants.any (fun g => decide (g.kind = 4) && g.first.testBit c)

/-- A PORT grant names the register. -/
def port (m : Mpi) (a : Nat) (write : Bool) : Bool := m.granted 5 (if write then 1 else 0) a

/-- A RAISE grant names software source 192 + n. -/
def raise (m : Mpi) (n : Nat) : Bool :=
  m.grants.any (fun g => decide (g.kind = 6) && (if n < 32 then g.first.testBit n else g.last.testBit (n - 32)))

end Mpi

namespace State

/-- A bead of image `m` may read the `n` bytes of F at `a`. -/
def mayLoad (s : State) (m : Mpi) (a n : Nat) : Bool :=
  if a < 0x200000 then decide (a / 128 < s.part.lanterns) && m.grantedRun 2 0 (a % 128) n
  else if a < 0x20D000 then true
  else if a < 0x280000 then false
  else if a < 0x300000 then true
  else decide (a + n ≤ 0x400000 ∧ m.fBase ≤ a ∧ a + n ≤ m.fBase + m.fSize)

/-- A byte of a lantern record that a program may log: class P. -/
def classP (off : Nat) : Bool := decide (0x20 ≤ off ∧ off < 0x40)

/-- A bead of image `m` may log the `n` bytes of F at `a`. -/
def mayStore (s : State) (m : Mpi) (a n : Nat) : Bool :=
  if a < 0x200000 then
    decide (a / 128 < s.part.lanterns) && m.grantedRun 2 1 (a % 128) n && (List.range n).all (fun i => classP (a % 128 + i))
  else if a < 0x20D000 then m.grantedRun 1 1 a n
  else if a < 0x300000 then false
  else decide (a + n ≤ 0x400000 ∧ m.fBase ≤ a ∧ a + n ≤ m.fBase + m.fSize)

end State

/-- A bead of image `m` may reach the `n` bytes of I at `a`. -/
def mayI (m : Mpi) (a n : Nat) : Bool := decide (a + n ≤ 0x200000 ∧ m.iBase ≤ a ∧ a + n ≤ m.iBase + m.iSize)

end Sys2Proof.Machine
end

