-- ==== Sys2Proof/Machine/IsaMemory.lean ====
section
/-! DEFINITION. Memory and lantern sets of Marric (03_marric_instruction_set.md R78, R79, R82 to R84). -/

namespace Sys2Proof.Machine

/-! ### LDF, STF, LDI, STI -/

/-- A word is well formed when bit 4 of a V field is 0 (R72, R73). -/
def vFieldWf (size : Fin 4) (d : Fin 32) : Bool := decide (size.val ≠ 3 ∨ d.val < 16)

/-- Put a loaded value into S[d], or 16 words into V[d]. -/
def loadInto (x : Bead) (size : Fin 4) (d : Fin 32) (word : Nat → Word) (small : Nat) : Bead :=
  if size.val = 3 then x.putLanes d word 16 else x.ws d (BitVec.ofNat 32 small)

def execLdf (r : Fin 16) (d a : Fin 32) (size : Fin 4) (imm : BitVec 14) (s : State) : Out :=
  issuePort r (vFieldWf size d) 2 1 (fun s _ x =>
    let n := sizeBytes size
    let ea := x.ea a imm
    if ea % n ≠ 0 then .error (.invalid, 0)
    else if !s.mayLoad (s.mpi x) ea n then .error (.range, 0)
    else .ok (s, loadInto x size d (fun j => s.viewWord x (ea + 4 * j)) (s.viewBytes x ea n))) s

/-- Log 16 words from the lanes of V[d]. -/
def logLanes (x : Bead) (a : Nat) (word : Nat → Word) : Nat → Bead
  | 0 => x
  | n + 1 => (logLanes x a word n).logWord (a + 4 * n) (word n)

def execStf (r : Fin 16) (d a : Fin 32) (size : Fin 4) (imm : BitVec 14) (s : State) : Out :=
  issue r (vFieldWf size d) 1 1 (fun s _ x =>
    let n := sizeBytes size
    let ea := x.ea a imm
    if ea % n ≠ 0 then .error (.invalid, 0)
    else if !s.mayStore (s.mpi x) ea n then .error (.range, 0)
    else .ok (s, if size.val = 3 then logLanes x ea (fun j => x.rv d j) 16 else s.logBytes x ea n (x.rs d).toNat)) s

/-- The RAM of an LDI: C at its addresses, else I. -/
def State.ldiMem (s : State) (a : Nat) : SMap Byte := if 0x1000000 ≤ a then s.cmem else s.imem

def execLdi (r : Fin 16) (d a : Fin 32) (size : Fin 4) (imm : BitVec 14) (s : State) : Out :=
  issuePort r (vFieldWf size d) 2 1 (fun s _ x =>
    let n := sizeBytes size
    let ea := x.ea a imm
    if ea % n ≠ 0 then .error (.invalid, 0)
    else if !(mayI (s.mpi x) ea n || inConst (s.mpi x) ea n) then .error (.range, 0)
    else
      let at_ (b k : Nat) : Nat := memNat State.zDflt (s.ldiMem ea) b k
      .ok (s, loadInto x size d (fun j => BitVec.ofNat 32 (at_ (ea + 4 * j) 4)) (at_ ea n))) s

/-- The bytes an STI writes. -/
def stiBytes (x : Bead) (size : Fin 4) (d : Fin 32) : List Byte :=
  if size.val = 3 then (List.range 16).flatMap (fun j => leBytes 4 (x.rv d j).toNat)
  else leBytes (sizeBytes size) (x.rs d).toNat

def execSti (r : Fin 16) (d a : Fin 32) (size : Fin 4) (imm : BitVec 14) (s : State) : Out :=
  issuePort r (vFieldWf size d) 1 1 (fun s _ x =>
    let n := sizeBytes size
    let ea := x.ea a imm
    if ea % n ≠ 0 then .error (.invalid, 0)
    else if !mayI (s.mpi x) ea n then .error (.range, 0)
    else .ok ({ s with imem := SMap.setRun State.zDflt s.imem ea (stiBytes x size d) }, { x with touched := true })) s

/-! ### LSET (R82) -/

/-- Insert a LID into a list ordered by link, cell and LID. -/
def insertPlaced (f : SMap Byte) (lid : Nat) : List Nat → List Nat
  | [] => [lid]
  | q :: qs =>
    let k (l : Nat) : Nat := (recNat f l 0x18 2) * 2 ^ 24 + (recNat f l 0x1A 1) * 2 ^ 16 + l
    if k lid < k q then lid :: q :: qs else q :: insertPlaced f lid qs

/-- What LSET selects, in the order of the kind. -/
def lsetSelect (f : SMap Byte) (lanterns kind : Nat) (mask64 : Nat) (w : Word) : List Nat :=
  let comm := commissioned f lanterns
  match kind with
  | 0 => comm.filter (fun l => (groupsOf f l).contains (getBits w 0 10))
  | 1 => comm.filter (fun l => decide (recNat f l 0x10 8 &&& mask64 ≠ 0))
  | 2 => comm.filter (fun l =>
      let q := recNat f l 3 1 % 8
      decide (1 ≤ q ∧ q ≤ 6) && w.getLsbD (q - 1))
  | 3 => (comm.filter (fun l => decide (getBits w 0 12 ≤ recNat f l 0x18 2 ∧ recNat f l 0x18 2 ≤ getBits w 16 12))).foldl
      (fun acc l => insertPlaced f l acc) []
  | 4 => comm.filter (fun l => decide (getBits w 0 14 ≤ l ∧ l ≤ getBits w 16 14))
  | _ => comm

/-- The bits of word 2 and the A field that each kind leaves reserved are 0; A is 1 to 30 for MASK. -/
def lsetWf (kind : Fin 6) (a : Fin 32) (w : Word) : Bool :=
  match kind.val with
  | 0 => decide (a.val = 0 ∧ getBits w 10 22 = 0)
  | 1 => decide (1 ≤ a.val ∧ a.val ≤ 30 ∧ w = 0)
  | 2 => decide (a.val = 0 ∧ getBits w 6 26 = 0)
  | 3 => decide (a.val = 0 ∧ getBits w 12 4 = 0 ∧ getBits w 28 4 = 0)
  | 4 => decide (a.val = 0 ∧ getBits w 14 2 = 0 ∧ getBits w 30 2 = 0)
  | _ => decide (a.val = 0 ∧ w = 0)

/-- A RANGE that is not reversed reaches beyond the variant. A reversed one selects nothing and has nothing to clip, so ST is OK whatever
its ends (DESIGN CHOICE, log entry 159). -/
def lsetClipped (lanterns kind : Nat) (w : Word) : Bool :=
  decide (kind = 4 ∧ getBits w 0 14 ≤ getBits w 16 14 ∧ lanterns ≤ getBits w 16 14)

def Bead.cursor (x : Bead) (c : Nat) : Cursor := if c = 0 then x.c0 else x.c1

def Bead.setCursor (x : Bead) (c : Nat) (v : Cursor) : Bead := if c = 0 then { x with c0 := v } else { x with c1 := v }

def execLset (r : Fin 16) (c : Fin 2) (kind : Fin 6) (a : Fin 32) (inter : Bool) (w : Word) (s : State) : Out :=
  issue r (lsetWf kind a w) 4 2 (fun s _ x =>
    let mask64 := (x.rs a).toNat + (x.rs (a + 1)).toNat * 2 ^ 32
    let all := lsetSelect s.seenF s.part.lanterns kind mask64 w
    let old := (x.cursor c).sel
    let sel := if inter then all.filter (fun l => old.contains l) else all
    .ok (s, (x.setCursor c ⟨sel, 0⟩).setSt (if lsetClipped s.part.lanterns kind w then .range else .ok))) s

/-! ### LNEXT (R83) -/

/-- A mask with the low `n` bits set. -/
def lowMask (n : Nat) : BitVec 16 := BitVec.ofNat 16 (2 ^ n - 1)

def execLnext (r : Fin 16) (d : Fin 16) (k : Fin 4) (c : Fin 2) (s : State) : Out :=
  issuePort r (decide (k.val ≠ 0)) 3 1 (fun s _ x =>
    let cur := x.cursor c
    let rest := cur.sel.drop cur.pos
    let batch := rest.take 16
    let x1 := x.putLanes d (fun j => match batch[j]? with
      | some l => BitVec.ofNat 32 l
      | none => 0xFFFFFFFF) 16
    let x2 := x1.wm k (lowMask batch.length)
    .ok (s, (x2.setCursor c ⟨cur.sel, cur.pos + batch.length⟩).setFl 5 (decide (rest.length ≤ 16)))) s

/-! ### LTG and LTS (R84) -/

/-- The width is 0 to 2, and the offset is aligned to it. -/
def fieldWf (width : Fin 4) (off : Fin 128) : Bool :=
  decide (width.val ≠ 3 ∧ off.val % 2 ^ width.val = 0)

/-- LTG may read the field: granted, and not one that the module owns, class M of 05 R139 (DEDUCED, log entry 133). -/
def ltgAllowed (m : Mpi) (off n : Nat) : Bool :=
  m.grantedRun 2 0 off n && (List.range n).all (fun i => decide (off + i < 0x40))

/-- LTS may log the field: granted, and not owned by the module. -/
def ltsAllowed (m : Mpi) (off n : Nat) : Bool :=
  m.grantedRun 2 1 off n && (List.range n).all (fun i => State.classP (off + i))

/-- Some enabled lane of V[a] names a LID beyond the variant. -/
def lanesBeyond (x : Bead) (a k lanterns : Nat) : Bool := (x.lanes k).any (fun j => decide (lanterns ≤ (x.rv a j).toNat))

def rangeIf (b : Bool) : Status := if b then .range else .ok

/-- The blocks that a gather touches (R65). -/
def gatherBursts (x : Bead) (a k lanterns base size off : Nat) : Nat :=
  blocks (((x.lanes k).filter (fun j => decide ((x.rv a j).toNat < lanterns))).map (fun j => base + size * (x.rv a j).toNat + off))

/-- The bursts of an access of the bead now issuing on rod r. -/
def State.burstsOf (s : State) (r : Nat) (f : Bead → Nat) : Nat :=
  match s.curBead r with
  | none => 0
  | some n => f (s.bead n)

def execLtg (r : Fin 16) (d a : Fin 16) (k : Fin 4) (off : Fin 128) (width : Fin 4) (sx : Bool) (s : State) : Out :=
  issuePort r (fieldWf width off) 3 (s.burstsOf r (fun x => gatherBursts x a k s.part.lanterns 0 128 off)) (fun s _ x =>
    let n := 2 ^ width.val
    if !ltgAllowed (s.mpi x) off n then .error (.range, 0)
    else
      let lanterns := s.part.lanterns
      let value (j : Nat) : Word :=
        let lid := (x.rv a j).toNat
        if lanterns ≤ lid then 0
        else
          let v := s.viewBytes x (128 * lid + off) n
          if sx then wordOf (sext (8 * n) v) else BitVec.ofNat 32 v
      .ok (s, (x.putEnabled d k value).setSt (rangeIf (lanesBeyond x a k lanterns)))) s

/-- Log a field in the enabled lanes, in lane order. -/
def logField (s : State) (d a off n lanterns : Nat) (x : Bead) (js : List Nat) : Bead :=
  js.foldl (fun y j =>
    let lid := (x.rv a j).toNat
    if lanterns ≤ lid then y else s.logBytes y (128 * lid + off) n (x.rv d j).toNat) x

def execLts (r : Fin 16) (d a : Fin 16) (k : Fin 4) (off : Fin 128) (width : Fin 4) (s : State) : Out :=
  issue r (fieldWf width off) 3 1 (fun s _ x =>
    let n := 2 ^ width.val
    if !ltsAllowed (s.mpi x) off n then .error (.range, 0)
    else
      let y := logField s d a off n s.part.lanterns x (x.lanes k)
      .ok (s, y.setSt (rangeIf (lanesBeyond x a k s.part.lanterns)))) s

end Sys2Proof.Machine
end

