-- ==== Sys2Proof/Machine/IcuRows.lean ====
section
/-! DEFINITION. Commands and registers of the ICU (04_event_delivery.md R112 to R117, R124, R125). -/

namespace Sys2Proof.Machine

namespace State

/-- The context that an entry on target t stacks; none when nothing resumes. -/
def entryContext (s : State) (t : Nat) : Option IcuCtx :=
  let c := s.context t
  if c.slot.isSome ∨ c.handler.isSome ∨ claimValid c.claim then some c else none

/-- Dispatch to target t what may be dispatched, and run its entry (R115, R116). -/
def dispatch (s : State) (t : Nat) (ev : EntryEvent) : State :=
  match s.arbitrate t (s.rp t) ev with
  | (s1, some n) => s1.enter n t (s1.entryContext t)
  | (s1, none) => s1

/-- Some source has STORM set. -/
def stormAny (s : State) : Bool := (List.range 256).any (fun n => s.bit R.ICU_SRC_STAT_STORM n)

/-- What an ICU register reads as: the levels, ACTIVE, PENDING and STORM_ANY are live. -/
def icuView (s : State) (a : Nat) (w : Word) : Word :=
  if a = R.ICU_STAT_EARLY.addr then putBits w 16 1 (if s.stormAny then 1 else 0)
  else if a = 0x20008 then (s.icu.level >>> 192).truncate 32
  else if a = 0x2000C then (s.icu.level >>> 224).truncate 32
  else if 0x21000 ≤ a ∧ a < 0x22000 ∧ a % 16 = 4 then
    let n := (a - 0x21000) / 16
    putBits w 0 2 ((if s.srcActive n then 1 else 0) + (if s.srcPending n then 2 else 0))
  else w

/-- A legal TARGET: a target of the variant, or the pool. -/
def legalTarget (s : State) (g : Nat) : Bool := s.part.hasTarget g || decide (g = 31)

/-- A write of ICU_SRC_CFG[n] (R113, R125): SLOT takes what the supervisor writes, and is read-only to all others; the supervisor may
change TARGET of a bound source. -/
def writeSrcCfg (s : State) (who : Requester) (n : Nat) (v : Word) : Status × State :=
  let p := if n = 1 then s.prio n else getBits v 0 4
  let g := getBits v 4 5
  let bound := s.bit R.ICU_SRC_CFG_BOUND n
  if !s.legalTarget g then (.range, s)
  else if bound ∧ who ≠ .sup ∧ g ≠ s.fld R.ICU_SRC_CFG_TARGET n then (.locked, s)
  else if !bound ∧ g ≠ 16 ∧ g ≠ 17 then (.invalid, s)
  else if p ≠ s.prio n ∧ s.bit R.ICU_SRC_STAT_INSVC n then (.busy, s)
  else
    let s0 := if p = 0 ∨ g ≠ s.fld R.ICU_SRC_CFG_TARGET n then s.unmark n else s
    let s1 := (s0.setFld R.ICU_SRC_CFG_PRIO p n).setFld R.ICU_SRC_CFG_TARGET g n
    (.ok, if who = .sup then s1.setFld R.ICU_SRC_CFG_SLOT (getBits v 9 6) n else s1)

/-- A write of ICU_SWSET[k]: bit j asserts SRC[192 + 32·k + j] (R107). -/
def writeSwset (s : State) (k : Nat) (v : Word) : Status × State :=
  (.ok, (List.range 32).foldl (fun t j => if v.getLsbD j then t.assertSrc (192 + 32 * k + j) else t) s)

/-- The ICU registers whose writes are not plain. -/
def icuWrite (s : State) (who : Requester) (a : Nat) (v : Word) : Option (Status × State) :=
  if a = 0x20000 then
    some (if v.toNat % 65536 < 2 ^ s.part.rods then (.ok, s.setFld R.ICU_POOL_RODS v.toNat) else (.range, s))
  else if a = 0x20008 then some (s.writeSwset 0 v)
  else if a = 0x2000C then some (s.writeSwset 1 v)
  else if 0x21000 ≤ a ∧ a < 0x22000 ∧ a % 16 = 0 then some (s.writeSrcCfg who ((a - 0x21000) / 16) v)
  else none

end State

def execIcuDispatch (t : Fin 18) (us : Fin 20000) (ev : EntryEvent) (s : State) : Out :=
  .next (if s.part.hasTarget t then (s.atUs us).dispatch t ev else s)

/-- The interval of target t ends (R114): time has come to its end, and the highest pending source is dispatched. -/
def execModerationExpire (t : Fin 18) (s : State) : Out :=
  let x := s.target t
  .next (if s.part.hasTarget t ∧ s.nowNs < x.timerNs then
      let s1 := s.atUs ((x.timerNs - s.fr.edgeNs) / 1000)
      (s1.setTarget t { x with timerNs := s1.nowNs }).dispatch t .quiet
    else s)

end Sys2Proof.Machine
end

