-- ==== Sys2Proof/Machine/IsaTime.lean ====
section
/-! DEFINITION. Time, calendar, sun and flow instructions of Marric (03_marric_instruction_set.md R86 to R93). -/

namespace Sys2Proof.Machine

/-! ### TIME (R86, R87) -/

/-- The value of a kind for a pass, with the microseconds since the edge of the frame in progress. -/
def timeValue (x : Bead) (kind us : Nat) : Nat :=
  match kind with
  | 0 => x.passFrame
  | 1 => x.passFrame / 2 ^ 32
  | 2 => x.passMs / 1000
  | 3 => x.passMs / 1000 / 2 ^ 32 % 2 ^ 16
  | 4 => x.passMs % 1000
  | 5 => us
  | _ => x.passSrc

def execTime (r : Fin 16) (d : Fin 32) (kind : Fin 7) (us : Fin 20000) (s : State) : Out :=
  issue r true 1 1 (fun s _ x =>
    if !x.passKnown ∧ 2 ≤ kind.val ∧ kind.val ≤ 4 then .ok (s, (x.ws d 0).setSt .invalid)
    else
      let s1 := if kind.val = 5 then s.atUs us else s
      .ok (s1, (x.ws d (BitVec.ofNat 32 (timeValue x kind s1.fr.nowUs))).setSt .ok)) s

/-! ### CAL (R87 to R89) -/

/-- The time-zone eras in use. -/
def State.zone (s : State) : List Era := zoneOf s.seenF (s.bit R.LTAB_STAT_TZ_VALID)

def execCalFields (r : Fin 16) (d a : Fin 32) (s : State) : Out :=
  issue r (decide (1 ≤ d.val ∧ d.val ≤ 30)) 24 2 (fun s _ x =>
    if !x.passKnown then .ok (s, ((x.ws d 0).ws (d + 1) 0).setSt .invalid)
    else
      let hol := s.bit R.LTAB_STAT_HOL_VALID
      let (v, s1) := s.draw
      let (ms, leap) := s.utcShown ((20 * x.passFrame : Nat) + (x.rs a).toInt * 1000)
      let (w0, w1) := calFields s.seenF s.zone hol ms leap v
      let st : Status := if s.bit R.LTAB_STAT_TZ_VALID ∧ hol then .ok else .invalid
      .ok (s1, ((x.ws d w0).ws (d + 1) w1).setSt st)) s

/-- The window of DUE in frames (R89): W, or for W = 0 the frames since the last committed pass, none where that lies in the pass frame
itself, at most 3,000; 1 for the first pass after START, and after a step of time that did not leave it below the pass frame (10 R276). -/
def dueWindow (x : Bead) (w : Nat) : Nat :=
  if w ≠ 0 then w
  else match x.lastCommit with
    | some n => if x.passFrame ≤ n ∧ x.stepped then 1 else min 3000 (x.passFrame - n)
    | none => 1

def execCalDue (r : Fin 16) (d a : Fin 32) (w : Word) (s : State) : Out :=
  issue r (decide (getBits w 12 19 = 0)) 24 2 (fun s _ x =>
    let t := (x.rs a).toNat
    let win := getBits w 0 12
    if !x.passKnown then .ok (s, (x.ws d 0).setSt .invalid)
    else if 86399 < t ∨ 3000 < win then .ok (s, (x.ws d 0).setSt .range)
    else
      let utc (n : Int) : Int := (s.utcShown (20 * n)).1
      let n : Int := x.passFrame
      let v := calDue s.zone (utc (n - dueWindow x win)) (utc n) t w.msb
      .ok (s, (x.ws d v).setSt (if s.bit R.LTAB_STAT_TZ_VALID then .ok else .invalid))) s

/-! ### SUN and SUNEV (R90, R91) -/

/-- Latitude and longitude of the site record, Q9.23 degrees (05 R149). -/
def siteOf (f : SMap Byte) : Int × Int := ((segWord f 0x20C004).toInt, (segWord f 0x20C008).toInt)

/-- To the nearest 1/256°, halves away from zero, from degrees × 2^24. -/
def toQ88 (e : Int) : Int := if 0 ≤ e then Int.fdiv (e + 32768) 65536 else -(Int.fdiv (-e + 32768) 65536)

def execSun (r : Fin 16) (d : Fin 32) (s : State) : Out :=
  issue r true 2 1 (fun s _ x =>
    if !x.passKnown ∨ !s.bit R.LTAB_STAT_SITE_VALID then .ok (s, (x.ws d 0).setSt .invalid)
    else
      let (lat, lon) := siteOf s.seenF
      .ok (s, (x.ws d (wordOf (toQ88 (sunElevation lat lon x.passMs)))).setSt .ok)) s

/-- SUNEV's result and status for elevation `e` (Q8.8). -/
def sunevValue (lat lon : Int) (ms : Nat) (e : Int) (rising : Bool) : Word × Status :=
  if e < -23040 ∨ 23040 < e then (0xFFFFFFFF, .range)
  else match sunCrossing lat lon ms e rising with
    | some dt => if dt ≤ 172800000 then (BitVec.ofNat 32 (ceilDiv dt 20), .ok) else (0xFFFFFFFF, .range)
    | none => (0xFFFFFFFF, .range)

def execSunev (r : Fin 16) (d a : Fin 32) (rising : Bool) (s : State) : Out :=
  issue r true 160 1 (fun s _ x =>
    if !x.passKnown ∨ !s.bit R.LTAB_STAT_SITE_VALID then .ok (s, (x.ws d 0).setSt .invalid)
    else
      let (lat, lon) := siteOf s.seenF
      let (w, st) := sunevValue lat lon x.passMs (x.rs a).toInt rising
      .ok (s, (x.ws d w).setSt st)) s

/-! ### FLOWRD and FLOWDET (R92, R93; 01_architecture.md R22) -/

def execFlowrd (r : Fin 16) (d a : Fin 16) (k : Fin 4) (h : Fin 4) (s : State) : Out :=
  issuePort r true 3 (s.burstsOf r (fun x => if x.passFlow then gatherBursts x a k s.part.lanterns 0x280000 8 0 else 0))
    (fun s _ x =>
      let lanterns := s.part.lanterns
      if !x.passFlow then .ok (s, (x.putEnabled d k (fun _ => 0)).setSt .notReady)
      else
        let value (j : Nat) : Word :=
          let lid := (x.rv a j).toNat
          if lanterns ≤ lid then 0 else BitVec.ofNat 32 (memNat State.fDflt s.seenF (0x280000 + 8 * lid + 2 * h) 2)
        .ok (s, (x.putEnabled d k value).setSt (rangeIf (lanesBeyond x a k lanterns)))) s

def execFlowdet (r : Fin 16) (a b : Fin 32) (s : State) : Out :=
  issue r true 2 1 (fun s n x =>
    let w := x.rs a
    let lid := getBits w 0 14
    let cls := getBits w 14 2
    let dir := getBits w 16 2
    let speed := (x.rs b).toNat
    if cls = 3 ∨ dir = 3 then .ok (s, x.setSt .invalid)
    else if s.part.lanterns ≤ lid ∨ 65535 < speed then .ok (s, x.setSt .range)
    else if !s.ready 9 then .ok (s, x.setSt .notReady)
    else
      let t := if s.beadClass n = 1 then x.arrivalNs else x.passEdgeNs
      .ok (s, (x.logOut (.flowdet lid cls dir speed t) 1).setSt .ok)) s

end Sys2Proof.Machine
end

