-- ==== Sys2Proof/Machine/IsaOutput.lean ====
section
/-! DEFINITION. Output instructions of Marric (03_marric_instruction_set.md R94 to R99). They log requests; EMIT acts on them
after the bar. -/

namespace Sys2Proof.Machine

/-- Stage a level for a LID: a second one replaces the first (R95). -/
def stage (lid level : Nat) : List (Nat × Nat) → List (Nat × Nat)
  | [] => [(lid, level)]
  | (l, v) :: rest => if l = lid then (l, level) :: rest else (l, v) :: stage lid level rest

/-- A staged level: clamped to 0 to 65,535. -/
def levelOf (w : Word) : Nat := (clampI w.toInt 0 65535).toNat

/-- The clamp changed the level. -/
def levelClamps (w : Word) : Bool := decide (w.toInt < 0 ∨ 65535 < w.toInt)

/-- The lanes of an LVL that stage a level. -/
def lvlTakes (m : Mpi) (lanterns : Nat) (w : Word) : Bool := decide (w.toNat < lanterns) && m.lantern w.toNat

/-- SAT counts the lanes that stage a level: a lane that R95 drops clamps nothing (DESIGN CHOICE, log entry 132). -/
def execLvl (r : Fin 16) (a : Fin 16) (b : VB) (k : Fin 4) (s : State) : Out :=
  issue r true 2 1 (fun s _ x =>
    let m := s.mpi x
    let lanterns := s.part.lanterns
    let js := x.lanes k
    let used := js.filter (fun j => lvlTakes m lanterns (x.rv a j))
    let levels := used.foldl (fun acc j => stage (x.rv a j).toNat (levelOf (x.rb b j)) acc) (x.openB.getD [])
    let st : Status := if lanesBeyond x a k lanterns then .range else if used.length < js.length then .auth else .ok
    let y := ({ x with openB := some levels, entries := x.entries + 16 }).setFl 4 (used.any (fun j => levelClamps (x.rb b j)))
    .ok (s, y.setSt st)) s

def execTlb (r : Fin 16) (a : Fin 32) (fade : BitVec 14) (s : State) : Out :=
  issue r true 3 1 (fun s _ x =>
    match x.openB with
    | none => .ok (s, x.setSt .invalid)
    | some levels =>
      let k0 := (x.rs a).toInt
      let k := clampI k0 2 250
      .ok (s, (({ x with openB := none }).logOut (.bcast levels k.toNat fade.toNat) 1).setSt (if k = k0 then .ok else .range))) s

/-- The first `len` bytes of the lanes of V[b], ascending. -/
def postPayload (x : Bead) (b : Fin 16) (len : Nat) : List Byte :=
  ((List.range 16).flatMap (fun j => leBytes 4 (x.rv b j).toNat)).take len

/-- The count of the next POST: from 4,194,303 on to 1 (R98). -/
def nextPost (n : Nat) : Nat := n % 4194303 + 1

def execPost (r : Fin 16) (d a : Fin 32) (b : Fin 16) (cmd : BitVec 8) (len : Fin 64) (s : State) : Out :=
  issue r true 4 2 (fun s n x =>
    if 56 < len.val then .error (.invalid, 0)
    else
      let lid := (x.rs a).toNat
      if s.part.lanterns ≤ lid then .ok (s, (x.ws d 0).setSt .range)
      else if !(s.mpi x).lantern lid then .ok (s, (x.ws d 0).setSt .auth)
      else if !recComm s.seenF lid then .ok (s, (x.ws d 0).setSt .invalid)
      else
        let c := nextPost x.posts
        let h := n * 2 ^ 22 + c
        let y := ({ x with posts := c }).logOut (.post h lid cmd.toNat (postPayload x b len)) (1 + ceilDiv len.val 8)
        .ok (s, (y.ws d (BitVec.ofNat 32 h)).setSt .ok)) s

/-- DRV's ready bit is asked for as of every instruction (01_architecture.md R22), after R97's own tests. -/
def execDrvset (r : Fin 16) (a b : Fin 32) (s : State) : Out :=
  issue r true 2 1 (fun s _ x =>
    let c := (x.rs a).toNat
    if s.part.chans ≤ c then .ok (s, x.setSt .range)
    else if !(s.mpi x).channel c then .error (.auth, 0)
    else if !s.ready 3 then .ok (s, x.setSt .notReady)
    else .ok (s, (x.logOut (.drvset c (levelOf (x.rs b))) 1).setSt .ok)) s

/-- The published headroom of the branches in a mask of TALLY: bits 0 to 5 F1 to F6, bit 6 UNFED, PWR_FEEDER index 7
(07 R205). -/
def State.maskHead (s : State) (mask : Nat) : Nat :=
  ((List.range 7).map (fun f => if mask.testBit f then s.fld R.PWR_FEEDER_HEAD_MW (if f = 6 then 7 else f) else 0)).sum

/-- What TALLY may promise: the smaller of the global remainder and the sum over the branches; a mask of 0 means those of the
bead's last committed pass, or every branch before its first (07 R205). -/
def State.headroom (s : State) (x : Bead) (mask : Nat) : Nat :=
  min (s.fld R.PWR_TALLY_HEAD_MW) (s.maskHead (if mask = 0 then x.branches.getD 127 else mask))

def execTally (r : Fin 16) (d a b : Fin 32) (s : State) : Out :=
  issue r true 3 1 (fun s _ x =>
    if !s.bit R.PWR_TALLY_STAT_READY then .ok (s, (x.ws d 0).setSt .notReady)
    else
      let mask := getBits (x.rs a) 0 7
      let mw := (x.rs b).toNat
      .ok (s, ((x.logOut (.tally mask mw) 1).ws d (BitVec.ofNat 32 (min mw (s.headroom x mask)))).setSt .ok)) s

end Sys2Proof.Machine
end

