-- ==== Sys2Proof/Machine/IsaControl.lean ====
section
/-! DEFINITION. Control flow of Marric (03_marric_instruction_set.md R100 to R103), but for EOI, which stands with the
fault unit's end of service. -/

namespace Sys2Proof.Machine

def execBr (r : Fin 16) (off : BitVec 16) (s : State) : Out :=
  issueWith r (decide (off ≠ 0)) 1 (fun s _ x => .ok (s, x.branchTo (x.pc + off.toNat))) (fun s _ => s) s

def execBrc (r : Fin 16) (cond : Fin 16) (off : BitVec 16) (s : State) : Out :=
  issueWith r (decide (off ≠ 0)) 1
    (fun s _ x => .ok (s, if x.cond cond then x.branchTo (x.pc + off.toNat) else x.seqTo (x.pc + 1))) (fun s _ => s) s

/-- Iterations of a LOOP: MAX + 1, or the smaller of that and S[a] (R100). -/
def loopCount (x : Bead) (a : Fin 32) (max : BitVec 12) : Nat :=
  if a.val = 0 then max.toNat + 1 else min (x.rs a).toNat (max.toNat + 1)

/-- Enter a LOOP, or skip its body. -/
def loopEnter (x : Bead) (count body : Nat) : Bead :=
  if count = 0 then x.seqTo (x.pc + 1 + body)
  else { x with pc := x.pc + 1, loops := ⟨count, x.pc + 1, x.pc + 1 + body, x.calls.length⟩ :: x.loops }

def execLoop (r : Fin 16) (a : Fin 32) (max : BitVec 12) (body : BitVec 9) (s : State) : Out :=
  issueWith r (decide (body ≠ 0)) 2 (fun s _ x => .ok (s, loopEnter x (loopCount x a max) body.toNat)) (fun s _ => s) s

def execCall (r : Fin 16) (addr : BitVec 16) (s : State) : Out :=
  issueWith r true 2 (fun s _ x => .ok (s, { x with calls := (x.pc + 1) :: x.calls, pc := addr.toNat })) (fun s _ => s) s

/-- RET with a return index: the loops pushed since the CALL are popped (R102). -/
def returnTo (x : Bead) : Bead :=
  match x.calls with
  | [] => x
  | pc :: rest => ({ x with calls := rest, loops := x.loops.filter (fun l => decide (l.depth ≤ rest.length)) }).seqTo pc

/-- The call stack of the bead issuing on rod r is empty. -/
def State.callsEmpty (s : State) (r : Nat) : Bool :=
  match s.curBead r with
  | some n => (s.bead n).calls.isEmpty
  | none => true

def execRet (r : Fin 16) (s : State) : Out :=
  issueWith r true 2 (fun s _ x => .ok (s, returnTo x)) (fun t n => if s.callsEmpty r then t.endPass n false else t) s

def execEvwait (r : Fin 16) (s : State) : Out :=
  issueWith r true 2 (fun s _ x => .ok (s, x)) (fun s n => s.endPass n false) s

def execHalt (r : Fin 16) (s : State) : Out :=
  issueWith r true 1 (fun s _ x => .ok (s, x)) (fun s n => s.endPass n true) s

def execNop (r : Fin 16) (s : State) : Out := issueReg r true 1 (fun x => x) s

def execRaise (r : Fin 16) (a : Fin 32) (n : BitVec 6) (s : State) : Out :=
  issue r (decide (a.val = 0 ∨ n = 0)) 2 1 (fun s _ x =>
    let k := if a.val = 0 then n.toNat else (x.rs a).toNat % 64
    if a.val ≠ 0 ∧ !(s.mpi x).raise k then .error (.auth, 0)
    else .ok (s.assertSrc (192 + k), { x with touched := true })) s

def execFault (r : Fin 16) (code : BitVec 14) (s : State) : Out :=
  issueWith r true 1 (fun _ _ _ => .error (.invalid, code.toNat)) (fun s _ => s) s

end Sys2Proof.Machine
end

