-- ==== Sys2Proof/Machine/LceOps.lean ====
section
/-! DEFINITION. The loop engine, the shared part (12_loop_engine.md R310, R318, R320, R321): opening and closing loops, and
their outputs. -/

namespace Sys2Proof.Machine

namespace State

/-- LCE_STAT[l].STATE: 0 OPEN, 1 CLOSED, 2 HOLD, 3 FORCED. -/
def loopState (s : State) (l : Nat) : Nat := s.fld R.LCE_STAT_STATE l

def setLoopState (s : State) (l st : Nat) : State := s.setFld R.LCE_STAT_STATE st l

/-- u_last as a signed number. -/
def loopU (s : State) (l : Nat) : Int := (s.rd (R.LCE_U_U.at l 0)).toInt

/-- The AOUT that loop l drives. -/
def loopAout (s : State) (l : Nat) : Option Nat :=
  let o := s.fld R.LCE_CFG_OUTSEL l
  if l = 0 ∨ o = 0 ∨ 2 < o then none else some (o - 1)

/-- u_last := u, and the bound AOUT takes it within its range. -/
def setLoopOut (s : State) (l : Nat) (u : Int) : State :=
  let s1 := s.setFldI R.LCE_U_U u l
  match s.loopAout l with
  | some k => s1.setFld R.LCE_AOUT_CODE (clampI u 0 65535).toNat k
  | none => s1

/-- Enter CLOSED: re-initialisation is due at the first sample (R318, R319). -/
def loopClose (s : State) (l : Nat) : State :=
  { (s.setLoopState l 1).setBit R.LCE_STAT_INFAULT false l with lce := { s.lce with reinit := SMap.set false s.lce.reinit l true } }

/-- Enter OPEN: the integrator and the output stay. -/
def loopOpen (s : State) (l : Nat) : State := (s.setLoopState l 0).setBit R.LCE_STAT_INFAULT false l

/-- The failsafe output of loop l: that of its AOUT. -/
def loopFailsafe (s : State) (l : Nat) : Int :=
  match s.loopAout l with
  | some k => s.fld R.LCE_AOUT_FS_CODE k
  | none => s.loopU l

/-- GARNET: CLOSED and HOLD loops without GKEEP open with their failsafe outputs. -/
def loopsGarnet (s : State) : State :=
  ([1, 2, 3] : List Nat).foldl (fun t l =>
    if (t.loopState l = 1 ∨ t.loopState l = 2) ∧ !t.bit R.LCE_CFG_GKEEP l then
      (t.loopOpen l).setLoopOut l (t.loopFailsafe l)
    else t) s

/-- The override switch acts on loops with FORCE = 1: position 1 FORCE ON, 2 FORCE OFF, 0 AUTO. -/
def loopsSwitch (s : State) (pos : Nat) : State :=
  ([1, 2, 3] : List Nat).foldl (fun t l =>
    if !t.bit R.LCE_CFG_FORCE l then t
    else if pos = 0 then
      if t.loopState l = 3 then (if SMap.find 0 t.lce.left l = 0 then t.loopOpen l else t.loopClose l) else t
    else
      let t1 := if t.loopState l = 3 then t
        else { t.setLoopState l 3 with lce := { t.lce with left := SMap.set 0 t.lce.left l (t.loopState l) } }
      t1.setLoopOut l (if pos = 1 then t.loopFailsafe l else 0)) s

/-- ONYX: every loop opens and the AOUTs go to 0 V. -/
def loopsOnyx (s : State) : State :=
  let s1 := ([0, 1, 2, 3] : List Nat).foldl (fun t l => (t.loopOpen l).setLoopOut l 0) s
  (s1.setFld R.LCE_AOUT_CODE 0 0).setFld R.LCE_AOUT_CODE 0 1

/-- The AOUTs take their failsafe outputs, LOOP[1] to LOOP[3] stay OPEN with u_last equal to that (R321). -/
def loopsFailsafe (s : State) : State :=
  let s1 := ([0, 1] : List Nat).foldl (fun t k => t.setFld R.LCE_AOUT_CODE (t.fld R.LCE_AOUT_FS_CODE k) k) s
  ([1, 2, 3] : List Nat).foldl (fun t l => (t.loopOpen l).setLoopOut l (t.loopFailsafe l)) s1

/-- LOOP[0] follows the bus (R320): CLOSED from OFF's end, OPEN with u := 0 in OFF and SHUTDOWN. -/
def loop0 (s : State) (on : Bool) : State :=
  if on then (if s.loopState 0 = 0 then s.loopClose 0 else s) else (s.loopOpen 0).setLoopOut 0 0

end State
end Sys2Proof.Machine
end

