-- ==== Sys2Proof/Machine/DrvOps.lean ====
section
/-! DEFINITION. Local drive, the shared part (11_local_drive.md): set currents, output levels and fades, the bus states and
their set-point, the feeder coils. The commands of the unit stand in Drv. -/

namespace Sys2Proof.Machine

namespace State

/-! ### Channels (R288 to R292) -/

def dchan (s : State) (c : Nat) : DrvChan := SMap.find {} s.drv.chans c

def setDchan (s : State) (c : Nat) (x : DrvChan) : State :=
  { s with drv := { s.drv with chans := SMap.set {} s.drv.chans c x } }

/-- DRV_CHAN_CFG[c] in force. -/
def chanCfg (s : State) (c : Nat) : Word := SMap.find 0x07FF0000 s.drv.cfg c

/-- A channel is fitted and enabled. -/
def chanOn (s : State) (c : Nat) : Bool := decide (c < s.part.chans) && (s.chanCfg c).getLsbD 15

/-- The enabled channels. -/
def chansOn (s : State) : List Nat := (List.range s.part.chans).filter s.chanOn

/-- I[c] in units of 1 mA / 261,888, from ISET and a CHAN_CFG word (R288). -/
def setCurrent (iset : Nat) (cfg : Word) : Nat := 350 * (iset + 1) * getBits cfg 0 10

/-- DRV_STAT.MODE: 0 OFF, 1 START, 2 SERVICE, 3 TEST, 4 RECOVERY, 5 SHUTDOWN. -/
def drvMode (s : State) : Nat := s.fld R.DRV_STAT_MODE


end State

/-- A PWM period of depth b in ns: 2^b counts of 6.25 ns (R291). -/
def periodLen (b : Nat) : Nat := 25 * 2 ^ b / 4

/-- The depth of a group at a module time, and a period boundary from which its periods count. -/
def PwmGrp.at (g : PwmGrp) (ns : Nat) : Nat × Nat := if g.fromNs ≤ ns then (g.next, g.fromNs) else (g.bits, g.origin)

/-- The start of the group's period that holds a module time, and the first boundary not before it. -/
def PwmGrp.start (g : PwmGrp) (ns : Nat) : Nat := ns - (ns - (g.at ns).2) % periodLen (g.at ns).1
def PwmGrp.boundary (g : PwmGrp) (ns : Nat) : Nat :=
  (g.at ns).2 + ceilDiv (ns - (g.at ns).2) (periodLen (g.at ns).1) * periodLen (g.at ns).1

/-- The level of a fade at a module time: linear from its start to its goal, and before its start the level it leaves (R292). -/
def DrvChan.levelAt (x : DrvChan) (ns : Nat) : Nat :=
  if x.startNs + x.fadeNs ≤ ns then x.goal
  else
    let up := decide (x.base ≤ x.goal)
    let num := (if up then x.goal - x.base else x.base - x.goal) * (ns - x.startNs)
    let q := num / x.fadeNs + (if num % x.fadeNs ≠ 0 ∧ Config.fadeUp num x.fadeNs then 1 else 0)
    if up then x.base + q else x.base - q

namespace State

/-- The sinks work: not for ONYX, not with the bus in OFF or SHUTDOWN. -/
def sinksOn (s : State) : Bool := !s.drv.off && decide (s.drvMode ≠ 0 ∧ s.drvMode ≠ 5)

/-- The PWM of channel c's group, and its depth b now. -/
def pwmGrp (s : State) (c : Nat) : PwmGrp := SMap.find {} s.drv.pwm (c / 8)
def depth (s : State) (c : Nat) : Nat := ((s.pwmGrp c).at s.nowNs).1

/-- The level of channel c at a module time, which changes at its group's period boundaries only (R292). -/
def chanLevel (s : State) (c ns : Nat) : Nat := (s.dchan c).levelAt ((s.pwmGrp c).start ns)

/-- The output level of channel c at a module time: 0 when it is disabled, its sink held off (R301) or the sinks stopped. -/
def chanOut (s : State) (c ns : Nat) : Nat :=
  if s.chanOn c ∧ s.sinksOn ∧ s.fld R.DRV_CHAN_DIAG_STATE c ≠ 1 then s.chanLevel c ns else 0

/-! ### The bus (R296, R297) -/

/-- The set-point in 10 mV now. -/
def setPoint (s : State) : Nat :=
  let d := s.drv
  let step := (s.nowNs - d.rampNs) * d.rampRate / 1000000
  if d.rampFrom ≤ d.rampTo then min d.rampTo (d.rampFrom + step) else max d.rampTo (d.rampFrom - step)

/-- Ramp the set-point from a value to a value at a rate in 10 mV per ms. -/
def ramp (s : State) (a b rate : Nat) : State :=
  { s with drv := { s.drv with rampFrom := a, rampTo := b, rampNs := s.nowNs, rampRate := rate } }

def vmax (s : State) : Nat := s.fld R.DRV_BUS_CFG_VMAX * 100

/-- Forget which channels have been measured in the present bus state. -/
def clearMeasured (s : State) : State :=
  (List.range s.part.chans).foldl (fun t c => t.setDchan c { t.dchan c with measured := false, fit := 0, seen := false }) s

/-- The bus goes to OFF: sinks and boost stage off. -/
def busOff (s : State) : State := (((s.setFld R.DRV_STAT_MODE 0).setBit R.DRV_STAT_HANDOVER false).ramp 0 0 0).loop0 false

/-- START: the set-point leaves VLEDIN at 10 V/ms. -/
def busStart (s : State) : State :=
  ((((s.setFld R.DRV_STAT_MODE 1).setBit R.DRV_STAT_HANDOVER false).clearMeasured).ramp (s.fld R.DRV_VLEDIN_V) s.vmax
    1000).loop0 true

/-- RECOVERY: the set-point leaves the bus voltage at 10 V/ms. -/
def busRecovery (s : State) : State :=
  (((s.setFld R.DRV_STAT_MODE 4).setBit R.DRV_STAT_HANDOVER false).clearMeasured).ramp (s.fld R.DRV_BUS_STAT_VBUS) s.vmax 1000

/-- START when nothing forbids it: VAUX valid with the store read, VLEDIN at 18 V, EN set, not shut down. -/
def busTry (s : State) : State :=
  if s.drvMode = 0 ∧ s.drv.storeRead ∧ !s.drv.off ∧ s.bit R.DRV_CTRL_EN ∧ 1800 ≤ s.fld R.DRV_VLEDIN_V then s.busStart else s

/-! ### Levels (R292 to R294, R304, R305) -/

/-- Channel c moves to a level over a fade, from its present level and from the next period boundary of its group; a level change restarts the count of R300, which during a fade every
period does. A channel without a learned voltage that leaves level 0
in SERVICE starts RECOVERY (R296). -/
def chanMove (s : State) (c level fadeMs source : Nat) : State :=
  let old := s.chanLevel c s.nowNs
  let x := s.dchan c
  let same := decide (old = level ∧ x.goal = level)
  let from_ := (s.pwmGrp c).boundary s.nowNs
  let s1 := s.setDchan c { x with
    base := old, goal := level, startNs := from_, fadeNs := fadeMs * 1000000, source := source
    countNs := if same then x.countNs else from_ + fadeMs * 1000000 }
  let s2 := s1.setFld R.DRV_CHAN_LEVEL_SOURCE source c
  if s.drvMode = 2 ∧ s.chanOn c ∧ old = 0 ∧ x.goal = 0 ∧ level ≠ 0 ∧ s.fld R.DRV_CHAN_VF_LEARNED c = 0 then s2.busRecovery else s2

/-- The position of the override switch. -/
def switchPos (s : State) : Nat := s.fld R.DRV_STAT_SWITCH

/-- A staged level takes effect unless the switch forces the channels (R194, R305). -/
def chanTake (s : State) (x : DrvStaged) : State :=
  if s.switchPos = 0 then s.chanMove x.chan x.level x.fadeMs x.source else s

/-- R295: the full-level load of channel c in mW, 0 for one that is off, OPEN or shut down. -/
def chanFull (s : State) (c : Nat) : Nat :=
  if s.chanOn c ∧ s.sinksOn ∧ s.fld R.DRV_CHAN_DIAG_STATE c ≠ 1 then
    let l := s.fld R.DRV_CHAN_VF_LEARNED c
    let vf := if l = 0 then s.vmax else l
    vf * setCurrent s.drv.iset (s.chanCfg c) / (100 * 261888)
  else 0

/-! ### Feeders (R305 to R307) -/

def feeder (s : State) (f : Nat) : DrvFeeder := SMap.find {} s.drv.feeders f

def setFeeder (s : State) (f : Nat) (x : DrvFeeder) : State :=
  { s with drv := { s.drv with feeders := SMap.set {} s.drv.feeders f x } }

/-- The feedback input after polarity. -/
def fbValue (s : State) (f : Nat) : Bool := (s.feeder f).raw != s.bit R.DRV_FEEDER_CFG_FB_POL f

/-- Show the feedback, CLOSED when it follows it, and clear FAULT when it agrees with the output (R307). -/
def syncFeedback (s : State) (f : Nat) : State :=
  let v := s.fbValue f
  let s1 := s.setBit R.DRV_FEEDER_STAT_FB v f
  if s.bit R.DRV_FEEDER_CFG_FB_EN f then
    let s2 := s1.setBit R.DRV_FEEDER_STAT_CLOSED v f
    if v = (s.feeder f).out then s2.setBit R.DRV_FEEDER_STAT_FAULT false f else s2
  else s1.setBit R.DRV_FEEDER_STAT_FAULT false f

/-- What the output of feeder f is to be. -/
def feederWant (s : State) (f : Nat) : Bool :=
  if s.drv.off ∨ !s.drv.storeRead then false
  else if s.switchPos = 1 then true
  else if s.switchPos = 2 then false
  else s.bit R.DRV_FEEDER_CMD_CLOSE f

/-- The limits of R306 hold a change back: 5 s from the last change of the output, 500 ms from the last closing. -/
def feederHeld (s : State) (f : Nat) (close : Bool) : Bool :=
  let recent (t : Option Nat) (d : Nat) : Bool := match t with
    | some x => decide (s.nowNs < x + d)
    | none => false
  recent (s.feeder f).changeNs 5000000000 || (close && recent s.drv.closeNs 500000000)

/-- Bring the output of feeder f to what it is to be, or hold it PENDING. Forced and inert outputs act at once. -/
def coil (s : State) (f : Nat) : State :=
  let want := s.feederWant f
  let x := s.feeder f
  let s0 := s.setBit R.DRV_FEEDER_STAT_FORCED (decide (s.switchPos ≠ 0)) f
  if want = x.out then s0.setBit R.DRV_FEEDER_STAT_PENDING false f
  else if s.switchPos = 0 ∧ s.pwr.paused ∧ !s.drv.off then s0
  else if s.switchPos = 0 ∧ s.drv.storeRead ∧ !s.drv.off ∧ s.feederHeld f want then
    s0.setBit R.DRV_FEEDER_STAT_PENDING true f
  else
    let s1 := s0.setFeeder f { x with out := want, changeNs := some s.nowNs }
    let s2 := if want then { s1 with drv := { s1.drv with closeNs := some s.nowNs } } else s1
    (s2.setBit R.DRV_FEEDER_STAT_PENDING false f).syncFeedback f

/-- All six, closings in ascending order. -/
def coils (s : State) : State := (List.range 6).foldl coil s

/-- A write of DRV_FEEDER_CMD[f] takes effect (R306). -/
def feederCmd (s : State) (f : Nat) (close : Bool) : State :=
  let s1 := s.setBit R.DRV_FEEDER_CMD_CLOSE close f
  (s1.setFeeder f { s1.feeder f with written := true }).coil f

/-- ONYX: coils, sinks and boost stage off (R308). -/
def drvPowerOff (s : State) : State := ({ s with drv := { s.drv with off := true } }.busOff).coils

/-! ### Hand-over fades (07 R146, R197; R293) -/

/-- FADE_MIN of a group; out of range it is taken as 2,000. -/
def fadeMin (s : State) (g : Nat) : Nat :=
  let v := memNat fDflt s.fmem (0x208000 + 8 * g) 2
  if 100 ≤ v ∧ v ≤ 60000 then v else 2000

/-- The largest FADE_MIN of some groups; 2,000 without a group. -/
def fadeOf (s : State) (groups : List Nat) : Nat :=
  if groups.isEmpty then 2000 else groups.foldl (fun m g => max m (s.fadeMin g)) 0

/-- ho_fade (R197). -/
def hoFade (fm new old : Nat) : Nat := ceilDiv (fm * (if new ≤ old then old - new else new - old)) 65535

/-- The groups of a channel: its one group, or none for 0x7FF. -/
def chanGroups (s : State) (c : Nat) : List Nat :=
  let g := getBits (s.chanCfg c) 16 11
  if g < 1024 then [g] else []

/-- Channel c is handed over to a level of a new source (R197), at most 65,535 ms. -/
def chanHandover (s : State) (c level asked source : Nat) : State :=
  s.chanMove c level (min 65535 (max asked (hoFade (s.fadeOf (s.chanGroups c)) level (s.chanOut c s.nowNs)))) source

end State
end Sys2Proof.Machine
end

