-- ==== Sys2Proof/Machine/KeyOps.lean ====
section
/-! DEFINITION. Key slots, the shared part (17_keys_and_attestation.md): halves and commit records, and the material in force. -/

namespace Sys2Proof.Machine

/-! ### Slots -/

/-- USAGE bits that a type permits, as bits of KEY_SLOT_CFG.USAGE: SIGN 0, VERIFY 1, ENCRYPT 2, MAC 3, WRAP 4, SEAL 5, DERIVE 6
(R387). -/
def typeUsage (typ : Nat) : Nat := ([0, 1, 2, 28, 96, 2, 20, 2] : List Nat).getD typ 0

/-- Half h of a slot. -/
def KeySlot.half (x : KeySlot) (h : Nat) : Option KeyHalf := if h = 0 then x.a else x.b

/-- A copy of the commit record names a half of good integrity with its SEQ: the half is committed (R390). -/
def KeySlot.named (x : KeySlot) (c : Option KeyCopy) : Option (Nat × KeyHalf) :=
  match c with
  | some k =>
    match x.half k.half with
    | some h => if k.good ∧ h.seq = k.seq ∧ h.good then some (k.half, h) else none
    | none => none
  | none => none

/-- The winner of recovery: the named half of the highest SEQ (R391 step 3). -/
def KeySlot.winner (x : KeySlot) : Option (Nat × KeyHalf) :=
  match x.named x.one, x.named x.two with
  | some p, some q => if p.2.seq < q.2.seq then some q else some p
  | some p, none => some p
  | none, q => q

/-- The slot has held something. -/
def KeySlot.used (x : KeySlot) : Bool := x.one.isSome || x.two.isSome

/-- A kept copy of the commit record names half h. -/
def KeySlot.keeps (x : KeySlot) (h : Nat) : Bool :=
  [x.one, x.two].any (fun c => match c with
    | some k => k.good && decide (k.half = h ∧ (x.half h).map (fun y => y.seq) = some k.seq)
    | none => false)

/-- The half that a replacement writes: not the active one. -/
def KeySlot.spare (x : KeySlot) : Nat :=
  match x.winner with
  | some (0, _) => 1
  | _ => 0

/-- The highest commit sequence and generation that the slot still shows. -/
def KeySlot.topSeq (x : KeySlot) : Nat :=
  max (max ((x.a.map (fun h => h.seq)).getD 0) ((x.b.map (fun h => h.seq)).getD 0))
    (max ((x.one.map (fun c => c.seq)).getD 0) ((x.two.map (fun c => c.seq)).getD 0))

def KeySlot.topGen (x : KeySlot) : Nat := max ((x.a.map (fun h => h.gen)).getD 0) ((x.b.map (fun h => h.gen)).getD 0)

/-- Put a half. -/
def KeySlot.put (x : KeySlot) (h : Nat) (y : Option KeyHalf) : KeySlot := if h = 0 then { x with a := y } else { x with b := y }

/-- The next invocation counter: it is written to NAND again before it passes what a start would resume from, so that no value comes
twice (R396). -/
def KeySlot.tick (x : KeySlot) : KeySlot :=
  { x with counter := x.counter + 1, saved := if x.saved + 2 ^ 20 ≤ x.counter + 1 then x.counter + 1 else x.saved }

/-- The IV of a SEAL: slot index and invocation counter. -/
def KeySlot.iv (x : KeySlot) (k : Nat) : List Byte := leBytes 4 k ++ leBytes 8 x.counter

/-- Recovery of a slot (R391): a half that no kept copy names is erased, and after the copies name the winner, so is the other. The
invocation counter goes 2^20 above what NAND holds, and is written there (R396). -/
def KeySlot.recover (x : KeySlot) : KeySlot :=
  match x.winner with
  | none =>
    { x with a := if x.keeps 0 then x.a else none, b := if x.keeps 1 then x.b else none
             mat := none, dueNs := none, rederive := false, counter := x.saved + 2 ^ 20, saved := x.saved + 2 ^ 20 }
  | some (h, k) =>
    let c : Option KeyCopy := some ⟨h, k.seq, true⟩
    { x with a := if h = 0 then some k else none, b := if h = 0 then none else some k, one := c, two := c
             mat := if k.derived then none else some k.mat, dueNs := none, rederive := false, counter := x.saved + 2 ^ 20
             saved := x.saved + 2 ^ 20 }

/-- HKDF-SHA-256 of `l` bytes. -/
def hkdf (ikm salt info : List Byte) (l : Nat) : List Byte := fitBytes l (Config.hkdf ikm salt info l)

/-- AES key wrap gives 8 bytes more than the key has. -/
def wrapKey (kek key : List Byte) : List Byte := fitBytes (key.length + 8) (Config.keyWrap kek key)

/-- AES key unwrap of whole 64-bit blocks, three at least, to a key of a length. -/
def unwrapKey (kek w : List Byte) (l : Nat) : Option (List Byte) :=
  if w.length = l + 8 ∧ w.length % 8 = 0 ∧ 24 ≤ w.length then (Config.keyUnwrap kek w).map (fitBytes l) else none

/-- The info of a derived slot: LABEL, slot index, GEN (R395). -/
def deriveInfo (label : List Byte) (k gen : Nat) : List Byte := fitBytes 16 label ++ leBytes 1 k ++ leBytes 4 gen

/-- The key that a slot derives from its parent's: the salt is the BMR, and 32 bytes result. -/
def derivedKey (parent bmr label : List Byte) (k gen : Nat) : List Byte := hkdf parent bmr (deriveInfo label k gen) 32

/-- The join key of a node: info is the ASCII string GHEORN-JOIN and the EUI-64 (R397). -/
def joinKey (root : List Byte) (eui : Nat) : List Byte :=
  hkdf root (List.replicate 32 0) ([0x47, 0x48, 0x45, 0x4F, 0x52, 0x4E, 0x2D, 0x4A, 0x4F, 0x49, 0x4E] ++ leBytes 8 eui) 16

namespace State

def keySlot (s : State) (k : Nat) : KeySlot := SMap.find {} s.key.slots k

def setKeySlot (s : State) (k : Nat) (x : KeySlot) : State :=
  { s with key := { s.key with slots := SMap.set {} s.key.slots k x } }

def keyState (s : State) (k : Nat) : Nat := s.fld R.KEY_SLOT_STAT_STATE k

/-- The active half. -/
def keyActive (s : State) (k : Nat) : Option KeyHalf := (s.keySlot k).winner.map (fun p => p.2)

/-- The material in force of a valid slot. -/
def keyMat (s : State) (k : Nat) : Option (List Byte) :=
  if s.keyState k = 1 ∨ s.keyState k = 4 then (s.keySlot k).mat else none

/-- What a slot permits: its type's usage and its policy's USAGE (R387). -/
def keyUsage (s : State) (k : Nat) : Nat := s.fld R.KEY_SLOT_CFG_USAGE k &&& typeUsage (s.fld R.KEY_SLOT_CFG_TYPE k)

/-- A valid slot of a type that permits a usage bit. -/
def keyPermits (s : State) (k typ bit : Nat) : Bool :=
  decide (s.keyState k = 1 ∨ s.keyState k = 4) && decide (s.fld R.KEY_SLOT_CFG_TYPE k = typ) && (s.keyUsage k).testBit bit

/-- The status that an operation on a slot meets before it runs (R391, R399); an empty slot permits nothing. -/
def keyStatus (s : State) (k : Nat) : Status :=
  match s.keyState k with
  | 1 => .ok
  | 4 => .ok
  | 2 => .integrity
  | 3 => .revoked
  | _ => .auth

/-- What an operation that needs a usage bit gets of slot k: OK and its material, or the status that answers it. -/
def keyUse (s : State) (k bit : Nat) : Status × List Byte :=
  match s.keyStatus k, (s.keySlot k).mat with
  | .ok, some m => if (s.keyUsage k).testBit bit then (.ok, m) else (.auth, [])
  | .ok, none => (.revoked, [])
  | st, _ => (st, [])

/-- The key that slot k lends to a usage, if it does. -/
def keyLent (s : State) (k bit : Nat) : Option (List Byte) :=
  match s.keyUse k bit with
  | (.ok, m) => some m
  | _ => none

/-- A signature checked under slot k. -/
def keyVerify (s : State) (k : Nat) (msg sig : List Byte) : Status :=
  match s.keyUse k 1 with
  | (.ok, m) => if Config.sigValid m msg sig then .ok else .auth
  | (st, _) => st

/-- KEY[0] signs for the module: tokens, and TLS and DTLS authentication (R387). -/
def keySigns (s : State) : Bool := (s.keyLent 0 0).isSome

end State
end Sys2Proof.Machine
end

