-- ==== Sys2Proof/Machine/LinkOps.lean ====
section
/-! DEFINITION. Radio and links, the shared part (08_radio_air_interface.md, 09_radio_links.md): airtimes, hop maps and
channels, routes, the timed launch queues, the downlink queue and the connections. -/

namespace Sys2Proof.Machine

/-- Airtime of n octets in a mode, ns (R218). -/
def airNs (mode n : Nat) : Nat := n * 160000 / (mode + 1)

/-- Channel spacing of a mode, kHz (R218). -/
def spacing (mode : Nat) : Nat := if mode < 2 then 200 else 400

/-- Channels of a band and mode (R220). -/
def chanCount (bandU : Bool) (mode : Nat) : Nat := if bandU then (if mode < 2 then 129 else 64) else (if mode < 2 then 34 else 17)

/-- Centre frequency, kHz (R220). -/
def chanFreq (bandU : Bool) (mode n : Nat) : Nat :=
  (if bandU then (if mode < 2 then 902200 else 902400) else (if mode < 2 then 863125 else 863225)) + n * spacing mode

/-- Entries of a 64-bit channel map, ascending. -/
def mapEntries (m : Nat) : List Nat := (List.range 64).filter (fun i => m.testBit i)

/-- The chain of parents of a LID up to the module, as the route from the first hop (09 R260): none when it does not reach the
module in the links still allowed, repeats a LID, or leaves the commissioned records. -/
def routeFrom (f : SMap Byte) : Nat → Nat → List Nat → Option (List Nat)
  | 0, _, _ => none
  | n + 1, lid, seen =>
    if seen.contains lid ∨ !recComm f lid then none
    else
      let p := recNat f lid 0x52 2
      if p = 0xFFFF then some (lid :: seen) else routeFrom f n p (lid :: seen)

/-- The chain of parents repeats a LID among the first `n` records; it ends where it leaves the commissioned ones. -/
def routeLoops (f : SMap Byte) (lanterns : Nat) : Nat → Nat → List Nat → Bool
  | 0, _, _ => false
  | n + 1, lid, seen =>
    if seen.contains lid then true
    else if lanterns ≤ lid ∨ !recComm f lid then false
    else
      let p := recNat f lid 0x52 2
      if p = 0xFFFF then false else routeLoops f lanterns n p (lid :: seen)

namespace State

/-! ### Maps and channels (R221, R240 to R242) -/

/-- The hop map of a generation. -/
def hopMap (s : State) (gen2 : Bool) : Nat := s.fld (if gen2 then R.RAD_LINK_CFG_HOP2 else R.RAD_LINK_CFG_HOP1)

def hopValid (s : State) (h : Nat) : Bool := s.bit R.RAD_HOP_CFG_VALID h

def hopMode (s : State) (h : Nat) : Nat := s.fld R.RAD_HOP_CFG_MODE h

/-- Entry i of hop map h. -/
def hopEntry (s : State) (h i : Nat) : Nat := getBits (s.rd (R.RAD_HOP_ENT_CHAN.at (16 * h + i / 4) 0)) (8 * (i % 4)) 8

/-- The channel of depth d in period k under a channel map (R240). -/
def chanOf (s : State) (h map k d : Nat) : Nat :=
  let u := mapEntries map
  s.hopEntry h (u.getD ((k + d) % u.length) 0)

/-- Network time in ms. -/
def nowMs (s : State) : Nat := s.nowNs / 1000000

/-- Check interval code to ms: 0 for CI = 0. -/
def ciMs (code : Nat) : Nat := if code = 0 then 0 else 125 * 2 ^ (code - 1)

def conn (s : State) (lid : Nat) : Conn := SMap.find {} s.links.conns lid

def setConn (s : State) (lid : Nat) (c : Conn) : State :=
  { s with links := { s.links with conns := SMap.set {} s.links.conns lid c } }

/-- The connection of a LID exists. -/
def connected (s : State) (lid : Nat) : Bool := decide (1 ≤ (s.conn lid).st ∧ (s.conn lid).st ≤ 3)

/-- Some connection exists. -/
def anyConn (s : State) : Bool := s.links.conns.any (fun e => decide (1 ≤ e.2.st ∧ e.2.st ≤ 3))

def anyGen1 (s : State) : Bool := s.links.conns.any (fun e => decide (1 ≤ e.2.st ∧ e.2.st ≤ 3) && !e.2.gen2)

/-! ### Routes (R260) -/

/-- The route to a lantern over committed records. -/
def route (s : State) (lid : Nat) : Option (List Nat) := routeFrom s.fmem 8 lid []

/-- The lantern can be reached: its chain is valid, the module's own link in it is not dropped, and no ROUTE_ERR names it. -/
def routeOk (s : State) (lid : Nat) : Bool :=
  match s.route lid with
  | some r => decide ((s.conn (r.headD lid)).st ≠ 4) && !s.links.failed.contains lid
  | none => false

/-- REACHABLE of the committed record. -/
def reachable (s : State) (lid : Nat) : Bool := (s.lan lid 0x4E 2).testBit 0

/-- The first hop towards a lantern. -/
def firstHop (s : State) (lid : Nat) : Option Nat :=
  match s.route lid with
  | some (h :: _) => some h
  | _ => none

/-- The descendants of a hop, with it. -/
def subtree (s : State) (hop : Nat) : List Nat :=
  (List.range s.part.lanterns).filter (fun l =>
    recComm s.fmem l && (match s.route l with
      | some r => r.contains hop
      | none => decide (l = hop)))

/-- The source route of a downlink unicast beyond depth 1: the relays, then the destination. -/
def sourceRoute (s : State) (dest : Nat) : List Nat :=
  match s.route dest with
  | some r => if 2 ≤ r.length then r else []
  | none => []

/-- The first hop of an item: that of its route, or the destination itself. -/
def itemHop (s : State) (i : DownItem) : Nat := (s.firstHop i.dest).getD i.dest

/-! ### Frame pending (R227, R246) -/

/-- The item is a JOIN_RSP. -/
def isJoinRsp (i : DownItem) : Bool := match i.msg with
  | .joinRsp _ _ _ _ _ _ => true
  | _ => false

/-- The JOIN_RSP for an EUI-64. -/
def isJoinFor (eui : Nat) (i : DownItem) : Bool := match i.msg with
  | .joinRsp e _ _ _ _ _ => decide (e = eui)
  | _ => false

/-- An item for a first hop can go out once that hop listens: its time has come, the connection stands, its hop map is valid and the
destination is reachable, but for link frames (R246, R260, R263). The parts of a timed broadcast are offered ahead of their time. -/
def ripe (s : State) (i : DownItem) : Bool :=
  let a := s.itemHop i
  !(decide (i.cls ≠ 1) && decide (s.nowNs < i.due)) && s.connected a && s.hopValid (s.hopMap (s.conn a).gen2) &&
    (i.link || s.reachable i.dest)

/-- A downlink item that can be launched is held for first hop a. -/
def pendOf (s : State) (a : Nat) : Bool :=
  s.links.queue.any (fun i => decide (i.dest < 0x4000) && decide (s.itemHop i = a) && s.ripe i)

/-! ### Timed launch queues (08 R235 to R237) -/

def tlqOf (s : State) (x : Nat) : List TlqEntry := SMap.find [] s.rad.tlq x

def setTlq (s : State) (x : Nat) (q : List TlqEntry) : State :=
  ({ s with rad := { s.rad with tlq := SMap.set [] s.rad.tlq x q } }).setFld R.RAD_TLQ_STAT_DEPTH q.length x

/-- Transmit-area octets in use by the launch queues and the acknowledgements: 524,288 at most (R229). -/
def txArea (s : State) : Nat :=
  (((s.tlqOf 0) ++ (s.tlqOf 1)).map (fun e => e.octets)).sum + (s.rad.acks.map (fun a => a.octets)).sum

/-- The last-gasp report, the one entry that goes out in ONYX (R238). -/
def isLastGasp (i : DownItem) : Bool := match i.msg with
  | .lastGasp _ => true
  | _ => false

/-- Insert in ascending D, then class, then order of offering (R236). -/
def insertTlq (e : TlqEntry) : List TlqEntry → List TlqEntry
  | [] => [e]
  | q :: qs => if e.due < q.due ∨ (e.due = q.due ∧ e.cls < q.cls) then e :: q :: qs else q :: insertTlq e qs

/-- The greatest legal power in steps of 0.5 dB (R233). -/
def maxPower (s : State) : Int := if s.part.bandU then 40 else 28

/-- Offer an entry to a transceiver's queue (R235). -/
def tlqOffer (s : State) (x : Nat) (e : TlqEntry) : Status × State :=
  if 64 ≤ (s.tlqOf x).length ∨ 524288 < s.txArea + e.octets then (.noSpace, s)
  else if e.due + s.fld R.RAD_TLQ_CFG_LATE_LIMIT x * 1000 < s.nowNs then (.late, s)
  else if s.nowNs + 60000000000 < e.due ∨ 3 < e.mode ∨ chanCount s.part.bandU e.mode ≤ e.chan ∨ e.power < -20 ∨
      s.maxPower < e.power then (.range, s)
  else if !s.ready (11 + x) ∨ (s.pwr.mode = .onyx ∧ !isLastGasp e.item) then (.notReady, s)
  else (.ok, s.setTlq x (insertTlq e (s.tlqOf x)))

/-- The power setting of a transceiver. -/
def txPower (s : State) (x : Nat) : Int := s.fldI R.RAD_TXPWR_MAX x

/-- Octets ahead of the PHR: preamble and SFD. -/
def headOctets (s : State) : Nat := s.fld R.RAD_PREAMBLE_OCTETS + 2

/-! ### The downlink queue (09 R261 to R264) -/

/-- Queue an item. -/
def enqueue (s : State) (i : DownItem) : State := { s with links := { s.links with queue := s.links.queue ++ [i] } }

/-- The PSDU of a LAP payload: 13 octets of MAC header and FCS around it. -/
def lapOctets (payload : Nat) : Nat := payload + 13

/-- The longest check interval of the module's own sampling children, ms; 0 without one. -/
def sampleCi (s : State) : Nat :=
  s.links.conns.foldl (fun m e => if 1 ≤ e.2.st ∧ e.2.st ≤ 3 ∧ e.2.gen2 then max m (ciMs e.2.ci) else m) 0

/-- A broadcast's items for the Gen-2 mesh: one at its time for the children that listen, and while some child samples a second one behind a
wake-up sequence (R245, R262; DEDUCED, log entry 143). -/
def meshItems (s : State) (i : DownItem) : List DownItem := if s.sampleCi = 0 then [i] else [i, { i with sampling := true }]

/-- Queue a message to 0xFFFF. -/
def enqueueMesh (s : State) (i : DownItem) : State := (s.meshItems i).foldl enqueue s

/-- Queue a broadcast message: for the Gen-2 mesh, and one item for each Gen-1 node (R249, R262). -/
def enqueueAll (s : State) (cls : Nat) (m : Msg) (octets due : Nat) : State :=
  let s1 := if s.hopValid (s.hopMap true) then s.enqueueMesh ⟨cls, false, 0xFFFF, m, octets, due, false⟩ else s
  ((s.links.conns.filter (fun e => decide (1 ≤ e.2.st ∧ e.2.st ≤ 3) && !e.2.gen2)).map (fun e => e.1)).foldl
    (fun t lid => t.enqueue ⟨cls, false, lid, m, octets, due, false⟩) s1

/-- An entry that ended with LATE or NOT_READY is back with the links layer (08 R237): its item waits again, ahead of the others. A
resync beacon, a last-gasp report and a broadcast that was late are not sent again. -/
def returnItem (s : State) (i : DownItem) (late : Bool) : State :=
  match i.msg with
  | .beacon _ _ _ _ => s
  | .lastGasp _ => s
  | _ => if late ∧ i.dest = 0xFFFF then s else { s with links := { s.links with queue := i :: s.links.queue } }

/-- Offer an entry; refused, its item is back in the downlink queue. -/
def tlqPut (s : State) (x : Nat) (e : TlqEntry) : State :=
  match s.tlqOffer x e with
  | (.ok, t) => t
  | (st, _) => s.returnItem e.item (decide (st = Status.late))

/-- The next 8-bit MAC sequence number. -/
def nextSeq (s : State) : Nat × State :=
  (s.links.seq, { s with links := { s.links with seq := (s.links.seq + 1) % 256 } })

/-- The first instant at or after `t` at which a frame to a node with CI = 0 may begin (R247). -/
def beginAfter (t : Nat) : Nat :=
  let p := t % 125000000
  if p < 1000000 then t - p + 1000000
  else if 124000000 < p then t - p + 126000000
  else t

/-- Octets of a wake-up frame on air: preamble, SFD, PHR and a 12-octet PSDU (R245). -/
def wakeOctets (s : State) : Nat := s.fld R.RAD_PREAMBLE_OCTETS + 16

/-- Wake-up frames of a sequence for a check interval in ms (R245). -/
def wakeFrames (s : State) (mode ci : Nat) : Nat := ceilDiv ((ci + 2) * 1000000 * (mode + 1)) (s.wakeOctets * 160000)

/-- Airtime of a wake-up sequence. -/
def trainNs (s : State) (mode wake : Nat) : Nat := airNs mode (wake * s.wakeOctets)

/-- From the first bit of an entry's sequence to the end of its SFD. -/
def leadNs (s : State) (e : TlqEntry) : Nat := s.trainNs e.mode e.wake + airNs e.mode s.headOctets

/-- The first period of a check interval whose wake-up sequence can begin at or after `t`, 1 ms before it. -/
def wakePeriod (ci t : Nat) : Nat := (t + 1000000) / (ci * 1000000) + 1

/-- The entry for sampling listeners on hop map h, its sequence beginning at or after `t` (R245). -/
def wakeEntry (s : State) (e : TlqEntry) (h ci t : Nat) : TlqEntry :=
  let k := wakePeriod ci t
  let e1 := { e with wake := s.wakeFrames e.mode ci, chan := s.chanOf h s.links.map k 1, flex := false }
  { e1 with due := k * ci * 1000000 - 1000000 + s.leadNs e1 }

/-- A broadcast entry beginning at or after `t`, on the channel of depth 1 (R247, R262), without a wake-up sequence. -/
def plainEntry (s : State) (x : Nat) (i : DownItem) (seq t : Nat) : TlqEntry :=
  let h := s.hopMap true
  let mode := s.hopMode h
  let b := beginAfter t
  { due := b + airNs mode s.headOctets, cls := i.cls, mode := mode, chan := s.chanOf h s.links.map (b / 125000000) 1
    power := s.txPower x, cca := false, octets := i.octets, tries := 0, seq := seq, retryNs := none, item := i, flex := true }

/-- When the broadcasts behind wake-up sequences that TRX[A] holds have ended. -/
def wakeEnd (s : State) : Nat :=
  (s.tlqOf 0).foldl (fun t e => if e.item.sampling then max t (e.due + airNs e.mode (2 + e.octets)) else t) 0

/-- A broadcast entry on TRX[A] at or after `t`: the copy for sampling children begins with its wake-up sequence (R245), behind those of
earlier ones. -/
def bcastEntry (s : State) (i : DownItem) (seq t : Nat) : TlqEntry :=
  let e := s.plainEntry 0 i seq t
  let ci := s.sampleCi
  if i.sampling ∧ ci ≠ 0 then s.wakeEntry e (s.hopMap true) ci (max t s.wakeEnd) else e

/-- A broadcast entry whose due time is given: D at `t`, on the channel of depth 1, without a wake-up sequence (14 R355, 21 R453). -/
def fixedEntry (s : State) (i : DownItem) (seq t : Nat) : TlqEntry :=
  let h := s.hopMap true
  let mode := s.hopMode h
  let b := t - airNs mode s.headOctets
  { s.plainEntry 0 i seq t with due := t, chan := s.chanOf h s.links.map (b / 125000000) 1 }

/-- Airtime of a unicast to a first hop: its wake-up sequence, the frame, and its Imm-Ack (R245, R263). -/
def unicastNs (s : State) (mode ci octets : Nat) : Nat :=
  (if ci = 0 then 0 else s.trainNs mode (s.wakeFrames mode ci)) +
    airNs mode (s.headOctets + 2 + octets) + airNs mode (s.headOctets + 9)

/-- A resync beacon. -/
def isBeacon (i : DownItem) : Bool := match i.msg with
  | .beacon _ _ _ _ => true
  | _ => false

/-- The channel of first hop a for a frame that begins at `b`: the one it stays on in its 10 ms, else that of its period (R240, R246);
for a Gen-1 node that of its event, and u[0] for a resync beacon (R249, R252). -/
def hopChan (s : State) (a : Nat) (beacon : Bool) (b : Nat) : Nat :=
  let c := s.conn a
  let h := s.hopMap c.gen2
  if beacon then s.chanOf h c.chmap 0 0
  else if b < c.openNs then c.openChan
  else if !c.gen2 then s.chanOf h c.chmap c.evcnt 0
  else s.chanOf h s.links.map (b / 1000000 / (if c.ci = 0 then 125 else ciMs c.ci)) 1

/-- A unicast entry for first hop a (R242, R245 to R247, R249, R260): its due time and channel by the node's listening. -/
def unicastEntry (s : State) (x a : Nat) (i : DownItem) (seq : Nat) : TlqEntry :=
  let c := s.conn a
  let h := s.hopMap c.gen2
  let mode := s.hopMode h
  let now := max s.nowNs i.due
  let flex := c.gen2 && decide (c.ci = 0)
  let b := if flex then beginAfter now else now
  let e : TlqEntry :=
    { due := b + airNs mode s.headOctets, cls := i.cls, mode := mode, chan := s.hopChan a (isBeacon i) b, power := s.txPower x, cca := true
      octets := i.octets + 2 * (s.sourceRoute i.dest).length, tries := 0, seq := seq, retryNs := none, item := i, flex := flex }
  if c.gen2 ∧ c.ci ≠ 0 ∧ c.openNs ≤ now then s.wakeEntry e h (ciMs c.ci) now else e

/-- The transceiver with fewer queue entries, ties to TRX[A]; TRX[B] only when it is ready (R263). -/
def pickTrx (s : State) : Nat := if s.ready 12 ∧ (s.tlqOf 1).length < (s.tlqOf 0).length then 1 else 0

/-- Entries of some classes that a queue holds. -/
def tlqCount (s : State) (x : Nat) (f : Nat → Bool) : Nat := ((s.tlqOf x).filter (fun e => f e.cls && !e.item.link)).length

/-! ### The failsafe broadcast (07 R200, 21 R453) -/

/-- The four bytes, for a LAP version. -/
def failsafeBytes (lap : Nat) (immediate : Bool) (reason : Nat) : List Byte :=
  [0x11, BitVec.ofNat 8 lap, if immediate then 1 else 0, BitVec.ofNat 8 reason]

/-- Its item for a LAP version and a time. -/
def failsafeItem (lap : Nat) (immediate : Bool) (reason due : Nat) : DownItem :=
  ⟨0, false, 0xFFFF, .lap (failsafeBytes lap immediate reason), lapOctets 4, due, false⟩

/-- Queue one of its items straight into the launch queue of TRX[A]: with `due` at least a second away it is D itself, else it leaves as soon
as it can; sampling children get theirs behind a wake-up sequence. -/
def failsafeOne (i : DownItem) (s : State) : State :=
  if !s.hopValid (s.hopMap true) then s
  else (s.meshItems i).foldl (fun t j =>
    let (seq, t1) := t.nextSeq
    t1.tlqPut 0 (if j.sampling ∨ i.due < s.nowNs + 1000000 then t1.bcastEntry j seq j.due else t1.fixedEntry j seq j.due)) s

/-- Queue it three times, 1 s apart, the first `first` ns from now, straight into the launch queue of TRX[A], so that it goes out
without the application domain; each Gen-1 node gets it three times in its windows. -/
def failsafeBroadcast (s : State) (immediate : Bool) (reason first : Nat) : State :=
  let at_ (k : Nat) : Nat := s.nowNs + first + k * 1000000000
  let s1 := ([0, 1, 2] : List Nat).foldl (fun t k =>
    failsafeOne (failsafeItem 3 immediate reason (at_ k)) (failsafeOne (failsafeItem 2 immediate reason (at_ k)) t)) s
  ((s.links.conns.filter (fun e => decide (1 ≤ e.2.st ∧ e.2.st ≤ 3) && !e.2.gen2)).map (fun e => e.1)).foldl
    (fun t lid => ([0, 1, 2] : List Nat).foldl (fun u k =>
      u.enqueue { failsafeItem (max 2 (t.lan lid 2 1)) immediate reason (at_ k) with dest := lid }) t) s1

/-! ### Queue entries that end (08 R237) -/

/-- End every entry of a transceiver with NOT_READY: their items are back in the downlink queue, in their order. -/
def tlqFlush (s : State) (x : Nat) : State :=
  (s.tlqOf x).reverse.foldl (fun t e => t.returnItem e.item false) (s.setTlq x [])

/-- A transceiver stops: its bit clears, its entries end, and its PA-enable line is inactive (R23, R234, R237). -/
def trxStop (s : State) (x : Nat) : State :=
  let s1 := (s.clearReady (11 + x)).tlqFlush x
  { s1 with rad := { s1.rad with pa := SMap.set [] s1.rad.pa x [] } }

/-! ### Connections (R250) -/

/-- A frame has come from a node: m := 0, the timer stops, RESYNC and WIDENING end. -/
def connHeard (s : State) (lid : Nat) : State :=
  let c := s.conn lid
  let s0 := { s with links := { s.links with failed := s.links.failed.filter (fun q => decide (q ≠ lid)) } }
  if s.connected lid then
    let s1 := if c.st = 3 then s0.addSat R.RAD_LINK_CNT2_RESYNC 1 else s0
    s1.setConn lid { c with st := 1, m := 0, supNs := none, heardNs := s.nowNs }
  else s0

/-- DST of a LID for 60 s (R259). -/
def holdDst (s : State) (lid : Nat) : State :=
  ({ s with links := { s.links with dst := SMap.set 0 s.links.dst lid (s.nowNs + 60000000000) } }).setBit
    (R.RAD_FILT_DST (lid % 16)) true (lid / 16)

/-- The event window of a LID, if it is open, is over: G1DEMOD returns to the channel between windows (R249). -/
def windowGone (s : State) (lid : Nat) : State :=
  if (s.conn lid).window then { s with rad := { s.rad with g1chan := none } } else s

/-- A connection is dropped. -/
def connDrop (s : State) (lid : Nat) : State :=
  let s0 := s.windowGone lid
  let s1 := s0.setConn lid { s0.conn lid with st := 4, supNs := none, window := false }
  ((s1.holdDst lid).setBit R.RAD_LINK_EVT_DROP true).addSat R.RAD_LINK_CNT2_DROPS 1

end State
end Sys2Proof.Machine
end

