-- ==== Sys2Proof/Machine/SegOps.lean ====
section
/-! DEFINITION. The lighting segment, the shared part (07_segment_lighting.md): leaves and their control sources, the tally,
the building of broadcasts, commands to lanterns and their results. -/

namespace Sys2Proof.Machine

/-- The leaf of local channel c. -/
def chanLeaf (c : Nat) : Nat := 16384 + c

namespace State

/-- The committed image as of the last SNAP, for EMIT's purposes (R182). -/
def snapF (s : State) : SMap Byte := s.bar.image.getD s.fmem

def leaf (s : State) (l : Nat) : Leafing := SMap.find {} s.seg.leaves l

def setLeaf (s : State) (l : Nat) (g : Leafing) : State :=
  { s with seg := { s.seg with leaves := SMap.set {} s.seg.leaves l g } }

/-- Every leaf: the commissioned lanterns, then the channels. -/
def allLeaves (s : State) : List Nat :=
  commissioned s.snapF s.part.lanterns ++ (List.range s.part.chans).map chanLeaf

/-- The groups of a leaf (R145, 11 R293). -/
def leafGroups (s : State) (l : Nat) : List Nat := if l < 16384 then groupsOf s.snapF l else s.chanGroups (l - 16384)

/-- FEEDER of a lantern, 0 for out of range. -/
def leafFeeder (s : State) (l : Nat) : Nat :=
  let q := recNat s.snapF l 3 1 % 8
  if q ≤ 6 then q else 0

/-- The tally branch: F1 to F6 as 0 to 5, LOCAL 6, UNFED 7 (R203). -/
def leafBranch (s : State) (l : Nat) : Nat :=
  if 16384 ≤ l then 6 else if s.leafFeeder l = 0 then 7 else s.leafFeeder l - 1

/-- A lantern's feeder is energised, or its last report shows mains (R183). -/
def leafFed (s : State) (l : Nat) : Bool :=
  if s.leafFeeder l = 0 then (s.leaf l).mains else s.seg.feeders.testBit (s.leafFeeder l - 1)

/-- Load at full level in mW; 0 when it does not count (R183, R202, 11 R295). -/
def leafFull (s : State) (l : Nat) : Nat :=
  if 16384 ≤ l then s.chanFull (l - 16384)
  else if s.leafFed l then recNat s.snapF l 0x1E 2 * 100 else 0

/-! ### Control sources (R194 to R197) -/

/-- Entry k of the safety table is in force in a frame (R196). -/
def safeInForce (s : State) (k frame : Nat) : Bool :=
  let u := s.fld R.SEG_SAFE_UNTIL_FRAME k
  decide (s.fld R.SEG_SAFE_KIND k ≠ 0) && (decide (u = 2 ^ 32 - 1) || decide ((u + 2 ^ 32 - frame % 2 ^ 32) % 2 ^ 32 < 2 ^ 31))

/-- Entry k covers a leaf (R196; for channels 11 R293). -/
def safeCovers (s : State) (k l : Nat) : Bool :=
  let arg := s.fld R.SEG_SAFE_ARG_ARG k
  match s.fld R.SEG_SAFE_KIND k with
  | 1 => (s.leafGroups l).contains (arg % 1024)
  | 2 => decide (l < 16384) && decide (s.leafFeeder l ≠ 0) && arg.testBit (s.leafFeeder l - 1)
  | 3 => decide (l < 16384) && decide (arg % 16384 ≤ l ∧ l ≤ arg / 65536 % 16384)
  | 4 => true
  | _ => false

/-- The safety level that governs a leaf: the panel's lamp test (20 R442), then the lowest index in force that covers it. -/
def safeLevel (s : State) (l : Nat) : Option Nat :=
  if s.fp.lampEnd.isSome ∧ 16384 ≤ l ∧ s.chanOn (l - 16384) then some 65535
  else ((List.range 16).find? (fun k => s.safeInForce k s.fr.number && s.safeCovers k l)).map
    (fun k => s.fld R.SEG_SAFE_LEVEL_LEVEL k)

end State

/-- The governing source of a leaf and the level the module or a program sends under it, by rank (R194). -/
def governing (pos : Nat) (safe : Option Nat) (frame : Nat) (g : Leafing) : Nat × Option Nat :=
  if pos = 1 then (5, none)
  else if pos = 2 then (6, none)
  else if g.garnet then (4, none)
  else match safe, g.traf, g.sched with
    | some v, _, _ => (3, some v)
    | none, some v, sc => if frame < g.hold then (2, some v) else (if sc.isSome then 1 else 0, sc)
    | none, none, some v => (1, some v)
    | none, none, none => (0, none)

/-- A staged level enters a leaf: the newest of its class; a traffic level starts the hold; GARNET's hold on it ends (R195). -/
def takeStaged (traffic : Bool) (holdFrames : Nat) (x : SegLevel) (g : Leafing) : Leafing :=
  if traffic then { g with traf := some x.level, hold := x.frame + holdFrames, garnet := false }
  else { g with sched := some x.level, garnet := false }

/-- Of the levels of one class that a bar released for a leaf, those to send: for a lantern the last in bar order of each apply
frame, by apply frame (R187); for a channel the last in bar order (03 R97). -/
def sendable (l : Nat) (xs : List SegLevel) : List SegLevel :=
  if 16384 ≤ l then xs.getLast?.toList
  else (sortNat (xs.map (fun x => x.frame))).filterMap (fun f => (xs.filter (fun x => decide (x.frame = f))).getLast?)

namespace State

/-- SEG_BEAD_CLASS of bead n is TRAFFIC. -/
def beadTraffic (s : State) (n : Nat) : Bool := (s.fld R.SEG_BEAD_CLASS_TRAFFIC (n / 32)).testBit (n % 32)

/-- The hand-over fade of a leaf to a new level (R197). -/
def leafHo (s : State) (l new old : Nat) : Nat := hoFade (s.fadeOf (s.leafGroups l)) new old

/-- The sends of a program's levels, in order, from the level last sent: a level that changes neither level nor source is left out;
with a change of source each has the hand-over fade. -/
def programSends (s : State) (l : Nat) (changed : Bool) : Nat → List SegLevel → List SegSend
  | _, [] => []
  | old, y :: ys =>
    if !changed ∧ y.level = old then programSends s l changed old ys
    else
      let fade := if changed then min 65535 (max y.fade (s.leafHo l y.level old)) else y.fade
      ⟨l, y.level, y.frame, fade, true, changed, y.bound⟩ :: programSends s l changed y.level ys

/-- What a leaf sends in this EMIT: the state with its sources brought up to date, and the levels to send (R187, R195, R197). A hand-over fade is
that of the level asked for, also where the tally then grants a part of it (DESIGN CHOICE, log entry 175). -/
def leafSend (stagedOf : Nat → List SegLevel) (s : State) (l : Nat) : State × List SegSend :=
  let xs := stagedOf l
  let g := s.leaf l
  let g1 := xs.foldl (fun h y => takeStaged (s.beadTraffic y.bead) (s.fld R.SEG_TIMING_HOLD * 50) y h) g
  let (src, lvl) := governing s.switchPos (s.safeLevel l) s.fr.number g1
  let mine := sendable l (xs.filter (fun y => decide (src = if s.beadTraffic y.bead then 2 else 1)))
  let changed := decide (src ≠ g.source) || (g.shed && !mine.isEmpty)
  let s1 := s.setLeaf l { g1 with source := src, shed := g1.shed && !changed }
  match lvl with
  | none => (s1, [])
  | some v =>
    if !mine.isEmpty then (s1, s.programSends l changed g.sent mine)
    else if changed then (s1, [⟨l, v, s.fr.number + 2, min 65535 (s.leafHo l v g.sent), decide (src ≤ 2), true, false⟩])
    else if src = 3 ∧ v ≠ g.sent then (s1, [⟨l, v, s.fr.number + 2, 0, false, false, false⟩])
    else (s1, [])

/-- The sends of a list of leaves. -/
def leafSends (stagedOf : Nat → List SegLevel) : State → List Nat → State × List SegSend
  | s, [] => (s, [])
  | s, l :: ls =>
    let (s1, x) := s.leafSend stagedOf l
    let (s2, xs) := leafSends stagedOf s1 ls
    (s2, x ++ xs)

/-! ### The tally (R201 to R206) -/

/-- A cap in W, in mW, saturating (R201). -/
def capMw (w : Nat) : Nat := min (w * 1000) (2 ^ 32 - 1)

/-- DIN[i] in its reported state (20 R435). -/
def dinActive (s : State) (i : Nat) : Bool := (s.fld R.FP_INPUT_STATE).testBit (11 + i)

/-- The demand-response percentage d (R201). -/
def drPct (s : State) : Nat :=
  let i := s.fld R.PWR_DR_IN_INPUT
  if i ≠ 0 ∧ s.dinActive (i - 1) then min (s.fld R.PWR_DR_PCT) (s.fld R.PWR_DR_IN_PCT) else s.fld R.PWR_DR_PCT

/-- The effective cap C (R201): a cap beyond 32 bits acts as 0xFFFF_FFFF mW, also where the percentage is taken of it. -/
def effCap (s : State) : Nat :=
  let c := min (capMw (s.fld R.PWR_CAP_WATTS)) (capMw (s.fld R.PWR_CAP_WATTS) * s.drPct / 100)
  if s.bit R.PWR_STAT_STATE then min c (capMw (s.fld R.PWR_AGATE_CAP_WATTS)) else c

/-- The level a leaf's load counts at: the one last sent, or a higher one it was lowered from until the end of that fade (R202). -/
def leafCounts (s : State) (l : Nat) : Nat :=
  let g := s.leaf l
  g.olds.foldl (fun m e => if s.nowNs < e.2 then max m e.1 else m) g.sent

/-- The load of a leaf, mW. -/
def leafLoad (s : State) (l : Nat) : Nat := s.leafFull l * s.leafCounts l / 65535

/-- The load of branch f, mW, saturating. -/
def branchLoad (s : State) (f : Nat) : Nat :=
  min (2 ^ 32 - 1) (((s.allLeaves.filter (fun l => decide (s.leafBranch l = f))).map s.leafLoad).sum)

/-- The whole load L. -/
def totalLoad (s : State) : Nat := min (2 ^ 32 - 1) (((List.range 8).map s.branchLoad).sum)

end State

/-- One request for an increase (R203). -/
structure TallyReq where
  leaf : Nat
  path : List Nat
  branch : Nat
  charge : Nat
  old : Nat
  new : Nat
  full : Nat
  deriving DecidableEq, Repr

/-- A settlement in progress: the tree, credits by leaf, quanta granted by branch. -/
structure Settling where
  arb : Arb
  credit : SMap Nat
  used : SMap Nat
  deriving DecidableEq, Repr

/-- The requests still backlogged: credit below charge, and the branch below its headroom in whole quanta. -/
def tallyLeaves (room : Nat → Nat) (a : Settling) (rs : List TallyReq) : List Leaf :=
  rs.filterMap (fun r =>
    if SMap.find 0 a.credit r.leaf < r.charge ∧ SMap.find 0 a.used r.branch < room r.branch then some ⟨r.path, 1, r.charge⟩
    else none)

/-- Grant at most n quanta, one at a time. -/
def settleLoop (compat : Bool) (room : Nat → Nat) (rs : List TallyReq) : Nat → Settling → Settling
  | 0, a => a
  | n + 1, a =>
    let ls := tallyLeaves room a rs
    if ls.isEmpty then a
    else match grantAt compat 8 a.arb 0 ls with
      | (arb, some code) =>
        match rs.find? (fun r => decide (nodeCode r.path = code)) with
        | some r =>
          settleLoop compat room rs n
            ⟨arb, SMap.set 0 a.credit r.leaf (SMap.find 0 a.credit r.leaf + 1),
              SMap.set 0 a.used r.branch (SMap.find 0 a.used r.branch + 1)⟩
        | none => { a with arb := arb }
      | (arb, none) => { a with arb := arb }

/-- The level granted to a request (R204). -/
def grantedLevel (a : Settling) (r : TallyReq) : Nat :=
  let k := SMap.find 0 a.credit r.leaf
  if r.charge ≤ k then r.new else r.old + (r.new - r.old) * k / r.charge

namespace State

/-- Take the tally's values for this settlement (R217). -/
def tallyTake (s : State) : State :=
  let t : TallyCfg := {
    cap := s.effCap
    caps := (List.range 8).map (fun f => capMw (s.fld R.PWR_FEEDER_CAP_WATTS f))
    q := max 1 (s.fld R.PWR_TALLY_CTRL_QUANTUM) * 10
    compat := s.bit R.PWR_TALLY_CTRL_COMPAT
    shed := s.bit R.PWR_DR_SHED
    delay := s.fld R.PWR_TALLY_CTRL_SHED_DELAY }
  { s with seg := { s.seg with tally := t } }

/-- The settlement tree's path of a leaf (R203): an ungrouped lantern comes after the groups. -/
def tallyPath (s : State) (l : Nat) : List Nat :=
  if 16384 ≤ l then [6, l - 16384]
  else [s.leafBranch l, (s.leafGroups l).headD 1024, l]

/-- The request of a send: none when it is no rise of a program's level, or its load does not count. -/
def tallyReq (s : State) (x : SegSend) : Option TallyReq :=
  let old := (s.leaf x.leaf).sent
  let full := s.leafFull x.leaf
  let charge := ceilDiv (full * (x.level - old)) (65535 * s.seg.tally.q)
  if x.arb ∧ old < x.level ∧ 0 < charge then some ⟨x.leaf, s.tallyPath x.leaf, s.leafBranch x.leaf, charge, old, x.level, full⟩
  else none

/-- What is not granted of a request is dropped: the level of the class that asked becomes the granted one (R204). -/
def dropRest (s : State) (l old granted : Nat) : State :=
  let g := s.leaf l
  let keep (v : Option Nat) : Option Nat := v.map (fun x => if old < x then min x granted else x)
  s.setLeaf l (if g.source = 2 then { g with traf := keep g.traf } else if g.source = 1 then { g with sched := keep g.sched } else g)

/-- The requests of a list of sends, one for each leaf: its highest level (R203). -/
def tallyReqs (s : State) (xs : List SegSend) : List TallyReq :=
  (sortNat (xs.map (fun x => x.leaf))).filterMap (fun l =>
    ((xs.filter (fun x => decide (x.leaf = l))).foldl
      (fun (m : Option SegSend) x => match m with
        | some y => if y.level < x.level then some x else m
        | none => some x) none).bind s.tallyReq)

/-- Settlement (R203 to R205): the sends at their granted levels, with the registers of the tally brought up to date. `first`: it
opens the EMIT; a later one of the same EMIT adds to what was granted. -/
def settle (s : State) (first : Bool) (xs : List SegSend) : State × List SegSend :=
  let c := s.seg.tally.cap
  let q := s.seg.tally.q
  let l := s.totalLoad
  let capOf (f : Nat) : Nat := s.seg.tally.caps.getD f (2 ^ 32 - 1)
  let room (f : Nat) : Nat := (capOf f - s.branchLoad f) / q
  let rs := s.tallyReqs xs
  let n := min ((c - l) / q) ((rs.map (fun r => r.charge)).sum)
  let a := settleLoop s.seg.tally.compat room rs n ⟨{ s.seg.arb with credit := [] }, [], []⟩
  let lvl (x : SegSend) : SegSend := match rs.find? (fun r => decide (r.leaf = x.leaf)) with
    | some r => { x with level := if r.old < x.level then min x.level (grantedLevel a r) else x.level }
    | none => x
  let ys := xs.map lvl
  let part := (rs.filter (fun r =>
    let k := SMap.find 0 a.credit r.leaf
    decide (0 < k ∧ k < r.charge))).length
  let used (f : Nat) : Nat := SMap.find 0 a.used f * q
  let gain (f : Nat) : Nat := ((rs.filter (fun r => decide (r.branch = f))).map
    (fun r => r.full * grantedLevel a r / 65535 - r.full * r.old / 65535)).sum
  let sat (x : Nat) : Nat := min x (2 ^ 32 - 1)
  let s1 := { s with seg := { s.seg with
    arb := { a.arb with credit := [] }
    heads := some (c - l - ((List.range 8).map used).sum, (List.range 8).map (fun f => capOf f - s.branchLoad f - used f)) } }
  let s2 := noteDrop 42 s (((s1.setFld R.PWR_TALLY_CAP_MW c).setFld R.PWR_TALLY_LOAD_MW
    (sat (l + ((List.range 8).map gain).sum))).setBit R.PWR_TALLY_STAT_OVER (decide (c < l)))
  let s3 := (List.range 8).foldl (fun t f =>
    (t.setFld R.PWR_FEEDER_LOAD_MW (sat (s.branchLoad f + gain f)) f).setFld R.PWR_FEEDER_GRANT_MW
      (sat (used f + if first then 0 else t.fld R.PWR_FEEDER_GRANT_MW f)) f) s2
  (rs.foldl (fun t r => t.dropRest r.leaf r.old (grantedLevel a r)) (s3.addSat R.PWR_TALLY_STAT_PARTIAL part), ys)

/-- Publish the headroom of the last settlement (R205). -/
def tallySnap (s : State) : State :=
  match s.seg.heads with
  | none => s
  | some (g, hs) =>
    let s1 := ({ s with seg := { s.seg with heads := none } }).setFld R.PWR_TALLY_HEAD_MW g
    let s2 := hs.zipIdx.foldl (fun t x => t.setFld R.PWR_FEEDER_HEAD_MW x.1 x.2) s1
    s2.setBit R.PWR_TALLY_STAT_READY true

/-- Module time of the edge of a frame not before the present one. -/
def edgeOf (s : State) (frame : Nat) : Nat := s.fr.edgeNs + (frame - s.fr.number) * frameNs

/-- A leaf's level is sent: it becomes CMD_LEVEL, and a decrease counts from the end of its fade (R202). -/
def noteSend (s : State) (x : SegSend) : State :=
  let g := s.leaf x.leaf
  let settle_ := s.edgeOf x.frame + x.fade * 1000000
  let live := g.olds.filter (fun e => decide (s.nowNs < e.2))
  s.setLeaf x.leaf { g with
    sent := x.level, olds := if x.level < g.sent then (g.sent, settle_) :: live else live, settleNs := settle_ }

end State

/-! ### Broadcast parts (R188) -/

/-- The entry of one lantern: LID, level, fade. -/
structure BEntry where
  lid : Nat
  level : Nat
  fade : Nat
  deriving DecidableEq, Repr

/-- Octets of blocks or entries that one part holds: 1,800 less the header. -/
def partRoom : Nat := 1788

/-- How many entries at the head continue the run of the first: consecutive LIDs, equal level and fade. -/
def runLength (p : BEntry) : List BEntry → Nat
  | [] => 0
  | e :: es => if e.lid = p.lid + 1 ∧ e.level = p.level ∧ e.fade = p.fade then runLength e es + 1 else 0

/-- How many entries at the head a LIST block takes after `p`: consecutive LIDs of the same fade, up to a run of four. -/
def listLength (p : BEntry) : List BEntry → Nat
  | [] => 0
  | e :: es =>
    if e.lid = p.lid + 1 ∧ e.fade = p.fade ∧ runLength e es < 3 then listLength e es + 1 else 0

/-- The blocks of LAP 3 for entries in ascending LID. -/
def lap3Blocks : Nat → List BEntry → List (List Byte)
  | 0, _ => []
  | _, [] => []
  | n + 1, e :: es =>
    let r := min 255 (runLength e es + 1)
    if 4 ≤ r then (leBytes 2 (e.lid + 0x4000) ++ leBytes 1 r ++ leBytes 2 e.fade ++ leBytes 2 e.level) :: lap3Blocks n (es.drop (r - 1))
    else
      let k := min 255 (listLength e es + 1)
      (leBytes 2 e.lid ++ leBytes 1 k ++ leBytes 2 e.fade ++ ((e :: es).take k).flatMap (fun x => leBytes 2 x.level)) ::
        lap3Blocks n (es.drop (k - 1))

/-- Pack blocks into parts in order. -/
def packBlocks : List Byte → List (List Byte) → List (List Byte)
  | cur, [] => if cur.isEmpty then [] else [cur]
  | cur, b :: bs => if partRoom < cur.length + b.length then cur :: packBlocks b bs else packBlocks (cur ++ b) bs

/-- The parts of LAP 2 for entries of one fade. -/
def lap2Chunks : Nat → List BEntry → List (List Byte)
  | 0, _ => []
  | _, [] => []
  | n + 1, es => (es.take (partRoom / 4)).flatMap (fun e => leBytes 2 e.lid ++ leBytes 2 e.level) :: lap2Chunks n (es.drop (partRoom / 4))

/-- The parts of one version: fade of the header and body. -/
def partsOf (lap : Nat) (es : List BEntry) : List (Nat × List Byte) :=
  if lap = 2 then
    (sortNat (es.map (fun e => e.fade))).flatMap (fun f =>
      (lap2Chunks es.length (es.filter (fun e => decide (e.fade = f)))).map (fun b => (f, b)))
  else (packBlocks [] (lap3Blocks es.length es)).map (fun b => (0, b))

/-- A part with its header. -/
def partBytes (lap id apply number count fade : Nat) (body : List Byte) : List Byte :=
  [0x10, BitVec.ofNat 8 lap] ++ leBytes 2 id ++ leBytes 3 apply ++ leBytes 1 number ++ leBytes 1 count ++ leBytes 2 fade ++ [0] ++ body

/-- The messages of one broadcast, LAP 2 first. -/
def broadcastParts (id apply : Nat) (lapOf : Nat → Nat) (es : List BEntry) : List (List Byte) :=
  ([2, 3] : List Nat).flatMap (fun lap =>
    let ps := partsOf lap (es.filter (fun e => decide (lapOf e.lid = lap)))
    ps.zipIdx.map (fun p => partBytes lap id apply p.2 ps.length p.1.1 p.1.2))

namespace State

/-- LAP of a record: 2, else 3. -/
def lapOf (s : State) (lid : Nat) : Nat := if recNat s.snapF lid 2 1 = 2 then 2 else 3

/-- An item is a part of the broadcast with an ID. -/
def isPart (id : Nat) (i : DownItem) : Bool :=
  match i.msg with
  | .lap p => decide (p.head? = some 0x10 ∧ leNat ((p.drop 2).take 2) = id)
  | _ => false

/-- Items of a broadcast that wait, in the downlink queue or in a launch queue; the copies for sampling children do not count. -/
def partsWaiting (s : State) (id : Nat) : Nat :=
  (s.links.queue.filter (fun i => isPart id i && !i.sampling)).length +
    ((s.tlqOf 0 ++ s.tlqOf 1).filter (fun e => isPart id e.item && !e.item.sampling)).length

/-- The broadcast of an apply frame that this EMIT has queued and of which nothing has left yet: its ID. -/
def openBcast (s : State) (frame : Nat) : Option Nat :=
  (s.seg.bcasts.find? (fun b => decide (b.1 = frame ∧ b.2.2 ≤ s.partsWaiting b.2.1))).map (fun b => b.2.1)

/-- Take the items of a broadcast back. -/
def takeParts (s : State) (id : Nat) : State :=
  let s1 : State := { s with links := { s.links with queue := s.links.queue.filter (fun i => !isPart id i) } }
  ([0, 1] : List Nat).foldl (fun t x => t.setTlq x ((t.tlqOf x).filter (fun e => !isPart id e.item))) s1

/-- Queue the parts of a broadcast with an ID: class 1, the first part 1.0 ms after the edge of the next frame (R187, 09 R262). -/
def queueBroadcast (s : State) (id frame : Nat) (xs : List SegSend) : State :=
  let es := (sortNat (xs.map (fun x => x.leaf))).filterMap (fun l =>
    ((xs.filter (fun x => decide (x.leaf = l))).getLast?).map (fun x => (⟨x.leaf, x.level, x.fade⟩ : BEntry)))
  let ps := broadcastParts id (frame % 2 ^ 24) s.lapOf es
  let due := s.edgeOf (s.fr.number + 1) + 1000000
  let s1 := ps.foldl (fun t p => t.enqueueAll 1 (.lap p) (lapOctets p.length) due) s
  let s2 := (s1.setFld R.SEG_BCAST_ID id).setFld R.SEG_BCAST_PARTS (min 255 ps.length)
  { s2 with seg := { s2.seg with
    bcasts := (frame, id, s2.partsWaiting id) :: s2.seg.bcasts.filter (fun b => decide (b.2.1 ≠ id)) } }

/-- Build and queue the broadcast of an apply frame; levels of a frame for which this EMIT has queued one join it (R187). -/
def sendBroadcast (s : State) (frame : Nat) (xs : List SegSend) : State :=
  let s0 : State := { s with seg := { s.seg with cmdNotes := s.seg.cmdNotes ++ xs } }
  match s.openBcast frame with
  | some id =>
    (s0.takeParts id).queueBroadcast id frame (s0.seg.cmdNotes.filter (fun x => decide (x.leaf < 16384 ∧ x.frame = frame)))
  | none =>
    let id := (s.seg.bcastId + 1) % 65536
    ({ s0 with seg := { s0.seg with bcastId := id } } : State).queueBroadcast id frame xs

/-- Stage a channel level (11 R294): bound ones wait for their broadcast's apply instant. -/
def stageChan (s : State) (x : SegSend) : State :=
  let d : DrvStaged := ⟨x.leaf - 16384, x.level, x.fade, (s.leaf x.leaf).source, x.frame⟩
  if x.bound then { s with drv := { s.drv with bound := s.drv.bound ++ [d] } }
  else { s with drv := { s.drv with staged := s.drv.staged ++ [d] } }

/-- Send levels: broadcasts by apply frame, ascending, then channel levels (R16, R187). -/
def sendLevels (s : State) (xs : List SegSend) : State :=
  let s1 := xs.foldl noteSend s
  let lan := xs.filter (fun x => decide (x.leaf < 16384))
  let s2 := (sortNat (lan.map (fun x => x.frame))).foldl
    (fun t f => t.sendBroadcast f (lan.filter (fun x => decide (x.frame = f)))) s1
  (xs.filter (fun x => decide (16384 ≤ x.leaf))).foldl stageChan s2

/-- A send that the tally left at the level sent before it, its source unchanged, is not made. `p`: the leaf of the send before
and its level. -/
def sendsKept (s : State) : Nat × Nat → List SegSend → List SegSend
  | _, [] => []
  | p, x :: xs =>
    let old := if p.1 = x.leaf then p.2 else (s.leaf x.leaf).sent
    if x.changed || decide (x.level ≠ old) then x :: sendsKept s (x.leaf, x.level) xs else sendsKept s p xs

/-- Bring a list of leaves to their governing levels with the levels released at the bar; settlement comes first (R194 to R204). -/
def segEmit (s : State) (leaves : List Nat) : State :=
  let levels := s.seg.levels
  let (s1, xs) := s.tallyTake.leafSends (fun l => levels.filter (fun x => decide (x.leaf = l))) leaves
  let (s2, ys) := s1.settle true xs
  ({ s2 with seg := { s2.seg with levels := [] } }).sendLevels (s2.sendsKept (2 ^ 32, 0) ys)

/-- Hand over leaves whose governing source has changed, later in an EMIT, under the values of its settlement (R195 to R197, R217). -/
def segHandover (s : State) (leaves : List Nat) : State :=
  let (s1, xs) := s.leafSends (fun _ => []) leaves
  let (s2, ys) := s1.settle false xs
  s2.sendLevels (s2.sendsKept (2 ^ 32, 0) ys)

/-! ### GARNET and the switch (R194, R200, 11 R304, R305, 21 R453) -/

/-- A channel takes a level at once under a forcing source. -/
def forceChan (source : Nat) (s : State) (c level : Nat) : State :=
  let s1 := s.chanMove c level 0 source
  s1.setLeaf (chanLeaf c) { s1.leaf (chanLeaf c) with sent := level, olds := [], source := source }

/-- Every leaf comes under the GARNET source; levels still to take effect are dropped, and the channels hand over to their failsafe levels unless the switch forces them. -/
def garnetLeaves (s : State) : State :=
  let s1 := s.allLeaves.foldl (fun t l =>
    let g := t.leaf l
    t.setLeaf l { g with garnet := true, source := if t.switchPos = 0 then 4 else g.source }) s
  let s2 : State := { s1 with seg := { s1.seg with levels := [], posts := [] }, drv := { s1.drv with staged := [], bound := [] } }
  if s2.switchPos ≠ 0 then s2
  else (List.range s2.part.chans).foldl (fun t c =>
    let v := t.fld R.DRV_FAILSAFE_LEVEL c
    let t1 := t.chanHandover c v 0 4
    t1.setLeaf (chanLeaf c) { t1.leaf (chanLeaf c) with sent := v, olds := [] }) s2

/-! ### Commands to lanterns (R190 to R193) -/

/-- A code that POST and GSP may queue. -/
def openCode (code : Nat) : Bool := [0x03, 0x10, 0x11, 0x20, 0x21, 0x22].contains code

/-- A version of LAP has a command. -/
def lapHas (lap code : Nat) : Bool := decide (code ≠ 0x20) || decide (lap = 3)

/-- The command at the head of a lantern's queue has been offered to the links layer. -/
def cmdInFlight (g : Leafing) : Bool := g.cmds.head?.any (fun c => decide (c.sends ≠ 0))

/-- Acknowledged transactions outstanding (09 R264). -/
def outstanding (s : State) : Nat :=
  (s.seg.leaves.filter (fun e => cmdInFlight e.2)).length + s.seg.camp.asked.length

/-- Queue a class 3 message to one target. -/
def bulkTo (s : State) (lid code : Nat) (payload : List Byte) : State :=
  s.enqueue ⟨3, false, lid, .bulk code 0 payload, lapOctets (3 + payload.length), 0, false⟩

/-- The campaign's polls and checks that wait go out as far as there is room: 256 of class 3, 512 in all (09 R264). -/
def campFill (s : State) : State :=
  let n := min (256 - s.seg.camp.asked.length) (512 - s.outstanding)
  let xs := s.seg.camp.todo.take n
  let s1 := xs.foldl (fun t x => t.bulkTo x.1 x.2.1 (if x.2.1 = 0x32 then leBytes 1 x.2.2 else [])) s
  { s1 with seg := { s1.seg with camp := { s1.seg.camp with todo := s1.seg.camp.todo.drop n, asked := s1.seg.camp.asked ++ xs } } }

/-- Write a result to the ring (R193). -/
def cmdResult (s : State) (handle lid : Nat) (st : Status) (dup : Bool) (data : List Byte) : State :=
  let w := s.fld R.SEG_CMD_RES_WR_COUNT
  let k := w % 64
  let s1 := (s.setFld R.SEG_CMD_RES_HANDLE handle k).wr (R.SEG_CMD_STAT_STATUS.at k 0)
    (BitVec.ofNat 32 (st.code + (if dup then 256 else 0) + (lid % 16384) * 65536))
  let s2 := (s1.setFld R.SEG_CMD_DATA0_DATA (leNat (data.take 4)) k).setFld R.SEG_CMD_DATA1_DATA (leNat ((data.drop 4).take 4)) k
  (s2.addWrap R.SEG_CMD_RES_WR_COUNT 1).assertSrc 71

/-- The octets of a command's LAP message: code, transaction ID, payload. -/
def cmdOctets (c : SegCmd) : Nat := lapOctets (3 + c.payload.length)

/-- Offer the command at the head of a lantern's queue to the links layer. -/
def cmdSend (s : State) (lid : Nat) : State :=
  let g := s.leaf lid
  match g.cmds with
  | [] => s
  | c :: rest =>
    let c1 := { c with sends := c.sends + 1, sentNs := s.nowNs, firstNs := if c.sends = 0 then s.nowNs else c.firstNs }
    (s.setLeaf lid { g with cmds := c1 :: rest }).enqueue ⟨2, false, lid, .cmd c.code c.txn c.payload, cmdOctets c, 0, false⟩

/-- Queue a command of a lantern; the first in the queue is sent at once, while fewer than 512 transactions are outstanding. -/
def cmdPut (s : State) (lid : Nat) (c : SegCmd) : State :=
  let g := s.leaf lid
  let c1 := { c with txn := g.txn }
  let s1 := s.setLeaf lid { g with txn := (g.txn + 1) % 65536, cmds := g.cmds ++ [c1] }
  if g.cmds.isEmpty ∧ s.outstanding < 512 then s1.cmdSend lid else s1

/-- A command of the module's own that found no room goes out once there is (09 R264). -/
def ownFill (s : State) : State :=
  match s.seg.leaves.find? (fun e => !e.2.cmds.isEmpty && !cmdInFlight e.2) with
  | some e => if s.outstanding < 512 then s.cmdSend e.1 else s
  | none => s

/-- Queue an open command, or the refusal of R191. The four queued commands of a lantern include the one in flight (DESIGN CHOICE, log entry
174). -/
def cmdRequest (s : State) (handle lid code : Nat) (payload : List Byte) (session : Option Nat) : Status × State :=
  if !openCode code then (.invalid, s)
  else if !lapHas (s.lapOf lid) code then (.version, s)
  else if 512 ≤ s.outstanding ∨ 4 ≤ (s.leaf lid).cmds.length then (.busy, s.addSat R.RAD_DL_STAT_BUSY 1)
  else (.ok, s.cmdPut lid ⟨handle, code, payload, 0, session, 0, 0, 0⟩)

/-- The head of a lantern's queue has ended with a result; a command of the module's own has handle 0 and no entry. -/
def cmdEnd (s : State) (lid : Nat) (st : Status) (dup : Bool) (data : List Byte) : State :=
  let g := s.leaf lid
  match g.cmds with
  | [] => s
  | c :: rest =>
    let s1 := s.setLeaf lid { g with cmds := rest }
    let s2 := if c.handle = 0 ∧ c.session = none then s1 else s1.cmdResult c.handle lid st dup data
    ((s2.cmdSend lid).ownFill).campFill

end State
end Sys2Proof.Machine
end

