-- ==== Sys2Proof/Machine/Radio.lean ====
section
/-! DEFINITION. Radio air interface (08_radio_air_interface.md): reception with its filter, descriptors and acknowledgements,
launches, and the unit's register writes. -/

namespace Sys2Proof.Machine

/-- 1 % sensitivity of a mode, dBm (R218). -/
def sensitivity (mode : Nat) : Int := ([-110, -106, -104, -102] : List Int).getD mode (-102)

/-- Space a stored frame takes (R230). -/
def rxSpace (psdu : Nat) : Nat := 64 + ceilDiv psdu 64 * 64

/-- The descriptor (R231). -/
def rxDesc (f : RxFrame) (trx mode chan mtch ns counter ackBits : Nat) : List Byte :=
  let lqi := (clampI (4 * (f.rssi - sensitivity mode)) 0 255).toNat
  leBytes 2 f.psdu ++ leBytes 1 (f.demod % 8 + 8 * trx) ++
    leBytes 1 (mode + (if f.fcs2 then 4 else 0) + (if f.white then 8 else 0)) ++ leBytes 1 chan ++
    leBytes 1 (f.rssi % 256).toNat ++ leBytes 1 lqi ++ leBytes 1 mtch ++ leBytes 6 (ns / 1000000000) ++ leBytes 2 f.sfdFrac ++
    leBytes 4 (ns % 1000000000) ++ leBytes 2 (f.cfo % 65536).toNat ++ leBytes 1 ackBits ++ leBytes 1 0 ++ leBytes 4 counter ++
    List.replicate 36 0

namespace State

/-- A transceiver runs: its bit of SYS_READY. -/
def trxReady (s : State) (x : Nat) : Bool := s.ready (11 + x)

/-- Mode and channel a demodulator listens on: the Gen-1 demodulator is steered by the links layer (09 R249). -/
def demodTune (s : State) (d : Nat) : Nat × Nat :=
  let steered := if s.bit R.PWR_STAT_STATE then decide (d = s.fld R.RAD_AGATE_DEMOD) else decide (d = s.fld R.RAD_LINK_CFG_G1DEMOD)
  if steered ∧ s.anyGen1 then
    let h := s.hopMap false
    match s.rad.g1chan with
    | some c => (s.hopMode h, c)
    | none =>
      if s.bit R.PWR_STAT_STATE then (s.fld R.RAD_DEMOD_MODE d, s.fld R.RAD_DEMOD_CHAN d)
      else (s.hopMode h, s.hopEntry h ((mapEntries s.links.map).headD 0))
  else (s.fld R.RAD_DEMOD_MODE d, s.fld R.RAD_DEMOD_CHAN d)

/-- The transceiver of demodulator d: in AGATE the one kept runs on TRX[A] (R238). -/
def demodTrx (s : State) (d : Nat) : Nat :=
  if s.bit R.PWR_STAT_STATE ∧ d = s.fld R.RAD_AGATE_DEMOD then 0 else s.fld R.RAD_DEMOD_TRX d

/-- Demodulator d receives: enabled, its transceiver ready, in AGATE the one kept, and none in ONYX (R238). -/
def demodRuns (s : State) (d : Nat) : Bool :=
  decide (s.pwr.mode ≠ .onyx) && decide (d < s.part.demods) && s.bit R.RAD_DEMOD_EN d && s.trxReady (s.demodTrx d) &&
    (!s.bit R.PWR_STAT_STATE || decide (d = s.fld R.RAD_AGATE_DEMOD))

/-! ### Filter (R225) -/

/-- Tests 1 and 3. -/
def lengthOk (f : RxFrame) : Bool := decide ((if f.fcs2 then 5 else 7) ≤ f.psdu ∧ f.psdu ≤ 2047)

def formOk (f : RxFrame) : Bool := decide (f.version ≤ 2) && !f.badType

/-- DST of short address a. -/
def dstBit (s : State) (a : Nat) : Bool := decide (a < s.part.lanterns) && s.bit (R.RAD_FILT_DST (a % 16)) (a / 16)

/-- Tests 4 and 5: the match code of R231, none when the frame is filtered. -/
def filterMatch (s : State) (f : RxFrame) : Option Nat :=
  let panOk := match f.pan with
    | none => true
    | some p => decide (p = s.fld R.RAD_PAN_PANID ∨ p = 0xFFFF)
  if !panOk then none
  else match f.dest with
    | .absent => some 0
    | .own => some 3
    | .ext _ => none
    | .short a =>
      if a = 0xFFFF then some 1
      else if a = s.fld R.RAD_ADDR_SHORT then some 2
      else if s.dstBit a then some 4 else none

/-! ### Peer records (09 R255) -/

/-- The entries of a source that are still current. -/
def peerEntries (s : State) (src : RxAddr) : List PeerEntry :=
  let es := match src with
    | .short a => if a < s.part.lanterns then SMap.find [] s.links.peers a else []
    | .ext e => match s.links.xpeers.find? (fun (x : Nat × List PeerEntry) => decide (x.1 = e)) with
      | some x => x.2
      | none => []
    | _ => []
  es.filter (fun e => decide (s.nowNs ≤ e.ns + 10000000000))

/-- Record an accepted sequence number: the last four of each source, 64 extended sources by latest use. -/
def peerNote (s : State) (src : RxAddr) (e : PeerEntry) : State :=
  match src with
  | .short a =>
    if a < s.part.lanterns then
      { s with links := { s.links with peers := SMap.set [] s.links.peers a ((e :: SMap.find [] s.links.peers a).take 4) } }
    else s
  | .ext x =>
    let old := match s.links.xpeers.find? (fun p => decide (p.1 = x)) with
      | some p => p.2
      | none => []
    let rest := s.links.xpeers.filter (fun p => decide (p.1 ≠ x))
    { s with links := { s.links with xpeers := ((x, (e :: old).take 4) :: rest).take 64 } }
  | _ => s

/-- The frame-pending value for a source: for an extended one, a JOIN_RSP to it waits in the downlink queue or a launch queue
(R227). -/
def pendFor (s : State) (src : RxAddr) : Bool :=
  match src with
  | .short a => decide (a < s.part.lanterns) && s.pendOf a
  | .ext e => s.links.queue.any (isJoinFor e) || (s.tlqOf 0 ++ s.tlqOf 1).any (fun q => isJoinFor e q.item)
  | _ => false

/-- Time Correction of an Enh-Ack in µs (10 R285): nearest, clamped to ±2,047. -/
def timeCorr (ns : Nat) (gtime : Option Int) : Int :=
  match gtime with
  | none => 0
  | some g =>
    let d : Int := (ns : Int) - g
    let r := if 0 ≤ d then Int.fdiv (d + 500) 1000 else -(Int.fdiv (-d + 500) 1000)
    clampI r (-2047) 2047

/-- The transmit period of an acknowledgement that answers a frame with end `e`: from the stop of reception to its resumption
(R226, R228). -/
def ackSpan (s : State) (mode octets e : Nat) : Nat × Nat :=
  (e + 1000000 - 200000, e + 1000000 + airNs mode (s.headOctets + 2 + octets) + 200000)

/-- The period of a launch whose SFD ends at `d`, from the stop of reception to its resumption (R236, 09 R245). -/
def launchSpan (s : State) (e : TlqEntry) (d : Nat) : Nat × Nat :=
  (d - s.leadNs e - 200000, d + airNs e.mode (2 + e.octets) + 200000)

end State

/-- Two spans of time overlap. -/
def overlaps (a b : Nat × Nat) : Bool := decide (a.1 < b.2 ∧ b.1 < a.2)

namespace State

/-- Write byte 0x16 of the descriptor of the frame that an acknowledgement answers: 1 sent, 2 its frame-pending value, 4 suppressed
(R231). -/
def markAck (s : State) (a : AckDue) (bits : Nat) : State :=
  let mine (r : RxStored) : Bool := decide (r.arrNs = a.endNs ∧ (r.desc.getD 2 0).toNat = a.demod % 8 + 8 * a.trx)
  { s with rad := { s.rad with stored := s.rad.stored.map (fun r =>
      if mine r then { r with desc := r.desc.set 0x16 (BitVec.ofNat 8 bits) } else r) } }

/-- An acknowledgement is not sent: counted, and shown in its frame's descriptor (R228, R231). -/
def ackDrop (s : State) (a : AckDue) : State :=
  ({ s with rad := { s.rad with acks := s.rad.acks.filter (fun b => decide (b ≠ a)) } }.addSat R.RAD_ACK_CNT_SUPPR 1 a.trx).markAck a 4

/-- Acknowledgement b comes before a: the earlier E, then the lower demodulator (R228). -/
def ackFirst (b a : AckDue) : Bool := decide (b.endNs < a.endNs ∨ (b.endNs = a.endNs ∧ b.demod ≤ a.demod))

/-- An acknowledgement that is due. Of acknowledgements that would overlap on one transceiver only the first by precedence stays
(R228). -/
def ackQueue (s : State) (a : AckDue) : State :=
  let mine := s.ackSpan a.mode a.octets a.endNs
  let hits := s.rad.acks.filter (fun b => decide (b.trx = a.trx) && overlaps mine (s.ackSpan b.mode b.octets b.endNs))
  if hits.any (fun b => ackFirst b a) then s.ackDrop a
  else
    let s1 := hits.foldl ackDrop s
    { s1 with rad := { s1.rad with acks := s1.rad.acks ++ [a] } }

/-! ### Connections made and kept (09 R243, R250) -/

/-- A JOIN_RSP with OK has been acknowledged: the prepared connection stands, in place of one that was there. -/
def connJoin (s : State) (lid : Nat) : State :=
  let c := SMap.find {} s.links.prep lid
  let si := max 1 c.si * 1000000
  let ev := if c.gen2 then 0 else (s.nowNs - c.anchor * 1000000) / si * si + c.anchor * 1000000
  let w := s.windowGone lid
  let s0 := { w with links := { w.links with prep := SMap.set {} w.links.prep lid {} } }
  let s1 := s0.setConn lid
    { c with st := 1, m := 0, evcnt := 0, supNs := none, heardNs := s.nowNs, evNs := ev, window := false, got := false }
  s1.setBit (R.RAD_FILT_DST (lid % 16)) false (lid / 16)

/-- An acknowledgement that ends at `e` answers the unicast in flight with its number, when it comes in time (09 R254). The node keeps
its receiver on that channel for 10 ms (09 R246). -/
def ackFlight (s : State) (trx seq e : Nat) : State :=
  match s.links.flight.find? (fun g => decide (g.trx = trx ∧ g.seq = seq ∧ e ≤ g.limitNs)) with
  | none => s
  | some g =>
    let s1 := { s with links := { s.links with flight := s.links.flight.filter (fun q => decide (q ≠ g)) } }
    let s2 := match g.item.msg with
      | .joinRsp _ st short _ _ _ => if st = Status.ok then s1.connJoin short else s1
      | _ => s1
    let s3 := s2.connHeard g.hop
    if s3.connected g.hop then s3.setConn g.hop { s3.conn g.hop with openNs := e + 10000000, openChan := g.chan } else s3

/-- A frame from a node, a duplicate too: it is heard, and an open event window has its frame (09 R249, R250). -/
def srcHeard (s : State) (src : RxAddr) : State :=
  match src with
  | .short a =>
    if a < s.part.lanterns then
      let s1 := s.connHeard a
      if (s1.conn a).window then s1.setConn a { s1.conn a with got := true } else s1
    else s
  | _ => s

/-- What the links layer takes from a stored frame: its sender is heard, a CI_CHANGE, its originator's route. -/
def linkTake (s : State) (f : RxFrame) (mtch : Nat) : State :=
  let s1 := s.srcHeard f.src
  let s2 : State := match f.src, f.ci with
    | .short a, some c => if s1.connected a then s1.setConn a { s1.conn a with ci := c } else s1
    | _, _ => s1
  let s3 : State := match f.route with
    | some r => { s2 with links := { s2.links with notes := s2.links.notes ++ [⟨r.lid, r.parent, r.hops, r.lqi, s2.nowNs⟩] } }
    | none => s2
  if mtch = 4 ∧ s3.hopValid (s3.hopMap true) then
    s3.enqueueMesh ⟨0, true, 0xFFFF, .routeAdv 0 0 0 (s3.fld R.RAD_LINK_MAP_VER_VERSION), lapOctets 5, 0, false⟩
  else s3

/-! ### Reception (R223 to R232) -/

/-- When a frame's PHR and its last bit have arrived, its SFD having ended at `ns`. -/
def phrEnd (mode ns : Nat) : Nat := ns + airNs mode 2
def frameEnd (f : RxFrame) (mode ns : Nat) : Nat := ns + airNs mode (2 + f.psdu)

/-- The match code is that of a unicast. -/
def isUnicast (mtch : Nat) : Bool := decide (mtch = 2 ∨ mtch = 3 ∨ mtch = 4)

/-- The acknowledgement of a frame. -/
def ackOf (f : RxFrame) (x mode chan ns : Nat) (pend : Bool) : AckDue :=
  let src := match f.src with
    | .short a => a
    | _ => 0xFFFF
  { trx := x, demod := f.demod, endNs := frameEnd f mode ns, mode := mode, chan := chan, octets := f.ackOctets, seq := f.seq, pend := pend
    src := src, enh := decide (f.version = 2), corr := timeCorr ns f.gtime }

/-- A frame goes into its partition with its descriptor (R230, R231). -/
def rxKeep (s : State) (f : RxFrame) (x mode chan mtch ns : Nat) : State :=
  let count := (SMap.find 0 s.rad.rxCount x + 1) % 2 ^ 32
  let r : RxStored :=
    { part := s.fld R.RAD_DEMOD_PART f.demod, space := rxSpace f.psdu, arrNs := frameEnd f mode ns
      desc := rxDesc f x mode chan mtch ns count 0 }
  ({ s with rad := { s.rad with stored := s.rad.stored ++ [r], rxCount := SMap.set 0 s.rad.rxCount x count } }).addSat
    R.RAD_RX_CNT_FRAMES 1 x

/-- Store a frame that passed the filter, and set its acknowledgement due (R226, R230). -/
def rxStore (s : State) (f : RxFrame) (x mode chan mtch ns : Nat) : State :=
  let pend := s.pendFor f.src
  let s1 := s.rxKeep f x mode chan mtch ns
  let s2 := if f.ar && isUnicast mtch then s1.ackQueue (ackOf f x mode chan ns pend) else s1
  (s2.peerNote f.src ⟨f.seq, pend, s2.nowNs⟩).linkTake f mtch

/-- A duplicate: acknowledged again with the entry's value, counted, not stored (09 R255). -/
def rxDuplicate (s : State) (f : RxFrame) (x mode chan mtch ns : Nat) (entry : PeerEntry) : State :=
  let s1 := s.addSat R.RAD_LINK_CNT_DUP 1
  let s2 := if f.ar && isUnicast mtch then s1.ackQueue (ackOf f x mode chan ns entry.pend) else s1
  s2.srcHeard f.src

/-- The period that a queued entry is to take. -/
def plannedSpan (s : State) (e : TlqEntry) : Nat × Nat :=
  s.launchSpan e (max e.due (match e.retryNs with
    | some r => r + 200000 + s.leadNs e
    | none => s.nowNs))

/-- An acknowledgement due is not to be sent: a launch takes its period, or the transceiver does not transmit (R228). -/
def ackBarred (s : State) (a : AckDue) : Bool :=
  let span := s.ackSpan a.mode a.octets a.endNs
  (s.tlqOf a.trx).any (fun e => overlaps span (s.plannedSpan e)) || (SMap.find [] s.rad.txSpans a.trx).any (overlaps span) ||
    !s.trxReady a.trx || decide (s.pwr.mode = .onyx)

/-- The periods in which demodulator d of transceiver x takes no frame: the transceiver transmits, or is to send an acknowledgement for
which it has stopped receiving, or retunes (R223, R224). -/
def offSpans (s : State) (x d : Nat) : List (Nat × Nat) :=
  SMap.find [] s.rad.txSpans x ++ SMap.find [] s.rad.deafSpans d ++
    (s.rad.acks.filter (fun a => decide (a.trx = x) && !s.ackBarred a)).map (fun a => s.ackSpan a.mode a.octets a.endNs)

/-- Reception was off when the SFD of a frame ended at `ns`: the frame is none that the demodulator has in progress. -/
def unheard (s : State) (x d ns : Nat) : Bool := (s.offSpans x d).any (fun p => decide (p.1 ≤ ns ∧ ns < p.2))

/-- A frame in progress between two module times is lost: reception stops meanwhile. -/
def preempted (s : State) (x d : Nat) (span : Nat × Nat) : Bool := (s.offSpans x d).any (fun p => decide (span.1 < p.1 ∧ p.1 < span.2))

/-- Bytes of partition p in use: by stored frames, and reserved for frames in progress (R230). -/
def spaceHeld (s : State) (p : Nat) : Nat :=
  ((s.rad.stored.filter (fun r => decide (r.part = p))).map (fun r => r.space)).sum +
    ((s.rad.inAir.filter (fun r => decide (r.part = p))).map (fun r => r.space)).sum

/-- The PHR of a frame has been received: its form is tested, and space for the frame is reserved (R225 test 1, R230). -/
def rxPhr (s : State) (f : RxFrame) : State :=
  let d := f.demod
  if !s.demodRuns d then s
  else
    let x := s.demodTrx d
    let (mode, _) := s.demodTune d
    let ns := f.sfdNs - s.fld R.RAD_TS_CORR_NS mode
    let p := s.fld R.RAD_DEMOD_PART d
    if s.unheard x d ns then s
    else if s.preempted x d (ns, phrEnd mode ns) then s.addSat R.RAD_RX_LOST_PREEMPT 1 x
    else if !f.phrOk ∨ !lengthOk f then s.addSat R.RAD_RX_DROP_MALFORMED 1 x
    else if s.fld R.RAD_RXPART_SIZE p < s.spaceHeld p + rxSpace f.psdu then
      (s.addSat R.RAD_RXPART_STAT_DROP 1 p).setBit R.RAD_EVT_OVR true
    else
      let rest := s.rad.inAir.filter (fun a => decide (a.demod ≠ d))
      { s with rad := { s.rad with inAir := rest ++ [⟨d, f.sfdNs, p, rxSpace f.psdu⟩] } }

/-- A frame has the space that was reserved at its PHR. -/
def reserved (s : State) (f : RxFrame) : Bool := s.rad.inAir.any (fun a => decide (a.demod = f.demod ∧ a.sfdNs = f.sfdNs))

/-- Its reservation ends. -/
def unreserve (s : State) (f : RxFrame) : State :=
  { s with rad := { s.rad with inAir := s.rad.inAir.filter (fun a => !decide (a.demod = f.demod ∧ a.sfdNs = f.sfdNs)) } }

/-- The last bit of a frame has arrived: what remains of R223 to R230, for a frame that has its space. A frame that fails gives it back. -/
def rxFrame (s0 : State) (f : RxFrame) : State :=
  let d := f.demod
  let s := s0.unreserve f
  if !s0.reserved f ∨ !s.demodRuns d then s
  else
    let x := s.demodTrx d
    let (mode, chan) := s.demodTune d
    let ns := f.sfdNs - s.fld R.RAD_TS_CORR_NS mode
    if s.preempted x d (ns, frameEnd f mode ns) then s.addSat R.RAD_RX_LOST_PREEMPT 1 x
    else if !f.fcsOk then s.addSat R.RAD_RX_LOST_FCS 1 x
    else if !formOk f then s.addSat R.RAD_RX_DROP_MALFORMED 1 x
    else if f.isAck then (s.rxKeep f x mode chan 5 ns).ackFlight x f.seq (frameEnd f mode ns)
    else match s.filterMatch f with
      | none => s.addSat R.RAD_RX_DROP_FILTER 1 x
      | some mtch =>
        match (s.peerEntries f.src).find? (fun e => decide (e.seq = f.seq)) with
        | some e => s.rxDuplicate f x mode chan mtch ns e
        | none => s.rxStore f x mode chan mtch ns

/-! ### Transmissions (R224, R233, R234) -/

/-- Count airtime in whole ms. -/
def addAir (s : State) (x ns : Nat) : State :=
  let t := SMap.find 0 s.rad.airRem x + ns
  ({ s with rad := { s.rad with airRem := SMap.set 0 s.rad.airRem x (t % 1000000) } }).addSat R.RAD_TX_AIR_MS (t / 1000000) x

/-- The demodulators of a receiver. -/
def demodsOf (s : State) (x : Nat) : List Nat := (List.range s.part.demods).filter (fun d => decide (s.demodTrx d = x))

/-- Demodulators of a list take nothing in a period. -/
def deafen (s : State) (ds : List Nat) (span : Nat × Nat) : State :=
  { s with rad := { s.rad with deafSpans := ds.foldl (fun m d => SMap.set [] m d (span :: SMap.find [] m d)) s.rad.deafSpans } }

/-- Until when a transceiver transmits or is on its way back to reception. -/
def busyUntil (s : State) (x : Nat) : Nat := (SMap.find [] s.rad.txSpans x).foldl (fun m p => max m p.2) 0

/-- The transmitter of x is in use over `span`, with `air` ns of signal in it: its demodulators take nothing (R224), its PA-enable line
is asserted from LEAD before the signal to LAG after it (R234), and the airtime counts. -/
def transmit (s : State) (x mode chan : Nat) (span : Nat × Nat) : State :=
  let on := span.1 + 200000 - s.fld R.RAD_PA_LEAD x * 1000
  let off := span.2 - 200000 + s.fld R.RAD_PA_LAG x * 1000
  let en := s.bit R.RAD_PA_EN x
  let r := s.rad
  let s1 : State := { s with rad := { r with
    txSpans := SMap.set [] r.txSpans x (span :: SMap.find [] r.txSpans x)
    txChan := SMap.set (0, 0) r.txChan x (mode, chan)
    pa := if en then SMap.set [] r.pa x ((on, off) :: SMap.find [] r.pa x) else r.pa } }
  let s2 := s1.addAir x (span.2 - span.1 - 400000)
  if en then s2.emit (.paEnable x on off (!s.bit R.RAD_PA_POL x)) else s2

/-- The PA-enable line of a transceiver is asserted: never with EN = 0, nor while the transceiver is not ready (R234). -/
def paActive (s : State) (x : Nat) : Bool :=
  s.bit R.RAD_PA_EN x && s.trxReady x && (SMap.find [] s.rad.pa x).any (fun p => decide (p.1 ≤ s.nowNs ∧ s.nowNs < p.2))

/-- Its level: POL selects the active one. -/
def paLevel (s : State) (x : Nat) : Bool := s.paActive x != s.bit R.RAD_PA_POL x

/-! ### Launches (R228, R236, R237) -/

/-- An entry at the head of a queue is dropped with LATE, and its item goes back to the links layer. -/
def launchLate (s : State) (x : Nat) (e : TlqEntry) : State :=
  let s1 := s.setTlq x (s.tlqOf x).tail
  ((s1.setBit (if x = 0 then R.RAD_EVT_LATE_A else R.RAD_EVT_LATE_B) true).addSat R.RAD_TLQ_CNT_LATE 1 x).returnItem e.item true

/-- Acknowledgements that a launch's period overlaps are not sent (R228). -/
def suppressAcks (s : State) (x : Nat) (span : Nat × Nat) : State :=
  (s.rad.acks.filter (fun a => decide (a.trx = x) && overlaps span (s.ackSpan a.mode a.octets a.endNs))).foldl ackDrop s

/-- A frame that carries network time: R283's list. -/
def carriesTime (s : State) (i : DownItem) : Bool :=
  match i.msg with
  | .routeAdv _ _ _ _ => true
  | .joinRsp _ _ _ _ _ _ => true
  | .mapUpdate _ _ => true
  | .beacon _ _ _ _ => true
  | .lastGasp _ => false
  | _ => (decide (i.dest = 0xFFFF) && decide (i.cls ≤ 1)) || (s.connected i.dest && !(s.conn i.dest).gen2)

/-- The segment network key: the first valid LANTERN_NET slot with CCM usage (17 R387). -/
def networkKey (s : State) : Option (List Byte) := ((List.range 32).find? (fun k => s.keyPermits k 6 2)).bind s.keyMat

/-- How an entry goes out at `d`: no entry exceeds RAD_TXPWR.MAX (R233); the wake-up frames count down to the first preamble bit of the
data frame (09 R245); the GTIME element is stamped at launch, with CORR 0, and the integrity code computed then (10 R284, log entry 148). -/
def airForm (s : State) (x : Nat) (e : TlqEntry) (d : Nat) : AirForm :=
  { mode := e.mode, chan := e.chan, power := min e.power (s.txPower x), octets := e.octets
    route := if e.item.dest = 0xFFFF then [] else s.sourceRoute e.item.dest
    wake := (List.range e.wake).map (fun i => (e.wake - 1 - i) * s.wakeOctets * 4 / 5)
    gtime := if s.carriesTime e.item then some (d / 1000000000 % 2 ^ 48, d % 1000000000, 0) else none
    mic := if isJoinRsp e.item then none else s.networkKey.map (fun k => Config.airMic k e.seq d) }

/-- Transmit the head of a queue, its SFD ending at `d`; a unicast then waits for its acknowledgement (09 R254). -/
def launchSend (s : State) (x : Nat) (e : TlqEntry) (d : Nat) : State :=
  let span := s.launchSpan e d
  let s1 := (s.setTlq x (s.tlqOf x).tail).emit (.radio x d e.item.dest e.seq e.item.msg (s.airForm x e d))
  let s2 := (s1.suppressAcks x span).transmit x e.mode e.chan span
  let s3 := (s2.addSat R.RAD_TLQ_CNT_SENT 1 x).setFld R.RAD_TLQ_STAT_DELAY (min 65535 ((d - e.due) / 1000)) x
  if e.item.dest = 0xFFFF then s3
  else
    let g : Flight :=
      { trx := x, hop := s.itemHop e.item, seq := e.seq, tries := e.tries, chan := e.chan
        limitNs := span.2 - 200000 + 1000000 + airNs e.mode (s.headOctets + 9) + 200000, item := e.item }
    { s3 with links := { s3.links with flight := s3.links.flight ++ [g] } }

/-- The first instant at which a sequence on a channel can begin: 200 µs after now, and behind a transmission at its last FCS bit on
the same channel or 200 µs later on another. -/
def freeFrom (s : State) (x mode chan : Nat) : Nat :=
  let b := s.busyUntil x
  if b ≤ s.nowNs then s.nowNs + 200000
  else if SMap.find (0, 0) s.rad.txChan x = (mode, chan) then max s.nowNs (b - 200000)
  else b

/-- When the sequence of an entry begins, and the entry on the channel of that instant: at D less its lead, or as soon as the
transceiver is free (R236), then within the limits of 09 R247. -/
def launchPlan (s : State) (x : Nat) (e : TlqEntry) : Nat × TlqEntry :=
  let begin0 := e.due - s.leadNs e
  let free := s.freeFrom x e.mode e.chan
  let b := if free ≤ begin0 + 1000 then begin0 else free
  if e.flex then
    let b1 := beginAfter b
    (b1, { e with chan :=
      if b1 = begin0 then e.chan
      else if e.item.dest = 0xFFFF ∨ isJoinRsp e.item then s.chanOf (s.hopMap true) s.links.map (b1 / 125000000) 1
      else s.hopChan (s.itemHop e.item) false b1 })
  else (b, e)

/-- One attempt to launch the head of a queue, once its sequence is to begin: `energy` is what CCA measures, in dBm. Reception that has stopped
for it does not resume before the next attempt (DESIGN CHOICE, log entry 178). -/
def launchTry (s : State) (x : Nat) (energy : Int) : State :=
  match s.tlqOf x with
  | [] => s
  | e :: rest =>
    let (b, e1) := s.launchPlan x e
    let d := b + s.leadNs e
    if s.nowNs + 201000 ≤ b ∨ !s.trxReady x then s
    else if e.due + s.fld R.RAD_TLQ_CFG_LATE_LIMIT x * 1000 < d then s.launchLate x e
    else if e.cca ∧ s.fldI R.RAD_CCA_THRESH ≤ energy then
      (s.setTlq x ({ e with retryNs := some (s.nowNs + 500000) } :: rest)).deafen (s.demodsOf x) (b - 200000, s.nowNs + 500000)
    else s.launchSend x e1 d

/-- The earliest acknowledgement due on a transceiver, ties to the lower demodulator (R228). -/
def firstAck (s : State) (x : Nat) : Option AckDue :=
  s.rad.acks.foldl (fun acc a =>
    if a.trx ≠ x then acc
    else match acc with
      | none => some a
      | some b => if ackFirst b a then some b else some a) none

/-- Send or suppress an acknowledgement (R226, R228); with frame pending the node listens for 10 ms (09 R246). -/
def ackSend (s : State) (a : AckDue) : State :=
  let span := s.ackSpan a.mode a.octets a.endNs
  if s.ackBarred a then s.ackDrop a
  else
    let s1 := { s with rad := { s.rad with acks := s.rad.acks.filter (fun b => decide (b ≠ a)) } }
    let s2 := ((s1.emit (.ack a.trx a.mode a.chan a.seq a.pend a.enh a.corr)).addSat R.RAD_ACK_CNT_SENT 1 a.trx).markAck a
      (if a.pend then 3 else 1)
    let s3 := s2.transmit a.trx a.mode a.chan span
    if a.pend ∧ s3.connected a.src then
      s3.setConn a.src { s3.conn a.src with openNs := span.2 - 200000 + 10000000, openChan := a.chan }
    else s3

/-! ### Register writes (R221, R223, R229) -/

/-- A channel lies inside a window (R222). -/
def inWindow (s : State) (mode chan centre : Nat) : Bool :=
  let f := chanFreq s.part.bandU mode chan
  decide ((if f ≤ centre then centre - f else f - centre) + spacing mode / 2 ≤ 1600)

/-- Demodulators of a list are deaf for 200 µs. -/
def retune (s : State) (ds : List Nat) : State := s.deafen ds (s.nowNs, s.nowNs + 200000)

/-- The Gen-1 channel map: the entries of HOP1 inside the window of the transceiver that holds G1DEMOD (09 R248). -/
def g1Map (s : State) : Nat :=
  let h := s.hopMap false
  let c := s.fld R.RAD_WIN_CENTRE (s.fld R.RAD_DEMOD_TRX (s.fld R.RAD_LINK_CFG_G1DEMOD))
  (((List.range 64).filter (fun i => s.inWindow (s.hopMode h) (s.hopEntry h i) c)).map (fun i => 2 ^ i)).sum

/-- After a change that takes a channel out of G1DEMOD's window, each affected node gets MAP_UPDATE; the map applies from the
present event counter + 8 (09 R251). -/
def g1Remap (s : State) : State :=
  let m := s.g1Map
  s.links.conns.foldl (fun t e =>
    if 1 ≤ e.2.st ∧ e.2.st ≤ 3 ∧ !e.2.gen2 ∧ e.2.chmap &&& m ≠ e.2.chmap then
      (t.setConn e.1 { e.2 with newMap := some (m, (e.2.evcnt + 8) % 65536) }).enqueue
        ⟨0, true, e.1, .mapUpdate m ((e.2.evcnt + 8) % 65536), lapOctets 11, 0, false⟩
    else t) s

/-- In AGATE one demodulator runs on TRX[A]; a window that its channel lies outside is recentred on that channel (R238). -/
def agateWindow (s : State) : State :=
  let d := s.fld R.RAD_AGATE_DEMOD
  let mode := s.fld R.RAD_DEMOD_MODE d
  let chan := s.fld R.RAD_DEMOD_CHAN d
  let c := s.fld R.RAD_WIN_CENTRE 0
  if s.inWindow mode chan c then s
  else
    let s1 : State := { s with rad := { s.rad with savedWin := some c } }
    ((s1.setFld R.RAD_WIN_CENTRE (chanFreq s1.part.bandU mode chan) 0).retune [d]).g1Remap

/-- The window that AGATE has recentred is put back. -/
def agateRestore (s : State) : State :=
  match s.rad.savedWin with
  | none => s
  | some c =>
    let s1 : State := { s with rad := { s.rad with savedWin := none } }
    ((s1.setFld R.RAD_WIN_CENTRE c 0).retune (s1.demodsOf 0)).g1Remap

/-- In AGATE the window follows the demodulator that runs: another one, or another channel of it (R238). -/
def agateFollow (s : State) : State := if s.bit R.PWR_STAT_STATE then s.agateRestore.agateWindow else s

/-- RAD_AGATE: in AGATE the demodulator named runs from now on, after its retuning. -/
def writeAgate (s : State) (v : Word) : Status × State :=
  let s1 := s.setFld R.RAD_AGATE_DEMOD (getBits v 0 3)
  if !s.bit R.PWR_STAT_STATE ∨ s1.fld R.RAD_AGATE_DEMOD = s.fld R.RAD_AGATE_DEMOD then (.ok, s1)
  else (.ok, (s1.retune [s1.fld R.RAD_AGATE_DEMOD]).agateFollow)

/-- RAD_DEMOD[d] (R223, 09 R249). -/
def writeDemod (s : State) (d : Nat) (v : Word) : Status × State :=
  let x := getBits v 1 1
  let mode := getBits v 2 2
  let chan := getBits v 8 8
  if s.anyGen1 ∧ d = s.fld R.RAD_LINK_CFG_G1DEMOD then (.locked, s)
  else if s.part.trxs ≤ x then (.range, s)
  else if chanCount s.part.bandU mode ≤ chan ∨ !s.inWindow mode chan (s.fld R.RAD_WIN_CENTRE x) then (.range, s)
  else if s.fld R.RAD_RXPART_SIZE (getBits v 16 3) = 0 then (.invalid, s)
  else
    let s1 := s.wr (R.RAD_DEMOD_EN.at d 0) (v &&& 0x0007FF0F)
    if s1.rd (R.RAD_DEMOD_EN.at d 0) = s.rd (R.RAD_DEMOD_EN.at d 0) then (.ok, s1)
    else (.ok, ((s1.retune (s1.demodsOf (s1.demodTrx d) ++ s.demodsOf (s.demodTrx d)).eraseDups).g1Remap).agateFollow)

/-- RAD_WIN[x]: a change retunes the transceiver's demodulators. -/
def writeWin (s0 : State) (x : Nat) (v : Word) : Status × State :=
  let s : State := if x = 0 then { s0 with rad := { s0.rad with savedWin := none } } else s0
  let s1 := s.setFld R.RAD_WIN_CENTRE v.toNat x
  if s1.fld R.RAD_WIN_CENTRE x = s.fld R.RAD_WIN_CENTRE x then (.ok, s1) else (.ok, (s1.retune (s1.demodsOf x)).g1Remap)

/-- A connection uses hop map h. -/
def mapInUse (s : State) (h : Nat) : Bool :=
  s.links.conns.any (fun e => decide (1 ≤ e.2.st ∧ e.2.st ≤ 3) && decide (h = s.hopMap e.2.gen2))

/-- Every entry of hop map h is a channel of the mode. -/
def hopLegal (s : State) (h mode : Nat) : Bool :=
  (List.range 64).all (fun i => decide (s.hopEntry h i < chanCount s.part.bandU mode))

/-- RAD_HOP_CFG[h] (R221). -/
def writeHopCfg (s : State) (h : Nat) (v : Word) : Status × State :=
  let mode := getBits v 0 2
  let valid := v.getLsbD 31
  let ok := s.wr (R.RAD_HOP_CFG_MODE.at h 0) (v &&& 0x80000003)
  if s.hopValid h then
    if mode ≠ s.hopMode h then (.locked, s)
    else if !valid ∧ s.mapInUse h then (.busy, s)
    else (.ok, ok)
  else if valid then
    if s.hopLegal h mode then (.ok, { ok with links := { ok.links with advDue := insertNat h ok.links.advDue } }) else (.range, s)
  else (.ok, ok)

/-- RAD_HOP_ENT[i]. -/
def writeHopEnt (s : State) (i : Nat) (v : Word) : Status × State :=
  if s.hopValid (i / 16) then (.locked, s) else (.ok, s.wr (R.RAD_HOP_ENT_CHAN.at i 0) v)

/-- RAD_RXPART[p] (R229). -/
def writeRxpart (s : State) (p : Nat) (v : Word) : Status × State :=
  let n := getBits v 0 22
  let others := (((List.range 8).filter (fun q => decide (q ≠ p))).map (fun q => s.fld R.RAD_RXPART_SIZE q)).sum
  if n ≠ 0 ∧ (n % 64 ≠ 0 ∨ n < 2112) then (.range, s)
  else if 3670016 < others + n then (.noSpace, s)
  else if (List.range s.part.demods).any (fun d => s.bit R.RAD_DEMOD_EN d && decide (s.fld R.RAD_DEMOD_PART d = p)) then (.busy, s)
  else (.ok, s.setFld R.RAD_RXPART_SIZE n p)

/-- RAD_LINK_CFG (09 R265). A valid map that HOP2 comes to name is the generation's from now on: its first ROUTE_ADV is due at the next edge
(09 R241). -/
def writeLinkCfg (s : State) (v : Word) : Status × State :=
  let sup := getBits v 16 6
  if sup < 1 ∨ 60 < sup ∨ s.part.demods ≤ getBits v 8 3 then (.range, s)
  else if s.anyConn ∧ getBits v 0 8 ≠ getBits (s.rd 0x60200) 0 8 then (.busy, s)
  else
    let s1 := (s.wr 0x60200 (v &&& 0x003F07FF)).g1Remap
    let named := s1.hopMap true ≠ s.hopMap true ∧ s1.hopValid (s1.hopMap true)
    (.ok, if named then { s1 with links := { s1.links with advDue := insertNat (s1.hopMap true) s1.links.advDue } } else s1)

/-- RAD_LINK_MAP_HI: the commit (09 R251). The announcement is flooded in class 0. -/
def writeLinkMap (s : State) (v : Word) : Status × State :=
  let m := s.fld R.RAD_LINK_MAP_LO_MAP + v.toNat * 2 ^ 32
  if (mapEntries m).length < 2 then (.invalid, s)
  else
    let at_ := ceilDiv (s.nowNs + 70000000000) 60000000000 * 60000
    let s1 := s.setFld R.RAD_LINK_MAP_HI_MAP v.toNat
    let s2 := { s1 with links := { s1.links with mapNext := some (m, at_) } }
    (.ok, s2.enqueueAll 0 (.mapAnnounce m ((s.fld R.RAD_LINK_MAP_VER_VERSION + 1) % 256) at_) (lapOctets 16) 0)

/-- The RAD registers whose writes are not plain. -/
def radWrite (s : State) (a : Nat) (v : Word) : Option (Status × State) :=
  if 0x60040 ≤ a ∧ a < 0x60060 then some (s.writeDemod ((a - 0x60040) / 4) v)
  else if 0x60080 ≤ a ∧ a < 0x600A0 then some (s.writeRxpart ((a - 0x60080) / 4) v)
  else if a = 0x60100 ∨ a = 0x60140 then some (s.writeWin ((a - 0x60100) / 64) v)
  else if 0x60800 ≤ a ∧ a < 0x60810 then some (s.writeHopCfg ((a - 0x60800) / 4) v)
  else if 0x60900 ≤ a ∧ a < 0x60A00 then some (s.writeHopEnt ((a - 0x60900) / 4) v)
  else if a = R.RAD_AGATE_DEMOD.addr then some (s.writeAgate v)
  else if a = 0x60200 then some (s.writeLinkCfg v)
  else if a = 0x60208 then some (s.writeLinkMap v)
  else if a = 0x60230 then some (if s.part.lanterns ≤ getBits v 0 14 then (.range, s) else (.ok, s.wr a (v &&& 0x3FFF)))
  else if 0x68000 ≤ a ∧ a < 0x69000 then some (.ok, s.wr a (v &&& 0x55555555))
  else none

/-- The check interval of a connection in ms for its period, 125 for CI = 0 (09 R240). -/
def connPeriod (c : Conn) : Nat := if c.ci = 0 then 125 else ciMs c.ci

/-- What a RAD register reads as. -/
def radView (s : State) (a : Nat) (w : Word) : Word :=
  let l := s.fld R.RAD_LINK_SEL_LID
  let c := s.conn l
  if 0x600A0 ≤ a ∧ a < 0x600C0 then
    let p := (a - 0x600A0) / 4
    putBits w 0 22 (s.fld R.RAD_RXPART_SIZE p - s.spaceHeld p)
  else if 0x68000 ≤ a ∧ a < 0x69000 then
    (List.range 16).foldl (fun x j => putBits x (2 * j + 1) 1 (if s.pendOf (16 * ((a - 0x68000) / 4) + j) then 1 else 0)) w
  else if a = 0x60214 then putBits w 0 10 (min 512 s.outstanding)
  else if a = 0x60234 then
    BitVec.ofNat 32 (c.st + (if c.gen2 then 8 else 0) + (if c.gen2 then c.ci * 16 else 0) + (min 15 c.m) * 256 +
      (if c.gen2 then s.nowMs / connPeriod c % 65536 else c.evcnt % 65536) * 65536)
  else if a = 0x60238 then BitVec.ofNat 32 (if c.gen2 then s.links.map else c.chmap)
  else if a = 0x6023C then BitVec.ofNat 32 ((if c.gen2 then s.links.map else c.chmap) / 2 ^ 32)
  else if 0x60240 ≤ a ∧ a < 0x60250 then
    let j := (a - 0x60240) / 4
    let r := if (s.leaf l).joined then (s.route l).getD [] else []
    BitVec.ofNat 32 (r.getD (2 * j) 0xFFFF + r.getD (2 * j + 1) 0xFFFF * 65536)
  else w

/-- End of SNAP: frames that arrived before the edge leave the partitions, as does the space reserved for a frame whose demodulator no longer
runs (R230), and periods that no frame can meet any more are
forgotten. -/
def radSnap (s : State) (edge : Nat) : State :=
  let keep (p : Nat × Nat) : Bool := decide (edge ≤ p.2 + 1000000000)
  let prune (m : SMap (List (Nat × Nat))) : SMap (List (Nat × Nat)) :=
    m.foldl (fun (t : SMap (List (Nat × Nat))) (e : Nat × List (Nat × Nat)) => SMap.set [] t e.1 (e.2.filter keep)) m
  { s with rad := { s.rad with
    stored := s.rad.stored.filter (fun r => decide (edge ≤ r.arrNs))
    inAir := s.rad.inAir.filter (fun a => s.demodRuns a.demod)
    txSpans := prune s.rad.txSpans, deafSpans := prune s.rad.deafSpans, pa := prune s.rad.pa } }

end State

/-- `phr`: the frame's PHR has just been received, and of the record only the demodulator, SFD time, length and PHR count; else its last bit
has. -/
def execRadioFrameReceive (phr : Bool) (f : RxFrame) (us : Fin 20000) (s : State) : Out :=
  .next (if phr then (s.atUs us).rxPhr f else (s.atUs us).rxFrame f)

/-- The acknowledgement due first on transceiver x, 1,000 µs after the end of its frame. -/
def execAckTransmit (x : Fin 2) (s : State) : Out :=
  .next (match s.firstAck x with
    | none => s
    | some a => s.whenDue (a.endNs + 1000000) (fun t => t.ackSend a))

/-- The head of a queue is to begin its launch sequence at `us` in the frame; `energy`: what its CCA measures, in dBm. -/
def execLaunch (x : Fin 2) (us : Fin 20000) (energy : Int) (s : State) : Out :=
  .next (match s.tlqOf x with
    | e :: _ => if e.retryNs.isSome then s else (s.atUs us).launchTry x energy
    | [] => s)

/-- The attempt 500 µs after a busy CCA. -/
def execCcaRetry (x : Fin 2) (energy : Int) (s : State) : Out :=
  .next (match s.tlqOf x with
    | e :: rest => match e.retryNs with
      | some r => s.whenDue r (fun t => (t.setTlq x ({ e with retryNs := none } :: rest)).launchTry x energy)
      | none => s
    | [] => s)

end Sys2Proof.Machine
end

