-- ==== Sys2Proof/Machine/Links.lean ====
section
/-! DEFINITION. Radio links (09_radio_links.md): what is offered to the launch queues, Gen-1 windows, supervision, routes and
channel maps. -/

namespace Sys2Proof.Machine

namespace State

/-! ### Offering items (R261 to R263) -/

/-- An item can be launched (R246, R260, R263). -/
def launchable (s : State) (i : DownItem) : Bool :=
  if i.dest = 0xFFFF then s.hopValid (s.hopMap true)
  else if isJoinRsp i then true
  else
    let c := s.conn (s.itemHop i)
    s.ripe i && (c.gen2 || decide (s.nowNs < c.openNs))

/-- When the class 1 parts queued on TRX[A] have ended: the next follows back to back (R262). -/
def partsEnd (s : State) : Nat :=
  (s.tlqOf 0).foldl (fun t e => if e.cls = 1 ∧ e.item.dest = 0xFFFF ∧ !e.item.sampling then max t (e.due + airNs e.mode (2 + e.octets)) else t) 0

/-- The transceiver for an item: TRX[A] for broadcasts (R262), else the shorter queue. -/
def itemTrx (s : State) (i : DownItem) : Nat := if i.dest = 0xFFFF then 0 else s.pickTrx

/-- The entry of a JOIN_RSP: to a Gen-1 node on u[0] of its map, else on the channel of depth 1 (log entry 142). -/
def joinEntry (s : State) (x : Nat) (i : DownItem) (seq : Nat) : TlqEntry :=
  let e := { s.plainEntry x i seq (max s.nowNs i.due) with cca := true }
  match i.msg with
  | .joinRsp _ _ _ _ _ (some (_, _, map)) =>
    let h := s.hopMap false
    let mode := s.hopMode h
    { e with due := max s.nowNs i.due + airNs mode s.headOctets, mode := mode, chan := s.chanOf h map 0 0, flex := false }
  | _ => e

/-- The launch queue entry of an item. -/
def itemEntry (s : State) (x : Nat) (i : DownItem) (seq : Nat) : TlqEntry :=
  if i.dest = 0xFFFF then s.bcastEntry i seq (max (max s.nowNs i.due) (if i.cls = 1 ∧ !i.sampling then s.partsEnd else 0))
  else if isJoinRsp i then s.joinEntry x i seq
  else s.unicastEntry x (s.itemHop i) i seq

/-- The queue's classes leave room for an item (R261). -/
def classRoom (s : State) (x : Nat) (i : DownItem) : Bool :=
  if i.link ∨ i.cls = 0 then true
  else if i.cls = 1 then decide (s.tlqCount x (fun c => decide (c = 1)) < 32)
  else decide (s.tlqCount x (fun c => decide (2 ≤ c)) < 16)

/-- Take the first copy of an item out of the downlink queue. -/
def unqueue (s : State) (i : DownItem) : State := { s with links := { s.links with queue := s.links.queue.erase i } }

/-- Offer an item: accepted, or dropped as too late or illegal, or kept for later (R235, R261). -/
def offerItem (s : State) (i : DownItem) : State :=
  let x := s.itemTrx i
  if !s.classRoom x i then s
  else
    let (seq, s1) := s.nextSeq
    match s1.tlqOffer x (s1.itemEntry x i seq) with
    | (.ok, s2) => s2.unqueue i
    | (.late, _) => s.unqueue i
    | (.range, _) => s.unqueue i
    | (_, _) => s

/-- The path of an item in the class 2 and 3 tree (R263). -/
def itemPath (s : State) (i : DownItem) : List Nat := [s.itemHop i, if i.cls = 2 then i.dest else 16384]

/-- Its charge in quanta of 1 ms of first-hop airtime. -/
def itemCharge (s : State) (i : DownItem) : Nat :=
  let c := s.conn (s.itemHop i)
  let ci := if !c.gen2 ∨ s.nowNs < c.openNs then 0 else ciMs c.ci
  ceilDiv (s.unicastNs (s.hopMode (s.hopMap c.gen2)) ci (i.octets + 2 * (s.sourceRoute i.dest).length)) 1000000

/-- The backlogged leaves, each with its oldest item's charge. -/
def downLeaves (s : State) : List Leaf :=
  (s.links.queue.filter (fun i => decide (2 ≤ i.cls) && !i.link && s.launchable i && s.classRoom (s.itemTrx i) i)).foldl
    (fun ls i =>
      let p := s.itemPath i
      if ls.any (fun l => decide (l.path = p)) then ls
      else ls ++ [⟨p, if i.cls = 2 then 1 else max 1 (s.fld R.RAD_DL_CFG_BULK_W), s.itemCharge i⟩]) []

/-- Offer the next item of classes 2 and 3 by the deficit tree. -/
def offerTree (s : State) : State :=
  let ls := s.downLeaves
  if ls.isEmpty then s
  else match serveOne (s.bit R.RAD_DL_CFG_COMPAT) s.links.arb ls with
    | (arb, some l) =>
      let s1 := { s with links := { s.links with arb := arb } }
      match s1.links.queue.find? (fun i => decide (2 ≤ i.cls) && !i.link && s.launchable i && decide (s.itemPath i = l.path)) with
      | some i => s1.offerItem i
      | none => s1
    | (arb, none) => { s with links := { s.links with arb := arb } }

/-- The first launchable item of class 0 or a link frame, else of class 1. -/
def firstUrgent (s : State) : Option DownItem :=
  match s.links.queue.find? (fun i => (decide (i.cls = 0) || i.link) && s.launchable i) with
  | some i => some i
  | none => s.links.queue.find? (fun i => decide (i.cls = 1) && s.launchable i && s.classRoom (s.itemTrx i) i)

/-- Offer the next item. -/
def offerNext (s : State) : State :=
  match s.firstUrgent with
  | some i => s.offerItem i
  | none => s.offerTree

/-- Offer items of classes 0 and 1 and link frames while they are accepted, at most n. -/
def offerUrgent : Nat → State → State
  | 0, s => s
  | n + 1, s =>
    match s.firstUrgent with
    | some i =>
      let t := s.offerItem i
      if t.links.queue.length < s.links.queue.length then offerUrgent n t else t
    | none => s

/-- What an EMIT has queued is offered at once. -/
def offerNow (s : State) : State := offerUrgent s.links.queue.length s

/-! ### Gen-1 windows (R249, R250) -/

/-- The next event of a Gen-1 connection, its guard, and the half-width of its window. -/
def nextEvent (s : State) (lid : Nat) : Nat × Nat × Nat :=
  let c := s.conn lid
  let ev := c.evNs + c.si * 1000000
  let guard := (ev - c.heardNs) * 80 / 1000000 + 200000
  (ev, guard, min 12500000 (guard * 2 ^ c.m))

/-- The event happens: its counter advances, and a map that waited for it takes over. -/
def eventPass (s : State) (lid ev : Nat) : State :=
  let c := s.conn lid
  let k := (c.evcnt + 1) % 65536
  match c.newMap with
  | some (m, n) =>
    if n = k then s.setConn lid { c with evcnt := k, evNs := ev, chmap := m, newMap := none }
    else s.setConn lid { c with evcnt := k, evNs := ev }
  | none => s.setConn lid { c with evcnt := k, evNs := ev }

/-- An event is missed: WIDENING, and RESYNC at the sixth. -/
def eventMissed (s : State) (lid : Nat) : State :=
  let c := s.conn lid
  if c.st = 1 then s.setConn lid { c with st := 2, m := 1, supNs := some s.nowNs }
  else if c.st = 2 then (if c.m + 1 < 6 then s.setConn lid { c with m := c.m + 1 } else s.setConn lid { c with st := 3, m := 6 })
  else s.setConn lid { c with m := min 15 (c.m + 1) }

/-- A Gen-1 connection whose map is valid. -/
def g1Live (s : State) (lid : Nat) : Bool := s.connected lid && !(s.conn lid).gen2 && s.hopValid (s.hopMap false)

/-- Some window is open. -/
def windowOpen (s : State) : Bool := s.links.conns.any (fun e => e.2.window)

/-- Open the window of a node for its next event; too late for event + guard, the event counts as missed. -/
def openWindow (s : State) (lid ev guard : Nat) : State :=
  let s1 := s.eventPass lid ev
  if ev + guard < s.nowNs then s1.eventMissed lid
  else
    let c := s1.conn lid
    let h := s1.hopMap false
    { s1.setConn lid { c with window := true, got := false } with rad := { s1.rad with g1chan := some (s1.chanOf h c.chmap c.evcnt 0) } }

def closeWindow (s : State) (lid : Nat) : State :=
  let c := s.conn lid
  let s1 := { s.setConn lid { c with window := false } with rad := { s.rad with g1chan := none } }
  if c.got then s1 else s1.eventMissed lid

/-! ### SNAP (R259, R260, R241) -/

/-- Take an uplink frame's route into its record; a Gen-2 node whose parent is the module is a direct child. -/
def noteRoute (s : State) (n : RouteNote) : State :=
  if !recComm s.fmem n.lid ∨ s.part.lanterns ≤ n.lid then s
  else
    let s1 := ((s.setLan n.lid 0x52 2 n.parent).setLan n.lid 0x51 1 n.hops).setLan n.lid 0x54 1 n.lqi
    let s2 := if (s1.route n.lid).isSome then
        { s1 with links := { s1.links with failed := s1.links.failed.filter (fun q => decide (q ≠ n.lid)) } }
      else s1
    let s3 := if routeLoops s2.fmem s2.part.lanterns (s2.part.lanterns + 1) n.lid [] then s2.setBit R.RAD_LINK_EVT_LOOP true else s2
    let c := s3.conn n.lid
    if n.parent = 0xFFFF then
      (if c.st = 0 ∧ (s3.leaf n.lid).joined ∧ (s3.lan n.lid 0 2).testBit 15 then
        s3.setConn n.lid { c with st := 1, gen2 := true, supMs := s3.fld R.RAD_LINK_CFG_SUP * 1000, heardNs := s3.nowNs }
       else s3)
    else if c.gen2 then s3.setConn n.lid {} else s3

/-- A status report of the lantern has arrived before `edge` since the module came to know it (07 R179 step 7, 05 R143). -/
def reported (s : State) (lid edge : Nat) : Bool :=
  (s.leaf lid).reportNs.isSome || s.seg.reports.any (fun r => decide (r.1 = lid ∧ r.2.1 < edge))

/-- Write REACHABLE, and HOPS 0 without it. -/
def reachSnap (edge : Nat) (s : State) (lid : Nat) : State :=
  let st := s.lan lid 0x4E 2
  let r := s.reported lid edge && s.routeOk lid
  let s1 := s.setLan lid 0x4E 2 (st / 2 * 2 + (if r then 1 else 0))
  if r then s1 else s1.setLan lid 0x51 1 0

/-- The module's ROUTE_ADV; the next follows 30 s later (R258). -/
def routeAdv (s : State) : State :=
  let s1 : State := { s with links := { s.links with advNs := some s.nowNs } }
  s1.enqueueMesh ⟨0, true, 0xFFFF, .routeAdv 0 0 0 (s.fld R.RAD_LINK_MAP_VER_VERSION), lapOctets 5, 0, false⟩

/-- The links layer's part of SNAP. -/
def linkSnap (s : State) (edge : Nat) : State :=
  let s1 := (s.links.notes.filter (fun n => decide (n.ns < edge))).foldl noteRoute s
  let s2 := { s1 with links := { s1.links with notes := s1.links.notes.filter (fun n => decide (edge ≤ n.ns)) } }
  let s3 := (commissioned s2.fmem s2.part.lanterns).foldl (reachSnap edge) s2
  let s4 := if s3.links.advDue.contains (s3.hopMap true) ∧ s3.hopValid (s3.hopMap true) then
      s3.routeAdv
    else s3
  { s4 with links := { s4.links with advDue := [] } }

end State

/-- In ONYX nothing is offered: TRX[A] sends only the last-gasp report (08 R238). -/
def execDownlinkOffer (us : Fin 20000) (s : State) : Out := .next (if s.pwr.mode = .onyx then s else (s.atUs us).offerNext)

def execG1WindowOpen (lid : Fin 16384) (s : State) : Out :=
  let (ev, guard, h) := s.nextEvent lid
  .next (if s.g1Live lid ∧ !s.windowOpen then s.whenDue (ev - h) (fun t => t.openWindow lid ev guard) else s)

def execG1WindowClose (lid : Fin 16384) (s : State) : Out :=
  let c := s.conn lid
  let guard := (c.evNs - c.heardNs) * 80 / 1000000 + 200000
  let h := min 12500000 (guard * 2 ^ c.m)
  .next (if c.window then (if c.got then s.closeWindow lid else s.whenDue (c.evNs + h) (fun t => t.closeWindow lid)) else s)

def execSupervisionTimeout (lid : Fin 16384) (s : State) : Out :=
  .next (match (s.conn lid).supNs with
    | some t => if s.connected lid then s.whenDue (t + (s.conn lid).supMs * 1000000) (fun u => u.connDrop lid) else s
    | none => s)

/-- The instant of a resync beacon within the µs that begins at `t`: 0.5, 1.0 or 1.5 s after a multiple of 30 s of module time (R252). -/
def beaconAt (t : Nat) : Option Nat :=
  let at0 := (t + 999) / 500000000 * 500000000
  let ms := at0 / 1000000 % 30000
  if t ≤ at0 ∧ (ms = 500 ∨ ms = 1000 ∨ ms = 1500) then some at0 else none

/-- A resync beacon in RESYNC, its first bit at its instant. -/
def execResyncBeacon (lid : Fin 16384) (us : Fin 20000) (s : State) : Out :=
  let t := s.atUs us
  let c := t.conn lid
  let h := t.hopMap false
  .next (if c.st = 3 ∧ t.g1Live lid ∧ (beaconAt t.nowNs).isSome then
      let (ev, _, _) := t.nextEvent lid
      let x := t.pickTrx
      let (seq, t1) := t.nextSeq
      let i : DownItem := ⟨0, true, lid, .beacon ((c.evcnt + 1) % 65536) (ev / 1000000) c.si c.anchor, State.lapOctets 16, 0, false⟩
      let mode := t.hopMode h
      (t1.tlqOffer x { due := (beaconAt t.nowNs).getD t.nowNs + airNs mode t.headOctets, cls := 0, mode := mode, chan := t.chanOf h c.chmap 0 0, power := t.txPower x
                       cca := false, octets := i.octets, tries := 0, seq := seq, retryNs := none, item := i }).2
    else t)

namespace State

/-- The repeat of a unicast, its number kept, 0 to 3 ms from now: to a sampling node the first two within its 10 ms on the same channel,
the third in its next period with a full sequence (R254). -/
def repeatFlight (s : State) (x : Nat) (g : Flight) (delay : Nat) : State :=
  let c := s.conn g.hop
  let c1 := if !c.gen2 ∨ c.ci = 0 then c
    else if g.tries < 2 then { c with openNs := max c.openNs (s.nowNs + 10000000), openChan := g.chan }
    else { c with openNs := 0 }
  let s1 := if s.connected g.hop then s.setConn g.hop c1 else s
  let e := s1.itemEntry x { g.item with due := s.nowNs + delay * 1000000 } g.seq
  s1.tlqPut x { e with tries := g.tries + 1, item := g.item }

/-- Nothing came after all repeats: a Gen-2 connection's supervision timer starts (R250); what a JOIN_RSP had prepared is given up. -/
def flightFailed (s : State) (g : Flight) : State :=
  let s1 := match g.item.msg with
    | .joinRsp _ _ short _ _ _ => { s with links := { s.links with prep := SMap.set {} s.links.prep short {} } }
    | _ => s
  let c := s1.conn g.hop
  if c.st = 1 ∧ c.gen2 ∧ c.supNs = none then s1.setConn g.hop { c with supNs := some s1.nowNs } else s1

end State

/-- A unicast in flight stays unacknowledged beyond its limit: repeated at most three times (R254). A repeat of class 2 or 3 for which the launch
queue has no room waits until it has (R261; DESIGN CHOICE, log entry 177). -/
def execAckWaitTimeout (x : Fin 2) (seq : Fin 256) (us : Fin 20000) (delay : Fin 4) (s : State) : Out :=
  let t := s.atUs us
  .next (match t.links.flight.find? (fun g => decide (g.trx = x.val ∧ g.seq = seq.val ∧ g.limitNs ≤ t.nowNs)) with
    | none => t
    | some g =>
      let t1 := { t with links := { t.links with flight := t.links.flight.filter (fun q => decide (q ≠ g)) } }
      if g.tries < 3 ∧ !t.classRoom x g.item then t
      else if g.tries < 3 then t1.repeatFlight x g delay else t1.flightFailed g)

/-- 30 s after the last. -/
def execRouteAdvSend (s : State) : Out :=
  .next (match s.links.advNs with
    | some t => if s.hopValid (s.hopMap true) then s.whenDue (t + 30000000000) (fun u => u.routeAdv) else s
    | none => s)

/-- A ROUTE_ERR names a failed next hop (R260). -/
def execRouteErr (lid : Fin 16384) (s : State) : Out :=
  let s1 := s.setBit R.RAD_LINK_EVT_ROUTE true
  .next { s1 with links := { s1.links with failed := (s1.links.failed ++ (lid.val :: s1.subtree lid)).eraseDups } }

def execDstExpire (lid : Fin 16384) (s : State) : Out :=
  let t := SMap.find 0 s.links.dst lid
  .next (if t = 0 then s
    else s.whenDue t (fun u =>
      ({ u with links := { u.links with dst := SMap.set 0 u.links.dst lid 0 } }).setBit (R.RAD_FILT_DST (lid % 16)) false (lid / 16)))

/-- The announced channel map takes effect (R251). -/
def execChannelMapSwitch (s : State) : Out :=
  .next (match s.links.mapNext with
    | none => s
    | some (m, ms) => s.whenDue (ms * 1000000) (fun t =>
        ({ t with links := { t.links with map := m, mapNext := none } }).addWrap R.RAD_LINK_MAP_VER_VERSION 1))

end Sys2Proof.Machine
end

