-- ==== Sys2Proof/Machine/GspOps.lean ====
section
/-! DEFINITION. Sessions of the host protocol (19_host_protocol.md): roles, requests, the response cache, notifications. -/

namespace Sys2Proof.Machine

/-- Serial-number order of 32-bit IDs: `a` is older than `b`. -/
def olderId (a b : Nat) : Bool := decide (0 < (b + 2 ^ 32 - a) % 2 ^ 32 ∧ (b + 2 ^ 32 - a) % 2 ^ 32 < 2 ^ 31)

/-- Roles rank READER, OPERATOR, OWNER; SERVICE ranks with OWNER (R420). -/
def roleRank (r : Nat) : Nat := min 3 r

namespace State

def sess (s : State) (i : Nat) : Session := SMap.find {} s.host.sessions i

def setSess (s : State) (i : Nat) (x : Session) : State :=
  { s with host := { s.host with sessions := SMap.set {} s.host.sessions i x } }

def sessState (s : State) (i : Nat) : Nat := s.fld R.HOST_SESS_STATE i

def sessRole (s : State) (i : Nat) : Nat := s.fld R.HOST_SESS_ROLE i

def sessVersion (s : State) (i : Nat) : Nat := s.fld R.HOST_SESS_VERSION i

def sessFeature (s : State) (i b : Nat) : Bool := (s.fld R.HOST_SESS_FEATURES i).testBit b

/-- Sessions open (HOST_STAT). -/
def syncSessions (s : State) : State :=
  s.setFld R.HOST_STAT_SESSIONS (((List.range 8).filter (fun i => decide (s.sessState i = 2))).length)

/-- A response takes its place in the cache, the newest ID first. -/
def insertResp (r : HostResp) : List HostResp → List HostResp
  | [] => [r]
  | q :: qs => if olderId r.id q.id then q :: insertResp r qs else r :: q :: qs

/-- Send the RESPONSE of a request that runs, and cache it among those of the last 256 IDs; a repeat that waited for it gets it once more
(R425). -/
def respond (s : State) (i id : Nat) (st : Status) (res : List Int) : State :=
  if 8 ≤ i ∨ s.sessState i = 0 ∨ !(s.sess i).running.contains id then s
  else
    let x := s.sess i
    let s1 := s.setSess i { x with
      cache := (insertResp ⟨id, st, res⟩ x.cache).take 256, running := x.running.filter (fun n => decide (n ≠ id))
      repeated := x.repeated.filter (fun n => decide (n ≠ id)) }
    if s.sessState i = 3 then s1
    else
      let s2 := s1.emit (.response i id false st res)
      if x.repeated.contains id then s2.emit (.response i id true st res) else s2

/-- The open transaction of a session rolls back. -/
def txnDrop (s : State) (i : Nat) : State :=
  ((s.setSess i { s.sess i with txn := none }).setBit R.HOST_SESS_TXN_OPEN false i).setFld R.HOST_SESS_TXN_WORDS 0 i

/-- A stream or LANTERN_CMD with TXN set: refused, and the whole transaction rolls back (19 R428). -/
def txnRefused (s : State) (i id : Nat) : State :=
  if !s.sessFeature i 1 then s.respond i id .version [] else (s.txnDrop i).respond i id .invalid []

/-- A refusal for want of the role: answered, and one SEC record (16 R377). -/
def respondAuth (s : State) (i id : Nat) : State := (s.respond i id .auth []).report 1 0x11 .authRefused [i, id] []

/-- A session's role reaches `least`: 1 READER to 3 OWNER, 4 SERVICE only (R424). A session by PIN alone may only read
registers and load the first OWNER_CA (R419): `un` says whether the request is one of these. -/
def roleOk (s : State) (i least : Nat) (un : Bool) : Bool :=
  (if least = 4 then decide (s.sessRole i = 4) else decide (least ≤ roleRank (s.sessRole i) ∧ s.sessRole i ≠ 0)) &&
    (un || !(s.sess i).unowned)

/-- A message of session i has arrived. -/
def sessHeard (s : State) (i : Nat) : State := s.setSess i { s.sess i with heardNs := s.nowNs }

/-- Sessions are served. -/
def hostRuns (s : State) : Bool := decide (s.pwr.mode = .on) && s.ready 16 && !s.pwr.paused

/-- A REQUEST with an ID: repeats are answered from the cache, others run once (R425). -/
def request (s : State) (i id least : Nat) (un : Bool) (run : State → State) : State :=
  if !s.hostRuns ∨ s.sessState i ≠ 2 then s
  else
    let s1 := s.sessHeard i
    let x := s1.sess i
    match x.cache.find? (fun r => decide (r.id = id)) with
    | some r => (s1.emit (.response i id true r.st r.words)).addSat R.HOST_CNT_DUP 1
    | none =>
      if x.running.contains id then
        (s1.setSess i { x with repeated := id :: x.repeated.filter (fun n => decide (n ≠ id)) }).addSat R.HOST_CNT_DUP 1
      else if x.cache.getLast?.any (fun r => olderId id r.id) then s1.emit (.response i id false .range [])
      else
        let s2 := (s1.setSess i { x with running := id :: x.running }).setFld R.HOST_SESS_REQ_ID id i
        if s2.roleOk i least un then run s2 else s2.respondAuth i id

/-- Class A changes made during a trial are counted (18 R415). -/
def trialWrite (s : State) (n : Nat) : State := if s.fld R.UPD_STATE_STATE = 4 then s.addSat R.UPD_STAT_TRIAL_WRITES n else s

/-- A notification to every session that has subscribed the topic (R432). -/
def notifyAll (s : State) (topic : Nat) (data : List Nat) : State :=
  (List.range 8).foldl (fun t i =>
    if t.sessState i = 2 ∧ (t.sess i).topics.testBit topic then t.emit (.notify i topic data) else t) s

end State
end Sys2Proof.Machine
end

