-- ==== Sys2Proof/Machine/UpdOps.lean ====
section
/-! DEFINITION. Field update, the shared part (18_update.md): the slots and their registers, events, and the end of staging, which also an
entry into GARNET brings about (R409). -/

namespace Sys2Proof.Machine

namespace State

def updState (s : State) : Nat := s.fld R.UPD_STATE_STATE

def setUpdState (s : State) (st : Nat) : State := s.setFld R.UPD_STATE_STATE st

def activeSlot (s : State) : Nat := s.fld R.UPD_SLOT_ACTIVE

def slotParts (s : State) (k : Nat) : List UpdPart := if k = 0 then s.upd.slot0 else s.upd.slot1

def setSlotParts (s : State) (k : Nat) (ps : List UpdPart) : State :=
  { s with upd := if k = 0 then { s.upd with slot0 := ps } else { s.upd with slot1 := ps } }

/-- Kind and index of the registers UPD_PART[k]. -/
def partKey (k : Nat) : Nat × Nat := ([(1, 0), (2, 0), (3, 0), (3, 1), (4, 0), (5, 0)] : List (Nat × Nat)).getD k (0, 0)

def partOf (ps : List UpdPart) (kind index : Nat) : Option UpdPart := ps.find? (fun p => decide (p.kind = kind ∧ p.index = index))

def versionOf (ps : List UpdPart) (kind index : Nat) : Nat := ((partOf ps kind index).map (fun p => p.version)).getD 0

/-- Show the per-part registers. -/
def updParts (s : State) : State :=
  let act := s.slotParts s.activeSlot
  let ina := s.slotParts (1 - s.activeSlot)
  (List.range 6).foldl (fun t k =>
    let (kind, index) := partKey k
    let listed := (s.upd.manifest.map (fun m => m.parts.any (fun p => decide (p.kind = kind ∧ p.index = index)))).getD false
    let t1 := (t.setFld R.UPD_PART_ACTIVE_VERSION (versionOf act kind index) k).setFld R.UPD_PART_STAGED_VERSION (versionOf ina kind index) k
    (t1.setBit R.UPD_PART_STAT_LISTED listed k).setBit R.UPD_PART_STAT_VERIFIED (listed && (partOf ina kind index).isSome) k) s

/-- Set an event bit; each change of UPD_EVT is notified (19 R432). -/
def updEvt (s : State) (f : Fld) : State :=
  if s.bit f then s
  else
    let s1 := s.setBit f true
    s1.notifyAll 2 [(s1.rd R.UPD_EVT_STAGED.addr).toNat]

/-- A refusal or failure is shown. -/
def updRefuse (s : State) (st : Status) (reason : Nat) : State :=
  (s.setFld R.UPD_STATE_STATUS st.code).setFld R.UPD_STATE_REASON reason

/-- The record of an activation, confirmation or rollback. -/
def updRecord (s : State) (seq cause : Nat) : State := s.report 1 0x0E .update [seq] [s.activeSlot, cause]

/-- Erase the inactive slot and what was staged there. -/
def eraseStaged (s : State) : State :=
  let s1 := s.setSlotParts (1 - s.activeSlot) []
  (({ s1 with upd := { s1.upd with manifest := none, got := 0, fwdBlobs := [] } }).setFld R.UPD_SEQ_STAGED_SEQ 0).updParts

/-- The SEC record of a step of staging (16 R377): 0 a manifest accepted, 1 a part whole, 2 STAGED, 3 ended with a status, 4 aborted. -/
def updStage (s : State) (what : Nat) (data : List Nat) : State := s.report 1 0x0E .staging [what] data

/-- Staging ends: back to IDLE with a status. -/
def stagingEnd (s : State) (st : Status) : State :=
  (((s.eraseStaged.setUpdState 0).updRefuse st 0).updEvt R.UPD_EVT_FAILED).updStage (if st = .ok then 4 else 3) [s.upd.got, st.code]

/-- ABORT, loss of VAUX, GARNET, or the end of the session whose stream stages a part. -/
def stagingAbort (s : State) : State :=
  if s.updState = 1 then (s.stagingEnd .ok |>.setFld R.UPD_LAST_OUTCOME 3).setFld R.UPD_LAST_CAUSE 6 else s

end State
end Sys2Proof.Machine
end

