-- ==== Sys2Proof/Machine/Watch.lean ====
section
/-! DEFINITION. The watch core (14_power_and_watch.md R357 to R362): rules, power requests, and the photocell fallback. -/

namespace Sys2Proof.Machine

/-! ### Filters (R358) -/

/-- Insert into an ascending list. -/
def insertI (x : Int) : List Int → List Int
  | [] => [x]
  | y :: ys => if x ≤ y then x :: y :: ys else y :: insertI x ys

/-- The median of a list of odd length. -/
def medianI (xs : List Int) : Int := ((xs.foldl (fun acc x => insertI x acc) [])).getD (xs.length / 2) 0

/-- One sample through a rule's filter. -/
def WchRule.filter (x : WchRule) (kind p : Nat) (v : Int) : WchRule :=
  if !x.started then { x with out := v, hist := List.replicate (if kind = 2 then 2 * p + 1 else 1) v, equal := 1, started := true }
  else match kind with
    | 0 => { x with out := v }
    | 1 =>
      let n := if x.hist.head? = some v then min 15 (x.equal + 1) else 1
      { x with out := if p ≤ n then v else x.out, hist := [v], equal := n }
    | 2 =>
      let h := (v :: x.hist).take (2 * p + 1)
      { x with out := medianI h, hist := h }
    | _ =>
      let y := x.out + sarI (v - x.out) p
      { x with out := sext 32 (y % (2 ^ 32 : Nat)).toNat }

/-- R359: the condition, given whether it held at the last sample. -/
def watchCond (cmp : Nat) (v thresh hyst : Int) (was : Bool) : Bool :=
  let a := (v % 65536).toNat
  let b := (thresh % 65536).toNat
  match cmp with
  | 0 => decide (thresh < v) || (was && decide (thresh - hyst < v))
  | 1 => decide (v < thresh) || (was && decide (v < thresh + hyst))
  | 2 => decide (v = thresh)
  | 3 => decide (v ≠ thresh)
  | 4 => decide (a &&& b ≠ 0)
  | _ => decide (a &&& b = 0)

/-- Input i of a sample (R357); `pct` is STORE. -/
def watchInput (w : WatchIn) (pct : Nat) (i : Nat) : Int :=
  match i with
  | 0 => (min w.photo 65535 : Nat)
  | 1 => (w.mains % 8 : Nat)
  | 2 => if w.door then 1 else 0
  | 3 => if w.tamper then 1 else 0
  | 4 => (w.keys % 128 : Nat)
  | 5 => clampI w.temp (-32768) 32767
  | 6 => (min w.vaux 65535 : Nat)
  | 7 => (pct : Nat)
  | _ => (w.din % 16 : Nat)

/-- PCT of a store voltage in 10 mV (R348). -/
def storePct (v : Nat) : Nat := if v ≤ 180 then 0 else 100 * (v * v - 32400) / (250000 - 32400)

namespace State

/-! ### Power requests (R350) -/

/-- A request for QUARTZ or AGATE: an AGATE request in a frame that has a QUARTZ request leaves QUARTZ requested. -/
def powerRequest (s : State) (agate : Bool) : State :=
  let s1 := s.setBit R.PWR_REQ_AGATE (agate && !s.pwr.quartzNow)
  if agate then s1 else { s1 with pwr := { s1.pwr with quartzNow := true } }

/-! ### Rules (R357 to R360) -/

/-- The module is in QUARTZ or AGATE. -/
def poweredOn (s : State) : Bool := decide (s.pwr.mode = .on)

/-- The rule runs in the present state. -/
def ruleRuns (s : State) (r : Nat) : Bool :=
  let st := s.fld R.WCH_RULE_CFG_STATES r
  s.bit R.WCH_RULE_CFG_EN r &&
    (match s.pwr.mode with
     | .on => if s.bit R.PWR_STAT_STATE then st.testBit 1 else st.testBit 0
     | .onyx => st.testBit 2
     | _ => false)

/-- A LOG action: one OPS record, or one waiting in WCH. -/
def watchLog (s : State) (data : List Nat) : State :=
  if s.ready 7 ∧ s.poweredOn then s.report 0 0x10 .watchRule [] data
  else if s.wch.logq.length < 16 then
    let r : Rec :=
      { seq := 0, epoch := s.fld R.EVR_EPOCH_EPOCH, boot := s.fld R.EVR_BOOT_BOOT, gen := 0, source := 0x10, event := .watchRule
        repeats := 0, firstMs := s.utcRecord, lastMs := 0, monoUs := s.monoUs, key := [], data := data }
    { s with wch := { s.wch with logq := s.wch.logq ++ [r] } }
  else s.addSat R.WCH_LOGQ_DROPPED 1

/-- The records waiting in WCH go to the recorder, once it is ready. -/
def watchFlush (s : State) : State :=
  s.wch.logq.foldl (fun t r => t.evrEnter 0 r) { s with wch := { s.wch with logq := [] } }

/-- Rule r fires with a filtered value (R360). -/
def ruleFire (s : State) (r : Nat) (v : Int) : State :=
  let s1 := (s.wr R.WCH_FIRED_RULE.addr (s.rd R.WCH_FIRED_RULE.addr ||| BitVec.ofNat 32 (2 ^ r))).addSat R.WCH_RULE_STAT_FIRES 1 r
  match s.fld R.WCH_RULE_CFG_ACTION r with
  | 1 => if s.poweredOn then s1.powerRequest false else s1
  | 2 => if s.poweredOn then s1.powerRequest true else s1
  | 3 => s1.watchLog [r, s.fld R.WCH_RULE_CFG_INPUT r, (v % 65536).toNat]
  | 4 => s1.wr R.WCH_BKP_FLAGS_FLAG.addr
      (s1.rd R.WCH_BKP_FLAGS_FLAG.addr ||| BitVec.ofNat 32 (2 ^ s.fld R.WCH_RULE_CFG_FLAG r))
  | _ => s1

def wchRule (s : State) (r : Nat) : WchRule := SMap.find {} s.wch.rules r

def setWchRule (s : State) (r : Nat) (x : WchRule) : State :=
  { s with wch := { s.wch with rules := SMap.set {} s.wch.rules r x } }

/-- One sample of rule r; a rule that does not run has its hold broken. -/
def ruleSample (w : WatchIn) (s : State) (r : Nat) : State :=
  if !s.ruleRuns r then
    (s.setWchRule r { s.wchRule r with held := 0, fired := false }).setBit R.WCH_RULE_STAT_TRUE false r
  else
    let inp := s.fld R.WCH_RULE_CFG_INPUT r
    let v := watchInput w (s.fld R.PWR_STORE_PCT) inp
    let x := (s.wchRule r).filter (s.fld R.WCH_RULE_CFG_FILTER r) (s.fld R.WCH_RULE_CFG_FPARAM r) v
    let th := s.fld R.WCH_RULE_THR_THRESH r
    let thresh : Int := if inp = 5 then sext 16 th else (th : Int)
    let c := watchCond (s.fld R.WCH_RULE_CFG_CMP r) x.out thresh (s.fld R.WCH_RULE_THR_HYST r) (s.bit R.WCH_RULE_STAT_TRUE r)
    let held := if c then x.held + 1 else 0
    let fires := c && !x.fired && decide (s.fld R.WCH_RULE_TIME_HOLD r < held)
    let s1 := (s.setWchRule r { x with held := min held 65537, fired := c && (x.fired || fires) }).setBit R.WCH_RULE_STAT_TRUE c r
    let s2 := s1.setFldI R.WCH_RULE_STAT_VALUE x.out r
    if fires then s2.ruleFire r x.out else s2

/-! ### Photocell fallback (R361) -/

/-- The fallback is to be armed now. -/
def photoDue (s : State) : Bool :=
  s.bit R.WCH_PHOTO_CFG_EN &&
    (!s.ready 8 || s.bit R.ROD_FLT_STAT_GARNET ||
      (match s.wch.schedNs with
       | some t => decide (t + s.fld R.WCH_PHOTO_CFG_STALE * 60000000000 < s.nowNs)
       | none => true))

/-- The feeder commands of the fallback: the DARK state for every feeder in FEEDERS. -/
def photoWrite (s : State) : State :=
  let dark := s.bit R.WCH_PHOTO_STAT_DARK
  (List.range 6).foldl (fun t f => if (s.fld R.WCH_PHOTO_CFG_FEEDERS).testBit f then t.feederCmd f dark else t) s

/-- Arm or disarm; at the moment of arming the feeders take the DARK state. -/
def photoSync (s : State) : State :=
  if !s.poweredOn then s
  else
    let due := s.photoDue
    let was := s.bit R.WCH_PHOTO_STAT_ARMED
    let s1 := s.setBit R.WCH_PHOTO_STAT_ARMED due
    if due ∧ !was then s1.photoWrite else s1

/-- One sample of PHOTO: DARK after DELAY seconds below DUSK or above DAWN. -/
def photoSample (s : State) (lx : Nat) : State :=
  let n := s.fld R.WCH_PHOTO_CFG_DELAY * 10
  let d := if lx < s.fld R.WCH_PHOTO_LUX_DUSK then min (s.wch.darkRun + 1) 4096 else 0
  let l := if s.fld R.WCH_PHOTO_LUX_DAWN < lx then min (s.wch.lightRun + 1) 4096 else 0
  let s1 := { s with wch := { s.wch with darkRun := d, lightRun := l } }
  let was := s.bit R.WCH_PHOTO_STAT_DARK
  let dark := if n < d then true else if n < l then false else was
  let s2 := s1.setBit R.WCH_PHOTO_STAT_DARK dark
  if s2.bit R.WCH_PHOTO_STAT_ARMED ∧ dark ≠ was then s2.photoWrite else s2

/-! ### One sample -/

/-- The inputs of a sample in their registers, and the supply voltages in PWR. -/
def watchLatch (s : State) (w : WatchIn) : State :=
  let pct := storePct w.store
  let s1 := ((s.setFld R.PWR_VAUX_V (min w.vaux 65535)).setFld R.PWR_VBKP_V (min w.vbkp 65535)).setFld R.PWR_STORE_V (min w.store 65535)
  let s2 := (s1.setFld R.PWR_STORE_PCT (min pct 100)).setBit R.PWR_STORE_CHARGING w.charging
  (List.range 9).foldl (fun t i => t.setFldI R.WCH_IN_VALUE (watchInput w (min pct 100) i) i) s2

/-- One sample of the watch core. -/
def watchSample (s : State) (w : WatchIn) : State :=
  let s1 := s.watchLatch w
  let s2 := (List.range 32).foldl (ruleSample w) s1
  if s2.poweredOn then (s2.photoSync).photoSample (min w.photo 65535) else s2

/-- In ONYX time passes from sample to sample, 100 ms. -/
def onyxTick (s : State) : State := { s with fr := { s.fr with nowUs := s.fr.nowUs + 100000 } }

/-! ### Register writes (R357, R358, R361) -/

/-- A rule's configuration word is consistent. -/
def ruleCfgStatus (s : State) (v : Word) : Status :=
  let inp := getBits v 0 4
  let flt := getBits v 4 2
  let p := getBits v 6 4
  if inp = 1 ∧ !s.part.meter then .invalid
  else if 8 < inp ∨ 5 < getBits v 10 3 ∨ 4 < getBits v 13 3 then .range
  else if (flt = 1 ∨ flt = 3) ∧ p = 0 then .range
  else if flt = 2 ∧ (p = 0 ∨ 3 < p) then .range
  else .ok

/-- The WCH registers whose writes are not plain. A rule's filter starts anew when the rule is written. -/
def wchWrite (s : State) (a : Nat) (v : Word) : Option (Status × State) :=
  if a = R.WCH_PHOTO_LUX_DUSK.addr then
    some (if getBits v 16 16 ≤ getBits v 0 16 then (.invalid, s) else (.ok, s.wr a v))
  else if a = R.WCH_PHOTO_CFG_EN.addr then some (.ok, (s.wr a (v &&& 0x07FFFF7F)).photoSync)
  else if 0x100100 ≤ a ∧ a < 0x100300 then
    let r := (a - 0x100100) / 16
    if a % 16 = 0 then
      some (match s.ruleCfgStatus v with
        | .ok => (.ok, ((s.wr a (v &&& 0x80FFFFFF)).setWchRule r {}).setBit R.WCH_RULE_STAT_TRUE false r)
        | st => (st, s))
    else none
  else none

end State

/-- The watch core samples every 100 ms in QUARTZ, AGATE and ONYX (R357); a sample that comes sooner is none (log entry 155). -/
def execWatchSample (us : Fin 20000) (w : WatchIn) (s : State) : Out :=
  .next (match s.pwr.mode with
    | .on =>
      let t := s.atUs us
      if t.nowNs < t.wch.nextNs then s
      else ({ t with wch := { t.wch with nextNs := t.nowNs + 100000000 } }).watchSample w
    | .onyx => s.onyxTick.watchSample w
    | _ => s)

/-- The fallback arms (R361). -/
def execPhotoFallbackArm (us : Fin 20000) (s : State) : Out :=
  .next (if s.poweredOn then (s.atUs us).photoSync else s)

end Sys2Proof.Machine
end

