-- ==== Sys2Proof/Machine/Faults.lean ====
section
/-! DEFINITION. Faults and the entry into GARNET (21_faults.md R448 to R458), and EOI, which ends the service of a fault on a
supervisor core (04_event_delivery.md R119). -/

namespace Sys2Proof.Machine

namespace State

/-! ### Classes (R448) -/

def clsMem : Nat := 1
def clsBudget : Nat := 2
def clsBar : Nat := 3
def clsWdg : Nat := 4
def clsThermal : Nat := 5
def clsSupply : Nat := 6
def clsKey : Nat := 7
def clsRadio : Nat := 8
def clsLink : Nat := 9

/-! ### GARNET entry (R453, R455, R456) -/

/-- QUARTZ takes effect (14 R349). -/
def agateOut (s : State) : State :=
  ((s.setBit R.PWR_STAT_STATE false).setBit R.PWR_EVT_AGATE_OUT true).agateRestore

/-- The power state becomes QUARTZ at once, and is what is requested (14 R349). -/
def toQuartz (s : State) : State := (if s.bit R.PWR_STAT_STATE then s.agateOut else s).setBit R.PWR_REQ_AGATE false

/-- The logs of every bead, and what waits for a bar or EMIT, are discarded. -/
def dropLogs (s : State) : State :=
  let s1 := s.beads.foldl (fun t e =>
    t.setBead e.1 { t.bead e.1 with wlog := [], olog := [], entries := 0, openB := none }) s
  { s1 with bar := { s1.bar with queue := [], host := [], released := [] } }

/-- Images in a state, as slots in handle order. -/
def imagesIn (s : State) (st : Nat) : List Nat :=
  let is := (List.range 64).filter (fun i => decide (s.fld R.LTAB_IMG_STATE i = st))
  (sortNat (is.map (fun i => s.fld R.LTAB_IMG_HANDLE i * 64 + i))).map (fun k => k % 64)

/-- An ACTIVATING image is left LOADED with BUSY (05 R135). -/
def activatingBack (s : State) : State :=
  (s.imagesIn 4).foldl (fun t i => (t.setFld R.LTAB_IMG_STATE 3 i).setFld R.LTAB_IMG_RES_STATUS Status.busy.code i) s

/-- Steps 1 to 3 of the entry. The broadcast leaves 1.0 ms from now, straight from the launch queue. -/
def garnetEnter (s : State) (first second cause : Nat) : State :=
  let recent := s.flt.entries.filter (fun t => decide (s.nowNs < t + 3600000000000))
  let s1 := { s with flt := { s.flt with
    step := 1, entries := recent ++ [s.nowNs], images := (s.flt.images ++ s.imagesIn 5).eraseDups } }
  let s2 := ((s1.setBit R.ROD_FLT_STAT_GARNET true).setBit R.ROD_FLT_EVT_GARNET true).addSat R.ROD_FLT_GARNET_ENTRIES 1
  let s3 := ((s2.setFld R.ROD_FLT_GARNET_FIRST first).setFld R.ROD_FLT_GARNET_SECOND second).setFld R.ROD_FLT_GARNET_CAUSE cause
  let s4 := s3.setFld R.ROD_FLT_GARNET_FRAME_FRAME s.fr.number
  let s5 := if 2 ≤ recent.length then s4.setBit R.ROD_FLT_STAT_HOLD true else s4
  let s6 := (List.range 16).foldl (fun t r => t.setCur r none) s5.dropLogs
  let s7 := s6.toQuartz.activatingBack.stagingAbort
  (s7.garnetLeaves.loopsGarnet).failsafeBroadcast false 1 1000000

/-- A double fault (R450, R454, R458): recorded; it enters GARNET unless steps 1 to 5 run. -/
def doubleFault (s : State) (first second cause : Nat) : State :=
  let info := [first, second, cause, s.fr.number]
  let s1 := (s.report 0 0x03 .doubleFault [] info).report 1 0x03 .doubleFault [] info
  if 1 ≤ s1.flt.step ∧ s1.flt.step ≤ 5 then s1 else s1.garnetEnter first second cause

/-! ### Raising (R449 to R451) -/

/-- In ONYX: a cold or warm start has not come back to frames, and VAUX is lost. -/
def inOnyx (s : State) : Bool := decide (s.pwr.mode = .onyx)

/-- A fault class is raised, with the count of its conditions and what the fault bead records. -/
def fltRaise (s : State) (cls count : Nat) (info : List Nat) : State :=
  let r : FaultRec := ⟨cls, count, info⟩
  let s1 := s.addSat R.ROD_FLT_CNT_RAISED 1 (cls - 1)
  if s.inOnyx then s1.report 0 0x03 .fault [cls] (count :: info)
  else
    let s2 := s1.fltNote
    match s2.flt.cur with
    | none => s2.fltServe r
    | some c =>
      if c.cls = cls ∨ s2.flt.queue.any (fun q => decide (q.cls = cls)) then s2.doubleFault c.cls cls 0
      else if 4 ≤ s2.flt.queue.length then s2.doubleFault c.cls cls 1
      else ({ s2 with flt := { s2.flt with queue := s2.flt.queue ++ [r] } }).fltSync

/-- What the fault bead records of a fault: for BAR it reads ROD_BAR_TIME, for every class what the raise gave (R448). -/
def fltInfo (s : State) (c : FaultRec) : List Nat :=
  if c.cls = clsBar then c.info ++ [(s.rd R.ROD_BAR_TIME_LAST.addr).toNat] else c.info

/-- The fault bead's EOI: the record of the fault, and the next one goes into service. -/
def fltEnd (s : State) : State :=
  match s.flt.cur with
  | none => s
  | some c =>
    let s1 := s.report 0 0x03 .fault [c.cls] (c.count :: s.fltInfo c)
    (match s1.flt.queue with
     | [] => { s1 with flt := { s1.flt with cur := none } }
     | q :: qs => { s1 with flt := { s1.flt with cur := some q, queue := qs, sinceNs := s1.nowNs } }).fltSync

/-! ### EOI (04 R119 to R121) -/

/-- EOI of the handler in service on rod r; without a claim nothing is ended. -/
def eoiRod (s : State) (r n : Nat) (ev : EntryEvent) : State :=
  if s.inService r ∧ (s.rod r).handler = some (n % 64) then (s.exit r false ev).1 else s

/-- EOI of a supervisor core: its handler ends with it. -/
def eoiSup (s : State) (t : Nat) (ev : EntryEvent) : State :=
  if s.inService t then
    let s1 := if claimSrc (s.claim t) = 1 then s.fltEnd else s
    match s1.exit t true ev with
    | (s2, true) => s2
    | (s2, false) => s2.popContext t
  else s

/-! ### Rod watchdogs (R457) -/

/-- The beads of rod r in READY or RUNNING. -/
def rodActive (s : State) (r : Nat) : List Nat :=
  ((List.range 64).map (fun slot => 64 * r + slot)).filter (fun n =>
    s.beadValid n && (decide (s.beadState n = stReady) || decide (s.beadState n = stRunning)))

/-- Reset rod r: its READY and RUNNING beads are faulted with TIMEOUT; it selects again from the second frame edge. EVENT beads that
the exits of the faulted ones chain (04 R477) begin after the reset. -/
def rodReset (s : State) (r : Nat) : State :=
  let s1 := ((s.setRod r { s.rod r with resetIn := 2 }).setBit R.ROD_WDG_RESETTING true r).addSat R.ROD_WDG_EXPIRED 1 r
  (s.rodActive r).foldl (fun t n => t.beadFault n .timeout (t.bead n).pc 0) s1

end State

/-- Target 0 to 15: the instruction EOI of the bead now current on that rod. Targets 16 and 17: the supervisor's firmware. -/
def execEoi (t : Fin 18) (ev : EntryEvent) (s : State) : Out :=
  if h : t.val < 16 then
    issueWith ⟨t.val, h⟩ true 5 (fun s _ x => .ok (s, { x with touched := true }.seqTo (x.pc + 1))) (fun s n => s.eoiRod t n ev) s
  else .next (s.eoiSup t ev)

/-- A fault has been in service for 20 ms (R450). -/
def execFaultServiceTimeout (s : State) : Out :=
  .next (match s.flt.cur with
    | some c => if s.inOnyx then s else s.whenDue (s.flt.sinceNs + 20000000) (fun t => t.doubleFault c.cls c.cls 2)
    | none => s)

/-- ROD_FLT_CTRL.ACK (R458). -/
def State.fltAck (s : State) : State := s.setBit R.ROD_FLT_STAT_UNACK false

/-- A rod's watchdog deadline is missed (R457). -/
def execRodWatchdog (r : Fin 16) (us : Fin 20000) (s : State) : Out :=
  .next (if s.rodClocked r ∧ s.framesRun ∧ s.ready 8 ∧ (s.flt.step = 0 ∨ s.flt.step = 6) then
      (((s.atUs us).rodReset r).assertSrc 2).fltRaise State.clsWdg 1 [r]
    else s)

/-- A die rail (`vaux` false) or VAUX out of its limits (R448): rail and voltage are recorded. -/
def execSupplyFault (us : Fin 20000) (rail millivolts : Nat) (s : State) : Out :=
  .next ((s.atUs us).fltRaise State.clsSupply 1 [rail, millivolts])

/-- A transceiver does not answer, or loses lock (R448): it is reset (01 R23, 08 R237). -/
def execRadioTimeoutFault (x : Fin 2) (us : Fin 20000) (s : State) : Out :=
  .next (if s.trxReady x ∧ !s.inOnyx ∧ !s.pwr.paused then (((s.atUs us).trxStop x).fltRaise State.clsRadio 1 [x]) else s)

/-- A NAND read fails ECC three times (R448): the block is retired. -/
def execNandEccFailure (us : Fin 20000) (block : Nat) (s : State) : Out :=
  let t := s.atUs us
  .next (({ t with pwr := { t.pwr with retired := insertNat block t.pwr.retired } }).fltRaise State.clsLink 1 [block])

/-- The die junction reaches 125 °C, or falls below it: SRC[7] is active while it stays (R448, 04 R108). -/
def execJunctionLimit (us : Fin 20000) (above : Bool) (decidegrees : Int) (s : State) : Out :=
  let t := s.atUs us
  let t1 := State.noteDrop 7 s { t with flt := { t.flt with hot := above } }
  .next (if above ∧ !s.flt.hot then t1.fltRaise State.clsThermal 1 [(decidegrees % 65536).toNat] else t1)

end Sys2Proof.Machine
end

