-- ==== Sys2Proof/Machine/Drv.lean ====
section
/-! DEFINITION. Local drive (11_local_drive.md): the compliance check and its diagnosis, the bus, thermal shut-down, the
dissipation limit, the override switch and the feeder contactors. -/

namespace Sys2Proof.Machine

namespace State

/-! ### The learned values and the hand-over (R296, R297) -/

/-- Channels that a bus state waits for: enabled, at or on their way to a level above 0, not OPEN. -/
def needed (s : State) : List Nat :=
  s.chansOn.filter (fun c => decide ((s.chanLevel c s.nowNs ≠ 0 ∨ (s.dchan c).goal ≠ 0) ∧ s.fld R.DRV_CHAN_DIAG_STATE c ≠ 1))

/-- The channel complied at its last check in the present bus state. -/
def complies (s : State) (c : Nat) : Bool := decide (1 ≤ (s.dchan c).fit)

/-- The channels over which a hand-over takes the learned value: those measured in this bus state, and after RECOVERY also those lit whose
forward voltage is known from before (log entry 179). -/
def learnedOver (s : State) : List Nat :=
  s.chansOn.filter (fun c => (s.dchan c).measured || (decide (s.drvMode = 4) && (s.dchan c).passNs.isSome && s.needed.contains c))

/-- RECOVERY ends (log entry 179): every channel in DROPOUT complies and those without a learned voltage are measured; without a channel in
DROPOUT, every needed one is measured. -/
def recovered (s : State) : Bool :=
  let drops := s.needed.filter (fun c => decide (s.fld R.DRV_CHAN_DIAG_STATE c = 2))
  if drops.isEmpty then s.needed.all (fun c => (s.dchan c).measured)
  else drops.all s.complies && (s.needed.filter (fun c => decide (s.fld R.DRV_CHAN_VF_LEARNED c = 0))).all (fun c => (s.dchan c).measured)

/-- The largest forward voltage of some channels, with the channel. -/
def neediest (s : State) (cs : List Nat) : Option (Nat × Nat) :=
  cs.foldl (fun acc c =>
    let v := s.fld R.DRV_CHAN_MEAS_VF c
    match acc with
    | none => some (v, c)
    | some (w, d) => if w < v then some (v, c) else some (w, d)) none

/-- The SERVICE set-point: the learned value and 2.5 V, at most VMAX. -/
def serviceSet (s : State) : Nat := min s.vmax (s.fld R.DRV_BUS_LEARN_LEARNED + 250)

/-- The floor to which R298 lowers it. -/
def dissFloor (s : State) : Nat := min s.vmax (s.fld R.DRV_BUS_LEARN_LEARNED + 80)

/-- The hand-over to SERVICE at a measured bus voltage. Measured channels without a learned voltage take theirs; after TEST
every measured channel does. -/
def handOver (s : State) (vbus : Nat) (replace : Bool) : State :=
  let ms := s.learnedOver
  let s1 := ms.foldl (fun t c =>
    if replace ∨ t.fld R.DRV_CHAN_VF_LEARNED c = 0 then t.setFld R.DRV_CHAN_VF_LEARNED (t.fld R.DRV_CHAN_MEAS_VF c) c else t) s
  let s2 := match s1.neediest ms with
    | some (v, c) => (s1.setFld R.DRV_BUS_LEARN_LEARNED v).setFld R.DRV_BUS_LEARN_CHAN c
    | none => s1
  let to_ := s2.serviceSet
  ((s2.setFld R.DRV_STAT_MODE 2).setBit R.DRV_STAT_HANDOVER (decide (vbus ≠ to_))).ramp vbus to_ 200

/-- START: once every needed channel complies the ramp ends, and the set-point is the largest forward voltage measured and 0.8 V; once every
one is measured, the hand-over. RECOVERY hands over as `recovered` says. -/
def busSettle (s : State) (vbus : Nat) : State :=
  if s.drvMode = 4 then (if s.recovered then s.handOver vbus false else s)
  else if s.drvMode = 1 then
    if s.needed.all (fun c => (s.dchan c).measured) then s.handOver vbus false
    else if s.needed.all s.complies then
      match s.neediest s.needed with
      | some (v, _) => let p := min s.vmax (v + 80); s.ramp p p 0
      | none => s
    else s
  else s

/-! ### Diagnosis (R299, R301) -/

/-- The condition of a check: 1 OPEN, 2 DROPOUT, 3 SHORT, 0 compliant. A channel in SHORT stays so above a quarter of VF_LED. -/
def checkCond (s : State) (c microamps headroom vf : Nat) : Nat :=
  let i := setCurrent s.drv.iset (s.chanCfg c)
  let cur := microamps * 261888
  let led := s.fld R.DRV_CHAN_VF_VF_LED c
  let gap := s.fld R.DRV_CHAN_VF_LEARNED c - vf
  if cur * 10 < i * 1000 then 1
  else if cur * 100 ≤ i * 1000 * 95 ∨ headroom < 40 then 2
  else if s.fld R.DRV_CHAN_DIAG_STATE c = 3 then (if gap * 4 < led then 0 else 3)
  else if 3 * led ≤ 4 * gap then 3
  else 0

/-- DRV_EVT bit of a diagnosis. -/
def diagEvt (s : State) (d : Nat) : State :=
  match d with
  | 1 => s.setBit R.DRV_EVT_OPEN true
  | 2 => s.setBit R.DRV_EVT_DROPOUT true
  | 3 => s.setBit R.DRV_EVT_SHORT true
  | _ => s

/-- A setting or repair: its event bit and one OPS record. -/
def diagNote (s : State) (c d : Nat) (set : Bool) : State :=
  if d = 1 ∨ d = 2 ∨ d = 3 then (s.diagEvt d).report 0 0x08 .drvDiag [c, d, if set then 1 else 0] [] else s

/-- Channel c takes a diagnosis. DROPOUT sends SERVICE and TEST to RECOVERY; a repair of OPEN or SHORT sends SERVICE there. -/
def diagSet (s : State) (c d vf : Nat) : State :=
  let old := s.fld R.DRV_CHAN_DIAG_STATE c
  if old = d then s
  else
    let s1 := (s.diagNote c old false).diagNote c d true
    let s2 := s1.setFld R.DRV_CHAN_DIAG_STATE d c
    let led := max 1 (s.fld R.DRV_CHAN_VF_VF_LED c)
    let s3 := s2.setFld R.DRV_CHAN_DIAG_SHORTS
      (if d = 3 then min 15 ((2 * (s.fld R.DRV_CHAN_VF_LEARNED c - vf) + led) / (2 * led)) else 0) c
    let s4 := s3.setDchan c { s3.dchan c with nextNs := if d = 1 then some (s3.nowNs + 10000000000) else none }
    if (d = 2 ∧ (s4.drvMode = 2 ∨ s4.drvMode = 3)) ∨ ((old = 1 ∨ old = 3) ∧ d ≠ 2 ∧ s4.drvMode = 2) then s4.busRecovery else s4

/-- A passed check: VF and the age are updated. -/
def checkPass (s : State) (c vf : Nat) : State :=
  let s1 := s.setFld R.DRV_CHAN_MEAS_VF (min vf 65535) c
  s1.setDchan c { s1.dchan c with passNs := some s1.nowNs }

/-! ### On-times and the stretched period (R291, R300) -/

/-- On-time of channel c in counts, before R298 shortens it. -/
def onCounts (s : State) (c : Nat) : Nat :=
  let l := s.chanOut c s.nowNs
  if l = 65535 then 2 ^ s.depth c else l / 2 ^ (16 - s.depth c)

/-- The programmed on-time of channel c in counts: what R298 leaves. -/
def progCounts (s : State) (c : Nat) : Nat := s.onCounts c - (s.dchan c).cut

end State

/-- Whole periods that a stretch takes at depth b, and the on-time of each in counts: 1,920 counts in one period from 11 bits up, below
that the fewest whole periods that hold them. -/
def stretchPeriods (b : Nat) : Nat := if 11 ≤ b then 1 else ceilDiv 1920 (2 ^ b)
def stretchFull (b : Nat) : Nat := if 11 ≤ b then 1920 else 2 ^ b

/-- X: the on-time that a stretch adds to the programmed one, c counts. -/
def stretchAdded (b c : Nat) : Nat := stretchPeriods b * (stretchFull b - c)

/-- D: periods from one stretch to the next (log entry 152 for depths of 10 bits and less). -/
def stretchEvery (b c : Nat) : Nat := max 256 (stretchPeriods b + ceilDiv (stretchAdded b c) c)

/-- On-time of period j since the count was restarted: the stretch takes the last periods of every D, and those that follow are
shortened, each by at most its own on-time, until X is repaid. -/
def stretchedOn (b c j : Nat) : Nat :=
  let d := stretchEvery b c
  if c = 0 ∨ 1920 ≤ c then c
  else if d ≤ j % d + stretchPeriods b then stretchFull b
  else if j < d then c
  else c - min c (stretchAdded b c - j % d * c)

namespace State

/-- The module time at which channel c's on-time begins in the period from which it counts: one eighth of a period later for each place
within its group (R291). -/
def countStart (s : State) (c : Nat) : Nat := (s.dchan c).countNs + c % 8 * periodLen (s.depth c) / 8

/-- The period of channel c that holds a module time, from one rising edge to the next, counted since the restart. -/
def periodAt (s : State) (c ns : Nat) : Nat := (ns - s.countStart c) / periodLen (s.depth c)

/-- The on-time of channel c now, in counts of its group's period. -/
def onTime (s : State) (c : Nat) : Nat :=
  let p := s.progCounts c
  if s.nowNs < s.countStart c ∨ s.chanOut c s.nowNs = 65535 then p else stretchedOn (s.depth c) p (s.periodAt c s.nowNs)

/-- Channel c is on and checked: enabled, sinks working, its sink not held off, its level above 0, and on for 12 µs in this period or
by this stretch (R299, R300, R302). -/
def checked (s : State) (c : Nat) : Bool :=
  decide (s.chanOut c s.nowNs ≠ 0) &&
    (decide (s.chanOut c s.nowNs = 65535 ∨ 1920 ≤ s.onTime c) || (decide (s.depth c ≤ 10) && decide (s.onTime c = 2 ^ s.depth c)))

/-- One compliance check of channel c. -/
def compliance (s : State) (c microamps headroom vbus : Nat) : State :=
  if !s.checked c then s
  else
    let vf := vbus - headroom
    let k := s.checkCond c microamps headroom vf
    let x := s.dchan c
    let run := if x.cond = k then min 3 (x.run + 1) else 1
    let pass := decide (k = 0 ∨ k = 3)
    let fit := if pass then min 2 (x.fit + 1) else 0
    let s1 := (s.setFld R.DRV_BUS_STAT_VBUS (min vbus 65535)).setFld R.DRV_CHAN_MEAS_HEADROOM (min headroom 65535) c
    let s2 := if pass then s1.checkPass c vf else s1
    let s3 := s2.setDchan c { s2.dchan c with
      cond := k, run := run, seen := true, fit := fit
      measured := x.measured || (pass && decide (2 ≤ fit ∨ s.drvMode = 4)) }
    let s4 := if 3 ≤ run then s3.diagSet c k vf else s3
    s4.busSettle vbus

/-! ### Dissipation (R298) -/

/-- The headroom of channel c at a bus voltage, in 10 mV: above the forward voltage of its last check when that one passed, else as that
check found it (log entry 180). -/
def headroomAt (s : State) (vbus c : Nat) : Nat :=
  let x := s.dchan c
  if x.passNs.isSome ∧ (x.cond = 0 ∨ x.cond = 3) then vbus - s.fld R.DRV_CHAN_MEAS_VF c else s.fld R.DRV_CHAN_MEAS_HEADROOM c

/-- Dissipation of channel c in mW for an on-time, at a bus voltage in 10 mV. -/
def chanDiss (s : State) (vbus c on : Nat) : Nat :=
  s.headroomAt vbus c * setCurrent s.drv.iset (s.chanCfg c) * on / (100 * 261888 * 2 ^ s.depth c)

/-- Shorten on-times, largest dissipation first, until the sum is 6 W. -/
def shorten (vbus : Nat) : Nat → State → List Nat → Nat → State
  | 0, s, _, _ => s
  | n + 1, s, cs, total =>
    if total ≤ 6000 then s
    else
      let p (c : Nat) : Nat := s.chanDiss vbus c (s.progCounts c)
      match cs.foldl (fun (acc : Option Nat) c => match acc with
        | none => some c
        | some d => if p d < p c then some c else some d) none with
      | none => s
      | some c =>
        let on := s.progCounts c
        let above := total - 6000
        let cut := if p c ≤ above then on else ceilDiv (on * above) (p c)
        let s1 := s.setDchan c { s.dchan c with cut := (s.dchan c).cut + cut }
        shorten vbus n s1 (cs.filter (fun d => decide (d ≠ c))) (total - (p c - s1.chanDiss vbus c (on - cut)))

/-- The assessment of a frame. -/
def dissipation (s : State) (vbus : Nat) : State :=
  let sum := ((s.chansOn).map (fun c => s.chanDiss vbus c (s.progCounts c))).sum
  let s1 := s.setFld R.DRV_DISS_MW (min sum 65535)
  if s.drvMode ≠ 2 then s1
  else if 6000 < sum then
    let s2 := (s1.setBit R.DRV_STAT_DISS_LIMIT true).setBit R.DRV_EVT_DISS true
    if s.dissFloor < s2.setPoint then (s2.setBit R.DRV_STAT_HANDOVER false).ramp s2.setPoint s.dissFloor 200
    else shorten vbus s2.part.chans s2 s2.chansOn sum
  else if s1.bit R.DRV_STAT_DISS_LIMIT ∧ sum < 5500 then
    let s2 := s1.chansOn.foldl (fun t c => t.setDchan c { t.dchan c with cut := 0 }) s1
    (s2.setBit R.DRV_STAT_DISS_LIMIT false).ramp s2.setPoint s2.serviceSet 200
  else s1

/-! ### The frame edge (R289, R291, R294, R303) -/

/-- Staged levels whose frame has come. -/
def takeLevels (s : State) : State :=
  let due := s.drv.staged.filter (fun x => decide (x.frame ≤ s.fr.number))
  due.foldl chanTake { s with drv := { s.drv with staged := s.drv.staged.filter (fun x => decide (s.fr.number < x.frame)) } }

/-- A depth as written takes over at the first period boundary of its group (R291). -/
def pwmConfig (s : State) : SMap PwmGrp :=
  ([0, 1, 2] : List Nat).foldl (fun m g =>
    let q := s.pwmGrp (8 * g)
    let b := s.fld R.DRV_PWM_GRP_BITS g
    if q.next = b then m else SMap.set {} m g ⟨(q.at s.nowNs).1, (q.at s.nowNs).2, b, q.boundary s.nowNs⟩) s.drv.pwm

/-- ISET, TRIM and EN as written come into force, BITS at the next period boundary; a change of the first three starts RECOVERY, one of BITS
restarts the phases and counts of its group (R291). -/
def drvConfig (s : State) : State :=
  let cfg (c : Nat) : Word := s.rd (R.DRV_CHAN_CFG_TRIM.at c 0)
  let changed := decide (s.fld R.DRV_ISET_ISET ≠ s.drv.iset) ||
    (List.range s.part.chans).any (fun c => decide (cfg c &&& 0x83FF ≠ s.chanCfg c &&& 0x83FF))
  let s1 := { s with drv := { s.drv with
    iset := s.fld R.DRV_ISET_ISET
    cfg := (List.range s.part.chans).foldl (fun m c => SMap.set 0x07FF0000 m c (cfg c)) s.drv.cfg
    pwm := s.pwmConfig } }
  let s2 : State := (List.range s.part.chans).foldl (fun (t : State) c =>
    if (t.pwmGrp c).next = (s.pwmGrp c).next then t
    else t.setDchan c { t.dchan c with countNs := max (t.pwmGrp c).fromNs (t.dchan c).countNs }) s1
  if changed ∧ s2.drvMode = 2 then s2.busRecovery else s2

/-- The sink bank's temperature, and since when it is below 110 °C while shut down. -/
def drvTherm (s : State) (bank : Int) : State :=
  let s1 := s.setFldI R.DRV_THERM_TEMP bank
  let cool := if s.drvMode = 5 ∧ bank < 14080 then some (s.drv.coolNs.getD s.nowNs) else none
  { s1 with drv := { s1.drv with coolNs := cool } }

/-- What DRV does at a frame edge; in a control pause it holds its channels and bus (R308). -/
def drvEdge (s : State) (x : Sense) : State :=
  if s.drv.off ∨ !s.drv.storeRead then s
  else
    let s1 := (s.setFld R.DRV_BUS_STAT_VBUS (min x.vbus 65535)).setFld R.DRV_VLEDIN_V (min x.vledin 65535)
    if s.pwr.paused then s1.drvTherm x.bank
    else ((((s1.drvTherm x.bank).drvConfig).takeLevels).busSettle x.vbus).dissipation x.vbus

/-! ### Shut-down and restart (R303) -/

/-- Leave SHUTDOWN: START when nothing else forbids it. -/
def drvRestart (s : State) : State :=
  let s1 := noteDrop 7 s ((s.setFld R.DRV_STAT_MODE 0).setBit R.DRV_STAT_THERM_LATCH false)
  ({ s1 with drv := { s1.drv with coolNs := none, noRetry := false } }).busTry

/-- Automatic retries in the last 60 minutes. -/
def retryCount (s : State) : Nat := (s.drv.retries.filter (fun t => decide (s.nowNs < t + 3600000000000))).length

/-! ### The override switch (R305) -/

/-- A channel that AUTO leaves without a level hands over to its failsafe level. -/
def chanAuto (s : State) (c : Nat) : State :=
  let g := s.leaf (chanLeaf c)
  match governing 0 (s.safeLevel (chanLeaf c)) s.fr.number g with
  | (src, none) =>
    let v := s.fld R.DRV_FAILSAFE_LEVEL c
    let s1 := s.chanHandover c v 0 src
    s1.setLeaf (chanLeaf c) { s1.leaf (chanLeaf c) with sent := v, olds := [], source := src }
  | _ => s

/-- The switch settles in a position: 0 AUTO, 1 FORCE ON, 2 FORCE OFF. In AUTO the channels hand over now, the lanterns at the next EMIT
(R305, 07 R197). -/
def switchTo (s : State) (pos : Nat) : State :=
  let s1 := ((s.setFld R.DRV_STAT_SWITCH pos).assertSrc 3).loopsSwitch pos
  let cs := List.range s.part.chans
  let lan := s1.allLeaves.filter (fun l => decide (l < 16384))
  match pos with
  | 0 => (cs.foldl chanAuto (s1.segHandover (s1.allLeaves.filter (fun l => decide (16384 ≤ l))))).coils
  | 1 =>
    let s2 := cs.foldl (fun t c => t.forceChan 5 c (t.fld R.DRV_FAILSAFE_LEVEL c)) s1
    let s3 := lan.foldl (fun t l => t.setLeaf l { t.leaf l with source := 5 }) s2
    (s3.coils).failsafeBroadcast true 2 0
  | _ =>
    let s2 := cs.foldl (fun t c => t.forceChan 6 c 0) s1
    (lan.foldl (fun t l => t.setLeaf l { t.leaf l with source := 6 }) s2).coils

/-- A switch that stands in a forced position when DRV starts forces its loops (log entry 153). -/
def loopsHeld (s : State) : State := if s.switchPos = 0 then s else s.loopsSwitch s.switchPos

/-! ### Register writes (R289, R296, R303, R306) -/

/-- R289: every enabled channel has at least 10 mA, and their sum is at most IMAX. -/
def currentsOk (s : State) (iset : Nat) (cfg : Nat → Word) : Bool :=
  let is := ((List.range s.part.chans).filter (fun c => (cfg c).getLsbD 15)).map (fun c => setCurrent iset (cfg c))
  is.all (fun i => decide (10 * 261888 ≤ i)) && decide (is.sum ≤ s.fld R.DRV_BUS_CFG_IMAX * 100 * 261888)

/-- DRV_CHAN_CFG as written. -/
def cfgWritten (s : State) (c : Nat) : Word := s.rd (R.DRV_CHAN_CFG_TRIM.at c 0)

def writeIset (s : State) (v : Word) : Status × State :=
  if s.currentsOk (getBits v 0 8) s.cfgWritten then (.ok, s.setFld R.DRV_ISET_ISET v.toNat) else (.range, s)

/-- GROUP takes effect at once; TRIM and EN at the next frame edge. -/
def writeChanCfg (s : State) (c : Nat) (v : Word) : Status × State :=
  let g := getBits v 16 11
  if 1024 ≤ g ∧ g ≠ 0x7FF then (.range, s)
  else if s.currentsOk (s.fld R.DRV_ISET_ISET) (fun d => if d = c then v else s.cfgWritten d) then
    let s1 := s.wr (R.DRV_CHAN_CFG_TRIM.at c 0) (v &&& 0x07FF83FF)
    (.ok, { s1 with drv := { s1.drv with cfg := SMap.set 0x07FF0000 s1.drv.cfg c (putBits (s1.chanCfg c) 16 11 g) } })
  else (.range, s)

/-- DRV_CTRL: EN, and TEST in SERVICE. -/
def writeDrvCtrl (s : State) (v : Word) : Status × State :=
  let en := v.getLsbD 0
  if v.getLsbD 1 ∧ s.drvMode ≠ 2 then (.refusedState, s)
  else
    let s1 := s.setBit R.DRV_CTRL_EN en
    if !en then (.ok, if s1.drvMode = 0 ∨ s1.drvMode = 5 then s1 else s1.busOff)
    else if v.getLsbD 1 then
      (.ok, ((s1.setFld R.DRV_STAT_MODE 3).setBit R.DRV_STAT_HANDOVER false).clearMeasured.ramp s1.setPoint s1.setPoint 0)
    else (.ok, s1.busTry)

/-- DRV_RESTART. -/
def writeDrvRestart (s : State) (v : Word) : Status × State :=
  if !v.getLsbD 0 then (.ok, s)
  else if s.drvMode = 5 ∧ s.fldI R.DRV_THERM_TEMP < 14080 then (.ok, s.drvRestart)
  else (.refusedState, s)

/-- VMAX has been written: it limits the set-point at once, and a set-point that the old one limited goes on to its own value. -/
def vmaxSet (s : State) : State :=
  let p := min s.vmax s.setPoint
  if s.drvMode = 0 ∨ s.drvMode = 5 then s
  else if s.drvMode = 2 then s.ramp p (if s.bit R.DRV_STAT_DISS_LIMIT then s.dissFloor else s.serviceSet) 200
  else if s.drvMode ≠ 3 ∧ s.drv.rampRate = 1000 then s.ramp p s.vmax 1000
  else (s.ramp p (min s.vmax s.drv.rampTo) s.drv.rampRate).busSettle (s.fld R.DRV_BUS_STAT_VBUS)

/-- The DRV registers whose writes are not plain. -/
def drvWrite (s : State) (a : Nat) (v : Word) : Option (Status × State) :=
  if a = R.DRV_CTRL_EN.addr then some (s.writeDrvCtrl v)
  else if a = R.DRV_RESTART_RESTART.addr then some (s.writeDrvRestart v)
  else if a = R.DRV_ISET_ISET.addr then some (s.writeIset v)
  else if a = R.DRV_BUS_CFG_VMAX.addr then
    some (.ok, (s.wr a (v &&& 0x0F01FFFF)).vmaxSet)
  else if 0x80100 ≤ a ∧ a < 0x80400 ∧ a % 32 = 0 then some (s.writeChanCfg ((a - 0x80100) / 32) v)
  else if 0x80400 ≤ a ∧ a < 0x80460 ∧ a % 16 = 0 then some (.ok, s.feederCmd ((a - 0x80400) / 16) (v.getLsbD 0))
  else if 0x80400 ≤ a ∧ a < 0x80460 ∧ a % 16 = 8 then
    let f := (a - 0x80400) / 16
    let s1 := (s.wr a (v &&& 0xFF07)).syncFeedback f
    some (.ok, if (s1.feeder f).written then s1 else (s1.setBit R.DRV_FEEDER_CMD_CLOSE (v.getLsbD 2) f).coil f)
  else none

/-- The live views: output levels, the set-point, diagnosis and its age, retries. -/
def drvView (s : State) (a : Nat) (w : Word) : Word :=
  if a = R.DRV_BUS_STAT_VBUS.addr then putBits w 16 16 (min 65535 s.setPoint)
  else if a = R.DRV_THERM_TEMP.addr then putBits w 17 3 (min 3 s.retryCount)
  else if 0x80100 ≤ a ∧ a < 0x80400 ∧ a % 32 = 0x0C then putBits w 0 16 (s.chanOut ((a - 0x80100) / 32) s.nowNs)
  else if 0x80100 ≤ a ∧ a < 0x80400 ∧ a % 32 = 0x10 then
    let c := (a - 0x80100) / 32
    let st := getBits w 0 3
    let st1 := if !s.chanOn c then 5 else if s.chanLevel c s.nowNs = 0 ∨ st = 5 then 4 else st
    let age := match (s.dchan c).passNs with
      | some t => min 65535 ((s.nowNs - t) / 100000000)
      | none => 65535
    putBits (putBits w 0 3 st1) 16 16 age
  else w

/-- DRV works: VAUX valid and its store read. -/
def drvRuns (s : State) : Bool := s.poweredOn && s.drv.storeRead && !s.drv.off

end State

/-! ### Commands -/

/-- A compliance check of channel c: its current, headroom and bus voltage (R299, R301). -/
def execComplianceCheck (c : Fin 24) (us : Fin 20000) (microamps headroom vbus : Nat) (s : State) : Out :=
  .next (if s.drvRuns then (s.atUs us).compliance c microamps headroom vbus else s)

/-- The set-point of START or RECOVERY reaches VMAX (R296): in START the channels that do not comply take the diagnosis of
their last check. -/
def execBusRampLimit (vbus : Nat) (s : State) : Out :=
  let t := s.drv.rampNs + ceilDiv ((s.vmax - s.drv.rampFrom) * 1000000) (max 1 s.drv.rampRate)
  .next (if s.drvRuns ∧ (s.drvMode = 1 ∨ s.drvMode = 4) ∧ s.drv.rampTo = s.vmax then
      s.whenDue t (fun q =>
        let start := decide (q.drvMode = 1)
        let q1 := (q.needed.filter (fun c => !q.complies c)).foldl (fun u c =>
          let k := (u.dchan c).cond
          let u1 := if start ∧ (u.dchan c).seen then u.diagSet c k 0 else u
          if u1.fld R.DRV_CHAN_DIAG_STATE c = 2 then u1.setDchan c { u1.dchan c with nextNs := some (u1.nowNs + 600000000000) } else u1) q
        q1.handOver vbus false)
    else s)

/-- The slew of a hand-over ends (R297). -/
def execHandoverEnd (s : State) : Out :=
  let d := s.drv
  let span := if d.rampFrom ≤ d.rampTo then d.rampTo - d.rampFrom else d.rampFrom - d.rampTo
  .next (if s.drvRuns ∧ s.bit R.DRV_STAT_HANDOVER then
      s.whenDue (d.rampNs + ceilDiv (span * 1000000) (max 1 d.rampRate)) (fun q => q.setBit R.DRV_STAT_HANDOVER false)
    else s)

/-- VLEDIN as it stands, which DRV and PWR show while the main domain runs. -/
def State.noteVledin (s : State) (vledin : Nat) (ok : Bool) : State := { s with pwr := { s.pwr with vledin := (vledin, ok) } }

/-- VLEDIN below 17 V for 1 ms (R296). -/
def execVledinLost (us : Fin 20000) (vledin : Nat) (s0 : State) : Out :=
  let s := if vledin < 1700 then s0.noteVledin vledin false else s0
  .next (if s.poweredOn ∧ vledin < 1700 then
      let t := (((s.atUs us).setFld R.DRV_VLEDIN_V vledin).setBit R.PWR_STAT_VLEDIN_OK false).setBit R.DRV_STAT_NO_SUPPLY true
      if t.drvMode = 0 ∨ t.drvMode = 5 then t else t.busOff
    else s)

/-- VLEDIN at 18 V or above (R296). -/
def execVledinValid (us : Fin 20000) (vledin : Nat) (s0 : State) : Out :=
  let s := if 1800 ≤ vledin then s0.noteVledin vledin true else s0
  .next (if s.poweredOn ∧ 1800 ≤ vledin then
      ((((s.atUs us).setFld R.DRV_VLEDIN_V (min vledin 65535)).setBit R.PWR_STAT_VLEDIN_OK true).setBit R.DRV_STAT_NO_SUPPLY
        false).busTry
    else s)

/-- The sink bank reaches 140 °C (R303): after three automatic retries in 60 minutes only DRV_RESTART ends the shut-down. -/
def execThermalShutdown (us : Fin 20000) (bank : Int) (s : State) : Out :=
  .next (if s.drvRuns ∧ s.drvMode ≠ 5 then
      let t := ((s.atUs us).setFldI R.DRV_THERM_TEMP bank).busOff
      let t1 := ((t.setFld R.DRV_STAT_MODE 5).setBit R.DRV_STAT_THERM_LATCH true).setBit R.DRV_EVT_THERM true
      ({ t1 with drv := { t1.drv with noRetry := decide (3 ≤ t1.retryCount) } } : State).fltRaise State.clsThermal 1 [(bank % 65536).toNat]
    else s)

/-- An automatic retry: AUTO, below 110 °C for 60 s, at most three in 60 minutes (R303). -/
def execThermalAutoRetry (s : State) : Out :=
  .next (match s.drv.coolNs with
    | some t =>
      if s.drvRuns ∧ s.drvMode = 5 ∧ s.bit R.DRV_THERM_AUTO ∧ !s.drv.noRetry then
        s.whenDue (t + 60000000000) (fun q =>
          if q.retryCount < 3 then
            ({ q with drv := { q.drv with retries := q.nowNs :: q.drv.retries.take 2 } }).drvRestart
          else q)
      else s
    | none => s)

/-- TEST is complete (R296): the forward voltages of the channels it measured, at a bus voltage. -/
def execDrvTestComplete (us : Fin 20000) (vbus : Nat) (vfs : List (Fin 24 × Nat)) (s : State) : Out :=
  .next (if s.drvRuns ∧ s.drvMode = 3 then
      let t := s.atUs us
      let ok := vfs.filter (fun x => t.needed.contains x.1)
      let t1 := ok.foldl (fun u x =>
        let u1 := u.checkPass x.1 x.2
        u1.setDchan x.1 { u1.dchan x.1 with measured := true }) t.clearMeasured
      t1.handOver vbus true
    else s)

/-- The 12 µs pulse of an OPEN channel, every 10 s (R301). -/
def execOpenRetest (c : Fin 24) (microamps headroom vbus : Nat) (s : State) : Out :=
  .next (match (s.dchan c).nextNs with
    | some n =>
      if s.drvRuns ∧ s.sinksOn ∧ s.chanOn c ∧ s.fld R.DRV_CHAN_DIAG_STATE c = 1 ∧ s.chanLevel c s.nowNs ≠ 0 then
        s.whenDue n (fun q =>
          let vf := vbus - headroom
          let k := q.checkCond c microamps headroom vf
          let q1 := q.setDchan c { q.dchan c with nextNs := some (q.nowNs + 10000000000), cond := k, run := 1 }
          if k = 0 ∨ k = 3 then (q1.checkPass c vf).diagSet c 0 vf else q1)
      else s
    | none => s)

/-- A channel left in DROPOUT at VMAX is tried again by RECOVERY every 600 s (R301). -/
def execDropoutRetry (c : Fin 24) (s : State) : Out :=
  .next (match (s.dchan c).nextNs with
    | some n =>
      if s.drvRuns ∧ s.drvMode = 2 ∧ s.fld R.DRV_CHAN_DIAG_STATE c = 2 then s.whenDue n (fun q => q.busRecovery) else s
    | none => s)

/-- The stored depths are in force as DRV starts, all periods beginning now. -/
def State.pwmBegin (s : State) : State :=
  { s with drv := { s.drv with pwm := ([0, 1, 2] : List Nat).foldl (fun m g =>
      let b := s.fld R.DRV_PWM_GRP_BITS g
      SMap.set {} m g ⟨b, s.nowNs, b, s.nowNs⟩) [] } }

/-- DRV has read its store (R24, R304, R306, R321): feeders that no command was written for, channels and AOUTs take their failsafe values, or
those of the switch; the feedbacks and VLEDIN show as they stand. -/
def execDrvStoreLoaded (us : Fin 20000) (s : State) : Out :=
  .next (if s.poweredOn ∧ !s.drv.storeRead then
      let t := s.atUs us
      let t0 : State := { t with drv := { t.drv with storeRead := true, off := false } }
      let t1 := t0.pwmBegin.setBit R.DRV_STAT_NO_SUPPLY (decide (t.pwr.vledin.1 < 1700))
      let t2 := (List.range 6).foldl (fun q f =>
        (if (q.feeder f).written then q else q.setBit R.DRV_FEEDER_CMD_CLOSE (q.bit R.DRV_FEEDER_CFG_FS_CLOSE f) f).syncFeedback f) t1
      let t3 := (t2.drvConfig.coils).loopsFailsafe.loopsHeld
      let t4 := (List.range t3.part.chans).foldl (fun q c =>
        q.forceChan 0 c (if q.switchPos = 2 then 0 else q.fld R.DRV_FAILSAFE_LEVEL c)) t3
      t4.busTry
    else s)

/-- The override switch has settled in another position (R305). Before DRV has read its store no output can follow; in ONYX and below, the
position is the one that the next start finds. -/
def execOverrideSwitchChange (us : Fin 20000) (pos : Fin 3) (s : State) : Out :=
  .next (if s.switchPos = pos then s
    else if s.drvRuns then (s.atUs us).switchTo pos
    else if s.poweredOn then ((s.atUs us).setFld R.DRV_STAT_SWITCH pos).assertSrc 3
    else s.setFld R.DRV_STAT_SWITCH pos)

/-- A change held back by R306 is made as soon as the limits allow. -/
def execFeederChangeRelease (f : Fin 6) (s : State) : Out :=
  let t1 := match (s.feeder f).changeNs with
    | some t => t + 5000000000
    | none => 0
  let t2 := match s.drv.closeNs with
    | some t => if s.feederWant f then t + 500000000 else 0
    | none => 0
  .next (if s.drvRuns ∧ s.bit R.DRV_FEEDER_STAT_PENDING f then s.whenDue (max t1 t2) (fun q => q.coils) else s)

/-- The feedback disagrees with the output for longer than FB_TIME after a change, or later (R307). -/
def execFeederFeedbackFault (f : Fin 6) (s : State) : Out :=
  let t := match (s.feeder f).changeNs with
    | some n => n + s.fld R.DRV_FEEDER_CFG_FB_TIME f * 10000000
    | none => 0
  .next (if s.drvRuns ∧ s.bit R.DRV_FEEDER_CFG_FB_EN f ∧ s.fbValue f ≠ (s.feeder f).out ∧ !s.bit R.DRV_FEEDER_STAT_FAULT f then
      s.whenDue t (fun q =>
        ((q.setBit R.DRV_FEEDER_STAT_FAULT true f).setBit R.DRV_EVT_FEEDBACK true).report 0 0x08 .feederFeedback [f] [])
    else s)

/-- Without feedback CLOSED follows the output after 100 ms (R307). -/
def execFeederClosedSettle (f : Fin 6) (s : State) : Out :=
  let t := match (s.feeder f).changeNs with
    | some n => n + 100000000
    | none => 0
  .next (if s.poweredOn ∧ !s.bit R.DRV_FEEDER_CFG_FB_EN f then
      s.whenDue t (fun q => q.setBit R.DRV_FEEDER_STAT_CLOSED (q.feeder f).out f)
    else s)

/-- The auxiliary contact of a feeder changes (R307); in ONYX and below nothing shows it. -/
def execFeederFeedbackChange (f : Fin 6) (us : Fin 20000) (closed : Bool) (s : State) : Out :=
  let contact (t : State) : State := t.setFeeder f { t.feeder f with raw := closed }
  .next (if s.poweredOn then (contact (s.atUs us)).syncFeedback f else contact s)

end Sys2Proof.Machine
end

