-- ==== Sys2Proof/Machine/Lce.lean ====
section
/-! DEFINITION. The closed-loop control engine (12_loop_engine.md): the control law, set-points, opening and closing, pulse
and analogue inputs, and the checks of its configuration. -/

namespace Sys2Proof.Machine

/-- Saturate to 32 signed bits. -/
def sat32 (x : Int) : Int := clampI x (-(2 ^ 31)) (2 ^ 31 - 1)

/-- A product shifted right and saturated, as MULQ (R313). -/
def mulShift (a b : Int) (n : Nat) : Int := sat32 (sarI (a * b) n)

namespace State

/-! ### Inputs and set-points (R310, R315 to R317) -/

/-- The rate of PIN k, signed Q16.16. -/
def pinRate (s : State) (k : Nat) : Int := s.fldI R.LCE_PIN_RATE_RATE k

/-- The code of an analogue input (R311): 0 to 10 V from µV, in current mode 4 to 20 mA from nA. A fraction of a step is dropped (DESIGN
CHOICE, log entry 166). -/
def ainCode (current : Bool) (x : Nat) : Nat :=
  if current then min 65535 ((x - 4000000) * 65535 / 16000000) else min 65535 (x * 65535 / 10000000)

/-- y of loop l. -/
def loopY (s : State) (l : Nat) (x : LoopIn) : Int :=
  if l = 0 then (x.vbus : Nat)
  else
    let k := s.fld R.LCE_CFG_YSRC l
    if k < 4 then (s.fld R.LCE_AIN_CODE k : Nat) else s.pinRate (k - 4)

/-- A source value scaled by GAIN, SHIFT and OFFSET. -/
def loopScale (s : State) (l : Nat) (x : Int) : Int :=
  sat32 (mulShift x (s.fldI R.LCE_GAIN_GAIN l) (s.fld R.LCE_SCALE_SHIFT l) + s.fldI R.LCE_OFFSET_OFFSET l)

/-- The set-point of loop l. -/
def loopSp (s : State) (l : Nat) (x : LoopIn) : Int :=
  if l = 0 then (s.setPoint : Nat)
  else
    let k := s.fld R.LCE_CFG_SPSEL l
    match s.fld R.LCE_CFG_SPSRC l with
    | 0 => (SMap.find 0 s.lce.sp l).toInt
    | 1 => s.loopScale l (s.fld R.LCE_AIN_CODE k : Nat)
    | 2 => s.loopScale l (s.pinRate k)
    | _ => s.loopScale l (s.loopU k)

/-- FF of loop l. -/
def loopFf (s : State) (l : Nat) (x : LoopIn) : Int :=
  let k := s.fld R.LCE_CFG_FFSEL l
  let at_ (i : Int) : Int :=
    sat32 (tliValue (fun j => s.fldI R.LCE_FF_Y_Y l j) 17 (s.fld R.LCE_FF_XS_XS l) (s.fldI R.LCE_FF_X0_X0 l) i).1
  match s.fld R.LCE_CFG_FFSRC l with
  | 0 => 0
  | 1 => at_ (x.boost : Nat)
  | 2 => at_ (s.chanOut k s.nowNs : Nat)
  | _ => at_ (s.fld R.LCE_AIN_CODE k : Nat)

/-- OUT_MAX of loop l: at most 58,982 for LOOP[0]. -/
def loopMax (s : State) (l : Nat) : Int :=
  let m := s.fldI R.LCE_OUT_MAX_MAX l
  if l = 0 then min m 58982 else m

/-! ### One sample (R313, R314, R319) -/

/-- The D term of a sample. -/
def loopD (s : State) (l : Nat) (e : Int) : Int :=
  if s.bit R.LCE_CFG_DEN l then
    let d := (SMap.find 0 s.lce.d l).toInt
    let raw := mulShift (s.fldI R.LCE_KD_KD l) (sat32 (e - s.fldI R.LCE_E_E l)) (s.fld R.LCE_SHIFT_SD l)
    sat32 (d + mulShift (s.fldI R.LCE_KF_KF l) (sat32 (raw - d)) (s.fld R.LCE_SHIFT_SF l))
  else 0

/-- A sample of loop l, CLOSED. ISAT says that the clamp changes I + dI, also in a sample that holds I, as in the first step of the worked
example of 12_loop_engine.md (DEDUCED, log entry 167). -/
def loopSample (s : State) (l : Nat) (x : LoopIn) : State :=
  let y := s.loopY l x
  let sp := s.loopSp l x
  let e := sat32 (sp - y)
  let p := mulShift (s.fldI R.LCE_KP_KP l) e (s.fld R.LCE_SHIFT_SP l)
  let ff := s.loopFf l x
  let imin := s.fldI R.LCE_I_MIN_MIN l
  let imax := s.fldI R.LCE_I_MAX_MAX l
  let ul := s.loopU l
  let fresh := SMap.find false s.lce.reinit l
  let i0 := if fresh then clampI (ul - ff - p) imin imax else s.fldI R.LCE_I_I l
  let d := if fresh then 0 else s.loopD l e
  let sum := sat32 (ff + p + i0 + d)
  let omin := s.fldI R.LCE_OUT_MIN_MIN l
  let omax := s.loopMax l
  let uc := clampI sum omin omax
  let slew := s.fldI R.LCE_SLEW_STEP l
  let u := ul + clampI (uc - ul) (-slew) slew
  let di := mulShift (s.fldI R.LCE_KI_KI l) e (s.fld R.LCE_SHIFT_SI l)
  let held := (decide (uc = omax) && decide (0 < di)) || (decide (uc = omin) && decide (di < 0))
  let next := sat32 (i0 + di)
  let clamped := clampI next imin imax
  let i1 := if held then i0 else clamped
  let s1 := { s with lce := { s.lce with
    reinit := SMap.set false s.lce.reinit l false, d := SMap.set 0 s.lce.d l (wordOf d) } }
  let s2 := ((((s1.setFldI R.LCE_Y_Y y l).setFldI R.LCE_SPV_SP sp l).setFldI R.LCE_E_E e l).setFldI R.LCE_I_I i1 l)
  let s3 := ((s2.setBit R.LCE_STAT_ISAT (decide (clamped ≠ next)) l).setBit R.LCE_STAT_OSAT (decide (uc ≠ sum)) l).setBit
    R.LCE_STAT_RSAT (decide (u ≠ uc)) l
  s3.setLoopOut l u

/-- The sampling period of loop l in whole µs (R310): 20 for LOOP[0], else that of RATE × 100 Hz. -/
def loopPeriodUs (s : State) (l : Nat) : Nat := if l = 0 then 20 else 10000 / s.fld R.LCE_CFG_RATE l

/-- Loop l samples now: it is CLOSED, and a period has passed since its last sample (log entry 153). -/
def sampleDue (s : State) (l : Nat) : Bool := decide (s.loopState l = 1) && decide (SMap.find 0 s.lce.nextNs l ≤ s.nowNs)

/-- The earliest time of loop l's next sample. -/
def sampleNext (s : State) (l : Nat) : State :=
  { s with lce := { s.lce with nextNs := SMap.set 0 s.lce.nextNs l (s.nowNs + 1000 * s.loopPeriodUs l) } }

/-- The latest conversions of the analogue inputs. -/
def ainCodes (s : State) (xs : List Nat) : State :=
  ([0, 1, 2, 3] : List Nat).foldl (fun t k => t.setFld R.LCE_AIN_CODE (ainCode (t.bit R.LCE_AIN_CFG_MODE k) (xs.getD k 0)) k) s

/-- The set-points that the registers hold at a frame edge (R317). -/
def lceEdge (s : State) (xs : List Nat) : State :=
  let s1 := s.ainCodes xs
  { s1 with lce := { s1.lce with
    sp := ([1, 2, 3] : List Nat).foldl (fun m l => SMap.set 0 m l (s1.rd (R.LCE_SP_SP.at l 0))) s1.lce.sp } }

/-! ### Inputs in WIRE fault (R312, R318) -/

/-- Loop l uses AIN k. -/
def loopUses (s : State) (l k : Nat) : Bool :=
  (decide (l ≠ 0) && (decide (s.fld R.LCE_CFG_YSRC l = k) || (decide (s.fld R.LCE_CFG_SPSRC l = 1) && decide (s.fld R.LCE_CFG_SPSEL l = k)))) ||
    (decide (s.fld R.LCE_CFG_FFSRC l = 3) && decide (s.fld R.LCE_CFG_FFSEL l = k))

/-- Every input of loop l is out of WIRE fault. -/
def loopInputsOk (s : State) (l : Nat) : Bool := ([0, 1, 2, 3] : List Nat).all (fun k => !(s.loopUses l k && s.bit R.LCE_AIN_WIRE k))

/-- AIN k enters or leaves WIRE fault. -/
def ainWire (s : State) (k : Nat) (fault : Bool) : State :=
  let s1 := s.setBit R.LCE_AIN_WIRE fault k
  let s2 := s1.setFld R.LCE_EVT_WIRE (s1.fld R.LCE_EVT_WIRE ||| 2 ^ k)
  let s3 := s2.report 0 0x09 .ainWire [k, if fault then 1 else 0] []
  ([0, 1, 2, 3] : List Nat).foldl (fun t l =>
    if !t.loopUses l k then t
    else if fault then
      if t.loopState l = 1 then
        ((t.setLoopState l 2).setBit R.LCE_STAT_INFAULT true l).setFld R.LCE_EVT_INFAULT (t.fld R.LCE_EVT_INFAULT ||| 2 ^ l)
      else t
    else if t.loopState l = 2 ∧ t.loopInputsOk l then t.loopClose l
    else t) s3

/-- The LCE has become ready: loops with AUTOCLOSE close (R318, R321). -/
def lceAutoclose (s : State) : State :=
  ([1, 2, 3] : List Nat).foldl (fun t l =>
    if t.bit R.LCE_CFG_AUTOCLOSE l ∧ t.loopState l = 0 ∧ t.loopInputsOk l then t.loopClose l else t) s

/-! ### Register writes (R310, R315, R316, R318 to R320) -/

/-- LCE_CTRL[l]. A write that has no row in R318's table changes nothing. -/
def writeLceCtrl (s : State) (l : Nat) (v : Word) : Status × State :=
  let close := v.getLsbD 0
  let open_ := v.getLsbD 1
  if l = 0 ∧ (close ∨ open_) then (.refusedState, s)
  else if close ∧ open_ then (.invalid, s)
  else if close then
    if s.loopState l ≠ 0 then (.ok, s) else if s.loopInputsOk l then (.ok, s.loopClose l) else (.refusedState, s)
  else if open_ then (.ok, if s.loopState l = 1 ∨ s.loopState l = 2 then s.loopOpen l else s)
  else (.ok, s)

/-- The loop whose set-point source loop l names (R316), in a configuration. -/
def spLink (src sel : Nat → Nat) (l : Nat) : Option Nat := if l ≠ 0 ∧ src l = 4 then some (sel l) else none

/-- The set-point sources from loop l on come back to it within four links. -/
def spCycle (next : Nat → Option Nat) (l : Nat) : Bool :=
  let n1 := next l
  let n2 := n1.bind next
  let n3 := n2.bind next
  let n4 := n3.bind next
  n1 == some l || n2 == some l || n3 == some l || n4 == some l

/-- LCE_CFG[l]. Fields that are fixed for LOOP[0] keep their value. -/
def writeLceCfg (s : State) (l : Nat) (v : Word) : Status × State :=
  let src := getBits v 4 3
  let sel := getBits v 8 2
  let ff := getBits v 10 2
  let ffs := getBits v 12 5
  let out := getBits v 17 2
  let rate := getBits v 24 8
  let next := spLink (fun k => if k = l then src else s.fld R.LCE_CFG_SPSRC k) (fun k => if k = l then sel else s.fld R.LCE_CFG_SPSEL k)
  if 4 < src ∨ (l ≠ 0 ∧ (5 < getBits v 0 3 ∨ 2 < out ∨ rate < 10 ∨ 100 < rate)) then (.range, s)
  else if (l ≠ 0 ∧ src = 3) ∨ (l = 0 ∧ src ≠ 3) ∨ (ff = 1 ∧ l ≠ 0) then (.invalid, s)
  else if (src = 2 ∧ 1 < sel) ∨ (ff = 2 ∧ s.part.chans ≤ ffs) ∨ (ff = 3 ∧ 3 < ffs) then (.range, s)
  else if l ≠ 0 ∧ out ≠ 0 ∧ ([1, 2, 3] : List Nat).any (fun k => decide (k ≠ l) && decide (s.fld R.LCE_CFG_OUTSEL k = out)) then (.invalid, s)
  else if ([1, 2, 3] : List Nat).any (spCycle next) then (.invalid, s)
  else
    let keep : Word := if l = 0 then 0xFF060007 else 0
    let w := (v &&& 0xFF7FFF77 &&& ~~~keep) ||| (s.rd (R.LCE_CFG_YSRC.at l 0) &&& keep)
    (.ok, s.wr (R.LCE_CFG_YSRC.at l 0) w)

/-- Registers of a loop that are LOCKED while it is not OPEN: all but CTRL, STAT and SP (R319). -/
def loopConfigOff (o : Nat) : Bool := decide (o = 0x08) || (decide (0x10 ≤ o) && decide (o < 0xA0))

/-- Loop l may be configured: OPEN, and LOOP[0] only with the bus OFF and EN = 0 (R320). -/
def loopUnlocked (s : State) (l : Nat) : Bool :=
  decide (s.loopState l = 0) && (decide (l ≠ 0) || (decide (s.drvMode = 0) && !s.bit R.DRV_CTRL_EN))

/-- A loop configuration register: CFG, and the limits that depend on each other; OUT_MIN is held to the OUT_MAX in force, which for LOOP[0]
is at most 58,982 whatever the register's reset value. -/
def writeLoopReg (s : State) (l o : Nat) (v : Word) : Status × State :=
  let a := 0x91000 + 256 * l + o
  if !s.loopUnlocked l then (.locked, s)
  else if o = 0x08 then s.writeLceCfg l v
  else if o = 0x34 ∧ s.loopMax l < v.toInt then (.range, s)
  else if o = 0x38 ∧ (v.toInt < s.fldI R.LCE_OUT_MIN_MIN l ∨ (l = 0 ∧ 58982 < v.toInt)) then (.range, s)
  else if o = 0x3C ∧ v.toInt < 1 then (.range, s)
  else if o = 0x40 ∧ s.fldI R.LCE_I_MAX_MAX l < v.toInt then (.range, s)
  else if o = 0x44 ∧ v.toInt < s.fldI R.LCE_I_MIN_MIN l then (.range, s)
  else if o = 0x4C ∧ 26 < getBits v 0 5 then (.range, s)
  else
    let mask : Word := if o = 0x14 ∨ o = 0x4C then 0x1F else if o = 0x30 then 0x1F1F1F1F else 0xFFFFFFFF
    (.ok, s.wr a (v &&& mask))

/-- The loop that drives AOUT k. -/
def aoutLoop (s : State) (k : Nat) : Option Nat := ([1, 2, 3] : List Nat).find? (fun l => decide (s.fld R.LCE_CFG_OUTSEL l = k + 1))

/-- LCE_AOUT_MAN[k]. -/
def writeAoutMan (s : State) (k : Nat) (v : Word) : Status × State :=
  let c := getBits v 0 16
  match s.aoutLoop k with
  | some l =>
    if s.loopState l ≠ 0 then (.locked, s) else (.ok, (s.setFld R.LCE_AOUT_MAN_CODE c k).setLoopOut l (c : Nat))
  | none => (.ok, (s.setFld R.LCE_AOUT_MAN_CODE c k).setFld R.LCE_AOUT_CODE c k)

/-- The loop whose configuration the register at `a` belongs to is not to be written (R319, R320). -/
def loopLocked (s : State) (a : Nat) : Bool :=
  decide (0x91000 ≤ a ∧ a < 0x91400) && loopConfigOff (a % 256) && !s.loopUnlocked ((a - 0x91000) / 256)

/-- The LCE registers whose writes are not plain. -/
def lceWrite (s : State) (a : Nat) (v : Word) : Option (Status × State) :=
  if 0x90100 ≤ a ∧ a < 0x90140 ∧ a % 16 = 0 then
    let k := (a - 0x90100) / 16
    let s1 := s.wr a (v &&& 1)
    some (.ok, if !v.getLsbD 0 ∧ s1.bit R.LCE_AIN_WIRE k then s1.ainWire k false else s1)
  else if 0x90200 ≤ a ∧ a < 0x90220 ∧ a % 16 = 4 then some (s.writeAoutMan ((a - 0x90200) / 16) v)
  else if 0x91000 ≤ a ∧ a < 0x91400 then
    let l := (a - 0x91000) / 256
    let o := a % 256
    if o = 0 then some (s.writeLceCtrl l v)
    else if loopConfigOff o then some (s.writeLoopReg l o v)
    else none
  else none

/-- The analogue inputs and the loops run. -/
def lceRuns (s : State) : Bool := s.poweredOn && s.drv.storeRead

end State

/-! ### Commands -/

/-- A sample of loop l, when one is due. -/
def execLoopSample (l : Fin 4) (us : Fin 20000) (x : LoopIn) (s : State) : Out :=
  .next (if s.lceRuns ∧ (s.atUs us).sampleDue l then (((s.atUs us).sampleNext l).ainCodes x.ain).loopSample l x else s)

/-- The current of AIN k lies below 3.6 mA or above 21.0 mA for 10 ms. -/
def execAinWireFault (k : Fin 4) (us : Fin 20000) (s : State) : Out :=
  .next (if s.poweredOn ∧ s.bit R.LCE_AIN_CFG_MODE k ∧ !s.bit R.LCE_AIN_WIRE k then (s.atUs us).ainWire k true else s)

/-- The current of AIN k lies between 3.8 mA and 20.5 mA for 100 ms. -/
def execAinWireClear (k : Fin 4) (us : Fin 20000) (s : State) : Out :=
  .next (if s.poweredOn ∧ s.bit R.LCE_AIN_WIRE k then (s.atUs us).ainWire k false else s)

/-- PIN k has had no pulse for TIMEOUT seconds (R311). -/
def execPinTimeout (k : Fin 2) (s : State) : Out :=
  let t := SMap.find 0 s.lce.pulseNs k
  .next (if s.poweredOn ∧ t ≠ 0 then
      s.whenDue (t - 1 + s.fld R.LCE_PIN_CFG_TIMEOUT k * 1000000000) (fun q =>
        ({ q with lce := { q.lce with pulseNs := SMap.set 0 q.lce.pulseNs k 0 } }).setFld R.LCE_PIN_RATE_RATE 0 k)
    else s)

/-- An edge on PIN k: the selected one counts, and the period since the last one gives the rate. A rate that signed Q16.16
cannot hold is a free value. -/
def execPulseEdge (k : Fin 2) (us : Fin 20000) (rising : Bool) (s : State) : Out :=
  .next (if s.poweredOn ∧ rising = !s.bit R.LCE_PIN_CFG_EDGE k then
      let t := s.atUs us
      let last := SMap.find 0 t.lce.pulseNs k
      let t1 := ({ t with lce := { t.lce with pulseNs := SMap.set 0 t.lce.pulseNs k (t.nowNs + 1) } }).addWrap R.LCE_PIN_COUNT_COUNT 1 k
      let period := (t.nowNs + 1 - last) / 1000
      if last = 0 then t1
      else if period < 31 then
        let (v, t2) := t1.draw
        t2.setFld R.LCE_PIN_RATE_RATE v k
      else t1.setFld R.LCE_PIN_RATE_RATE (65536000000 / period) k
    else s)

end Sys2Proof.Machine
end

