-- ==== Sys2Proof/Machine/Cose.lean ====
section
/-! DEFINITION. COSE and CBOR as RFC 9052 and RFC 8949 lay them out (log entry 137): the signature section of an image
(05_programs_and_lantern_table.md R133), a manifest (18_update.md R405, R406), and the attestation token
(17_keys_and_attestation.md R401). -/

namespace Sys2Proof.Machine

/-- The head of a CBOR item of definite length: its major type, its argument, and what follows. -/
def cborHead : List Byte → Option (Nat × Nat × List Byte)
  | [] => none
  | b :: bs =>
    let ai := b.toNat % 32
    let wide (n : Nat) : Option (Nat × Nat × List Byte) :=
      if n ≤ bs.length then some (b.toNat / 32, (bs.take n).foldl (fun v x => v * 256 + x.toNat) 0, bs.drop n) else none
    if ai < 24 then some (b.toNat / 32, ai, bs)
    else if ai = 24 then wide 1
    else if ai = 25 then wide 2
    else if ai = 26 then wide 4
    else if ai = 27 then wide 8
    else none

/-- What follows the first `n` items, in at most `fuel` heads. -/
def cborSkip : Nat → Nat → List Byte → Option (List Byte)
  | 0, _, _ => none
  | _ + 1, 0, bs => some bs
  | fuel + 1, n + 1, bs =>
    match cborHead bs with
    | none => none
    | some (2, v, rest) => if v ≤ rest.length then cborSkip fuel n (rest.drop v) else none
    | some (3, v, rest) => if v ≤ rest.length then cborSkip fuel n (rest.drop v) else none
    | some (4, v, rest) => cborSkip fuel (n + v) rest
    | some (5, v, rest) => cborSkip fuel (n + 2 * v) rest
    | some (6, _, rest) => cborSkip fuel (n + 1) rest
    | some (_, _, rest) => cborSkip fuel n rest

/-- Of `n` map entries, the one with the label alg (1) has the value ES256 (-7). -/
def coseAlg : Nat → List Byte → Bool
  | 0, _ => false
  | n + 1, bs =>
    match cborHead bs with
    | some (0, 1, v) => decide ((cborHead v).map (fun x => (x.1, x.2.1)) = some (1, 6))
    | _ => match cborSkip (bs.length + 1) 2 bs with
      | some rest => coseAlg n rest
      | none => false

/-- The protected headers name ES256. -/
def coseHeaders (bs : List Byte) : Bool :=
  match cborHead bs with
  | some (5, n, rest) => coseAlg n rest && decide (cborSkip (bs.length + 1) 1 bs = some [])
  | _ => false

/-- After the headers: a nil payload and a signature of 64 bytes, and nothing else. -/
def coseTail (bs : List Byte) : Bool :=
  match bs with
  | b :: rest => decide (b = 0xF6) && (match cborHead rest with
    | some (2, n, sig) => decide (n = 64 ∧ sig.length = 64)
    | _ => false)
  | [] => false

/-- An array of four: protected headers, a map of unprotected headers, no payload, the signature. -/
def coseArray (bs : List Byte) : Bool :=
  match cborHead bs with
  | some (4, 4, h) => (match cborHead h with
    | some (2, n, rest) =>
      decide (n ≤ rest.length) && coseHeaders (rest.take n) && (match cborHead (rest.drop n), cborSkip (rest.length + 1) 1 (rest.drop n) with
        | some (5, _, _), some t => coseTail t
        | _, _ => false)
    | _ => false)
  | _ => false

/-- A COSE_Sign1 structure with detached payload and ES256, with or without its tag 18. -/
def coseSign1 (bs : List Byte) : Bool :=
  match bs with
  | 0xD2 :: rest => coseArray rest
  | _ => coseArray bs

/-! ### Writing CBOR -/

/-- A number in n bytes, most significant first. -/
def beBytes : Nat → Nat → List Byte
  | 0, _ => []
  | n + 1, v => beBytes n (v / 256) ++ [BitVec.ofNat 8 v]

/-- The shortest head of an item. -/
def cborPut (major v : Nat) : List Byte :=
  let first (ai : Nat) : Byte := BitVec.ofNat 8 (32 * major + ai)
  if v < 24 then [first v]
  else if v < 256 then first 24 :: beBytes 1 v
  else if v < 65536 then first 25 :: beBytes 2 v
  else if v < 2 ^ 32 then first 26 :: beBytes 4 v
  else first 27 :: beBytes 8 v

/-- A whole number, a byte string and an array. -/
def cborInt (x : Int) : List Byte := if 0 ≤ x then cborPut 0 x.toNat else cborPut 1 (-1 - x).toNat

def cborBytes (bs : List Byte) : List Byte := cborPut 2 bs.length ++ bs

def cborArray (xs : List (List Byte)) : List Byte := cborPut 4 xs.length ++ xs.flatten

/-- The protected headers with alg ES256. -/
def coseEs256 : List Byte := [0xA1, 0x01, 0x26]

/-- What a signature covers: a context string, protected headers, and the payload. -/
def coseToSign (context : List Byte) (heads : List (List Byte)) (payload : List Byte) : List Byte :=
  cborArray ((cborPut 3 context.length ++ context) :: heads.map cborBytes ++ [cborBytes [], cborBytes payload])

/-- The strings Signature1 and Signature. -/
def coseOne : List Byte := [0x53, 0x69, 0x67, 0x6E, 0x61, 0x74, 0x75, 0x72, 0x65, 0x31]
def coseMany : List Byte := [0x53, 0x69, 0x67, 0x6E, 0x61, 0x74, 0x75, 0x72, 0x65]

/-! ### Reading a manifest (18 R405, R406) -/

/-- A byte string and what follows it. -/
def cborRead (bs : List Byte) : Option (List Byte × List Byte) :=
  match cborHead bs with
  | some (2, n, rest) => if n ≤ rest.length then some (rest.take n, rest.drop n) else none
  | _ => none

/-- One of the signatures: its protected headers, which name ES256, and its 64 bytes. -/
def coseSigner (bs : List Byte) : Option ((List Byte × List Byte) × List Byte) :=
  match cborHead bs with
  | some (4, 3, r) => (match cborRead r with
    | some (prot, r1) => (match cborHead r1, cborSkip (r1.length + 1) 1 r1 with
      | some (5, _, _), some r2 => (match cborRead r2 with
        | some (sig, r3) => if coseHeaders prot ∧ sig.length = 64 then some ((prot, sig), r3) else none
        | none => none)
      | _, _ => none)
    | none => none)
  | _ => none

/-- A COSE_Sign structure, tag 98, with two signatures: its payload, and each signature with what it covers. -/
def coseSign (bs : List Byte) : Option (List Byte × List (List Byte × List Byte)) :=
  match cborHead bs with
  | some (6, 98, r) => (match cborHead r with
    | some (4, 4, r1) => (match cborRead r1 with
      | some (prot, r2) => (match cborHead r2, cborSkip (r2.length + 1) 1 r2 with
        | some (5, _, _), some r3 => (match cborRead r3 with
          | some (payload, r4) => (match cborHead r4 with
            | some (4, 2, r5) => (match coseSigner r5 with
              | some (a, r6) => (match coseSigner r6 with
                | some (b, []) => some (payload, [a, b].map (fun x => (coseToSign coseMany [prot, x.1] payload, x.2)))
                | _ => none)
              | none => none)
            | _ => none)
          | none => none)
        | _, _ => none)
      | none => none)
    | _ => none)
  | _ => none

/-- The n entries of a map whose keys are numbers, each once: `f` takes a key, what follows it, and what has been read. -/
def cborEntries {α : Type} (f : Nat → List Byte → α → Option (α × List Byte)) : Nat → List Nat → α → List Byte → Option (α × List Byte)
  | 0, _, a, bs => some (a, bs)
  | n + 1, seen, a, bs =>
    match cborHead bs with
    | some (0, k, r) =>
      if seen.contains k then none
      else (match f k r a with
        | some (a1, r1) => cborEntries f n (k :: seen) a1 r1
        | none => none)
    | _ => none

/-- A whole number, put where `g` says. -/
def putNum {α : Type} (bs : List Byte) (g : Nat → α) : Option (α × List Byte) :=
  match cborHead bs with
  | some (0, v, r) => some (g v, r)
  | _ => none

/-- An entry of a part map. -/
def partEntry (k : Nat) (bs : List Byte) (p : ManifestPart) : Option (ManifestPart × List Byte) :=
  match k with
  | 1 => putNum bs (fun v => { p with kind := v })
  | 2 => putNum bs (fun v => { p with index := v })
  | 3 => putNum bs (fun v => { p with version := v })
  | 4 => putNum bs (fun v => { p with least := v })
  | 5 => putNum bs (fun v => { p with size := v })
  | 6 => (cborRead bs).map (fun x => ({ p with digest := x.1 }, x.2))
  | 7 => putNum bs (fun v => { p with hw := v })
  | _ => none

/-- A part map: keys 1 to 6, and HWTYPE with a LANTERN_IMAGE only. -/
def readPart (bs : List Byte) : Option (ManifestPart × List Byte) :=
  match cborHead bs with
  | some (5, n, r) => (match cborEntries partEntry n (if n = 6 then [7] else []) ⟨0, 0, 0, 0, 0, [], 0⟩ r with
    | some (p, rest) => if n = 6 ∧ p.kind ≠ 6 ∨ n = 7 ∧ p.kind = 6 then some (p, rest) else none
    | none => none)
  | _ => none

/-- n part maps. -/
def readPartList : Nat → List Byte → Option (List ManifestPart × List Byte)
  | 0, bs => some ([], bs)
  | n + 1, bs => match readPart bs with
    | some (p, r) => (readPartList n r).map (fun x => (p :: x.1, x.2))
    | none => none

def readParts (bs : List Byte) : Option (List ManifestPart × List Byte) :=
  match cborHead bs with
  | some (4, n, r) => readPartList n r
  | _ => none

/-- An entry of the payload's map. -/
def manifestEntry (k : Nat) (bs : List Byte) (m : Manifest) : Option (Manifest × List Byte) :=
  match k with
  | 1 => putNum bs (fun v => { m with format := v })
  | 2 => putNum bs (fun v => { m with seq := v })
  | 3 => putNum bs (fun v => { m with sizes := v })
  | 4 => putNum bs (fun v => { m with dieRev := v })
  | 5 => (readParts bs).map (fun x => ({ m with parts := x.1 }, x.2))
  | 6 => (cborRead bs).map (fun x => ({ m with bmr := x.1 }, x.2))
  | 7 => putNum bs (fun v => { m with storeFmt := v })
  | _ => none

/-- FORMAT, key 1 of the payload's map, whatever its other entries are. -/
def manifestFormat : Nat → List Byte → Option Nat
  | 0, _ => none
  | n + 1, bs =>
    match cborHead bs, cborSkip (bs.length + 1) 2 bs with
    | some (0, 1, r), _ => (match cborHead r with
      | some (0, v, _) => some v
      | _ => none)
    | some _, some rest => manifestFormat n rest
    | _, _ => none

/-- A manifest that cannot be read, but for its format. -/
def unreadable (format : Nat) : Manifest :=
  { formed := false, format := format, seq := 0, sizes := 0, dieRev := 0, parts := [], bmr := [], storeFmt := 0, sigs := [] }

/-- The payload's map: keys 1 to 7, each once and no other. -/
def readPayload (payload : List Byte) (sigs : List (List Byte × List Byte)) : Manifest :=
  match cborHead payload with
  | some (5, n, r) => (match cborEntries manifestEntry n [] (unreadable 1) r with
    | some (m, []) => if n = 7 then { m with formed := true, sigs := sigs } else unreadable ((manifestFormat n r).getD 1)
    | _ => unreadable ((manifestFormat n r).getD 1))
  | _ => unreadable 1

/-- A manifest as it comes. -/
def readManifest (bs : List Byte) : Manifest :=
  match coseSign bs with
  | some (payload, sigs) => readPayload payload sigs
  | none => unreadable 1

end Sys2Proof.Machine
end

