-- ==== Sys2Proof/Machine/GspMsg.lean ====
section
/-! DEFINITION. The messages of the host protocol as bytes (19_host_protocol.md R423). The commands of a session carry what a message of the
right form says; this file says which bytes have that form. -/

namespace Sys2Proof.Machine

/-- A message: TYPE (0 HELLO, 1 HELLO_ACK, 2 REQUEST, 3 RESPONSE, 4 SEGMENT, 5 CREDIT, 6 NOTIFY, 7 KEEPALIVE, 8 PEER), ID, FLAGS (bit 0
DUPLICATE, 1 TXN, 2 FINAL) and the CBOR item BODY. -/
structure GspMsg where
  typ : Nat
  id : Nat
  flags : Nat
  body : List Byte
  deriving DecidableEq, Repr

/-- The CBOR item that the transport carries: over TLS behind its 4-byte little-endian length, over DTLS a datagram of at most 1,200 bytes. -/
def gspItem (dtls : Bool) (bs : List Byte) : Option (List Byte) :=
  if dtls then (if bs.length ≤ 1200 then some bs else none)
  else if 4 ≤ bs.length ∧ leNat (bs.take 4) = bs.length - 4 then some (bs.drop 4)
  else none

/-- A whole number below a limit, and what follows it. -/
def cborUpTo (lim : Nat) (bs : List Byte) : Option (Nat × List Byte) :=
  match cborHead bs with
  | some (0, v, r) => if v < lim then some (v, r) else none
  | _ => none

/-- A message: the array [TYPE, ID, FLAGS, BODY], its BODY one item of at most 256 KiB, and nothing else. -/
def readGsp (dtls : Bool) (bs : List Byte) : Option GspMsg :=
  (gspItem dtls bs).bind (fun item =>
    match cborHead item with
    | some (4, 4, r) =>
      (cborUpTo 9 r).bind (fun t => (cborUpTo (2 ^ 32) t.2).bind (fun n => (cborUpTo 8 n.2).bind (fun f =>
        if f.2.length ≤ 262144 ∧ cborSkip (f.2.length + 1) 1 f.2 = some [] then some ⟨t.1, n.1, f.1, f.2⟩ else none)))
    | _ => none)

/-- A message as bytes. -/
def gspBytes (dtls : Bool) (m : GspMsg) : List Byte :=
  let item := cborPut 4 4 ++ cborPut 0 m.typ ++ cborPut 0 m.id ++ cborPut 0 m.flags ++ m.body
  if dtls then item else leBytes 4 item.length ++ item

end Sys2Proof.Machine
end

