-- ==== Sys2Proof/Machine/Flow.lean ====
section
/-! DEFINITION. The flow reckoner (06_flow_reckoner.md R153 to R176): shadow configuration, propagation, fusion, learning,
traces, presence and the boundary exchange. -/

namespace Sys2Proof.Machine

/-! ### Link records (R154) -/

/-- Word k of link l in a table of link records. -/
def linkWord (m : SMap Word) (l k : Nat) : Word := SMap.find 0 m (8 * l + k)

def linkNcell (m : SMap Word) (l : Nat) : Nat := getBits (linkWord m l 0) 0 6 + 1
def linkValid (m : SMap Word) (l : Nat) : Bool := (linkWord m l 0).getLsbD 6
def linkLearn (m : SMap Word) (l : Nat) : Bool := (linkWord m l 0).getLsbD 7
def linkLen (m : SMap Word) (l : Nat) : Nat := getBits (linkWord m l 0) 8 9
def linkLanes (m : SMap Word) (l : Nat) : Nat := getBits (linkWord m l 0) 17 2 + 1
def linkClasses (m : SMap Word) (l : Nat) : Nat := getBits (linkWord m l 0) 20 3
def linkVfree (m : SMap Word) (l : Nat) : Nat := getBits (linkWord m l 1) 0 16
def linkReverse (m : SMap Word) (l : Nat) : Nat := getBits (linkWord m l 1) 16 16
def linkExit (m : SMap Word) (l k : Nat) : Nat := getBits (linkWord m l (2 + k / 2)) (16 * (k % 2)) 16
def linkTf (m : SMap Word) (l k : Nat) : Nat := (linkWord m l (4 + k)).toNat

/-- The exits in use of a link. -/
def usedExits (m : SMap Word) (l : Nat) : List Nat := (List.range 4).filter (fun k => decide (linkExit m l k ≠ 0xFFFF))

/-- The valid links of a table, ascending. -/
def validLinks (m : SMap Word) : List Nat :=
  m.filterMap (fun e => if e.1 % 8 = 0 ∧ e.2.getLsbD 6 then some (e.1 / 8) else none)

/-- The boundary entries of a table whose VALID bit is set. -/
def bndValid (w : Word) : Bool := w.getLsbD 31
def bndLink (w : Word) : Nat := getBits w 0 12
def bndIn (w : Word) : Bool := w.getLsbD 12
def bndPeer (w : Word) : Nat := getBits w 13 3
def bndPeerLink (w : Word) : Nat := getBits w 16 12

/-! ### Shadow check (R155) -/

/-- An EXIT value is legal: none, a valid link, or a valid OUT entry. -/
def flowExitOk (sh : SMap Word) (bnd : Nat → Word) (e : Nat) : Bool :=
  if e = 0xFFFF then true
  else if e < 4096 then linkValid sh e
  else decide (0x8000 ≤ e ∧ e < 0x8040) && bndValid (bnd (e - 0x8000)) && !bndIn (bnd (e - 0x8000))

/-- Bits of word 0 that R154 does not name. -/
def linkReserved (w : Word) : Bool := (w.getLsbD 19) || decide (getBits w 23 9 ≠ 0)

/-- Check 5, which applies to a link with at least one exit: its fractions sum to 65,536, and those of unused exits are 0. -/
def checkTf (sh : SMap Word) (l : Nat) : Bool :=
  let used := usedExits sh l
  let unusedOk := (List.range 4).all (fun k => decide (linkExit sh l k ≠ 0xFFFF) || decide (linkTf sh l k = 0))
  used.isEmpty || (unusedOk && decide ((used.map (linkTf sh l)).sum = 65536))

def checkReverse (sh : SMap Word) (l : Nat) : Bool :=
  let r := linkReverse sh l
  decide (r = 0xFFFF) || (linkValid sh r && decide (linkNcell sh r = linkNcell sh l) && decide (linkReverse sh r = l))

/-- The links of a table whose exits name boundary entry b. -/
def namesBnd (sh : SMap Word) (b : Nat) : Nat :=
  ((validLinks sh).map (fun l => ((List.range 4).filter (fun k => decide (linkExit sh l k = 0x8000 + b))).length)).sum

/-- The link at which the running sum of cell counts first exceeds 65,536: FLOW_CFG_RES.INDEX of check 1, for which R155 names no link
(DESIGN CHOICE, log entry 170). -/
def cellOverflow (sh : SMap Word) : Nat → List Nat → Option Nat
  | _, [] => none
  | n, l :: ls => if 65536 < n + linkNcell sh l then some l else cellOverflow sh (n + linkNcell sh l) ls

/-- The first failing check: status, reason, index. `peerEn` is HOST_PEER_CFG[p].EN. -/
def shadowCheck (sh : SMap Word) (bnd : Nat → Word) (peerEn : Nat → Bool) : Option (Status × Nat × Nat) :=
  let ls := validLinks sh
  let fail (st : Status) (reason : Nat) (bad : Nat → Bool) : Option (Status × Nat × Nat) :=
    (ls.find? bad).map (fun l => (st, reason, l))
  let c1 := (cellOverflow sh 0 ls).map (fun l => (Status.noSpace, 1, l))
  let c2 := fail .range 2 (fun l => decide (linkLen sh l < 50 ∨ 500 < linkLen sh l ∨ linkVfree sh l < 128 ∨ 10240 < linkVfree sh l))
  let c3 := fail .invalid 3 (fun l => decide (linkClasses sh l = 0) || linkReserved (linkWord sh l 0))
  let c4 := fail .invalid 4 (fun l => (List.range 4).any (fun k => !flowExitOk sh bnd (linkExit sh l k)))
  let c5 := fail .invalid 5 (fun l => !checkTf sh l)
  let c6 := fail .invalid 6 (fun l => !checkReverse sh l)
  let c7 := fail .invalid 7 (fun l => linkLearn sh l && (usedExits sh l).any (fun k => decide (4096 ≤ linkExit sh l k)))
  let c8 := ((List.range 64).find? (fun b =>
    bndValid (bnd b) && ((!bndIn (bnd b) && decide (namesBnd sh b ≠ 1)) || !peerEn (bndPeer (bnd b))))).map
      (fun b => (Status.invalid, 8, b))
  c1.or (c2.or (c3.or (c4.or (c5.or (c6.or (c7.or c8))))))

/-! ### Cells -/

/-- A cleared cell of a link (R170). -/
def clearCell (vfree : Nat) : FlowCell := { vel := vfree }

def Flow.cell (f : Flow) (l c : Nat) : FlowCell := SMap.find {} f.cells (64 * l + c)

def Flow.setCell (f : Flow) (l c : Nat) (x : FlowCell) : Flow := { f with cells := SMap.set {} f.cells (64 * l + c) x }

/-- Set cells 0 to n − 1 of link l to `x`. -/
def Flow.fillCells (f : Flow) (l : Nat) (x : FlowCell) : Nat → Flow
  | 0 => f
  | n + 1 => (Flow.fillCells f l x n).setCell l n x

/-- Clear the cells of a link: VEL at VFREE for its cells, nothing beyond them. -/
def Flow.clearLink (f : Flow) (l : Nat) : Flow :=
  let g := { f with cells := SMap.clear f.cells (64 * l) (64 * l + 63) }
  if linkValid f.links l then g.fillCells l (clearCell (linkVfree f.links l)) (linkNcell f.links l) else g

/-- Clear every cell (R170). -/
def Flow.clearAll (f : Flow) : Flow := (validLinks f.links).foldl Flow.clearLink { f with cells := [] }

/-- Bit p of a mask of the peers. -/
def bit8 (p : Nat) : BitVec 8 := BitVec.ofNat 8 (2 ^ p)

/-- Set one entry of a table of numbers. -/
def natSet (m : SMap Nat) (k v : Nat) : SMap Nat := SMap.set 0 m k v

/-- The learned fraction of an exit: the configured one until a learning step has changed it (R166). -/
def Flow.learned (f : Flow) (l k : Nat) : Nat :=
  match SMap.find 0 f.tfl (4 * l + k) with
  | 0 => linkTf f.links l k
  | n + 1 => n

/-- The turning fraction in force (R166). -/
def Flow.tf (f : Flow) (l k : Nat) : Nat := if linkLearn f.links l then f.learned l k else linkTf f.links l k

/-- An accepted shadow keeps what link l has learned: LEARN stays set, and no exit or configured fraction changes (R156). -/
def keepsLearned (old sh : SMap Word) (l : Nat) : Bool :=
  linkLearn old l && linkLearn sh l &&
    (List.range 4).all (fun k => decide (linkExit old l k = linkExit sh l k ∧ linkTf old l k = linkTf sh l k))

/-- Apply an accepted shadow (R156). -/
def Flow.accept (f : Flow) (bnd : SMap Word) : Flow :=
  let old := f.links
  let sh := f.shadow
  let touched := (validLinks sh ++ validLinks old).eraseDups
  let g := { f with links := sh, bnd := bnd }
  let g1 := (touched.filter (fun l => decide (linkValid old l ≠ linkValid sh l ∨ linkNcell old l ≠ linkNcell sh l ∨
    linkLen old l ≠ linkLen sh l))).foldl Flow.clearLink g
  { g1 with
    tfl := g1.tfl.filter (fun e => keepsLearned old sh (e.1 / 4))
    cnt := g1.cnt.filter (fun e => keepsLearned old sh (e.1 / 4)) }

/-! ### Placements (R156, R159) -/

/-- Take the placements from the committed lantern table: commissioned records with a LINK. -/
def placements (m : SMap Byte) (lanterns : Nat) : List (Nat × Nat × Nat × Bool) :=
  (List.range lanterns).filterMap (fun lid =>
    if recComm m lid ∧ recNat m lid 0x18 2 ≠ 0xFFFF then
      let st := recNat m lid 0x4E 2
      some (lid, recNat m lid 0x18 2, recNat m lid 0x1A 1, st.testBit 0 && !st.testBit 4)
    else none)

/-- The placement of a lantern on a valid link and cell. -/
def Flow.place (f : Flow) (lid : Nat) : Option (Nat × Nat) :=
  match f.placed.find? (fun p => decide (p.1 = lid)) with
  | some (_, l, c, _) => if linkValid f.links l ∧ c < linkNcell f.links l then some (l, c) else none
  | none => none

/-- A cell is covered (R159). -/
def Flow.covered (f : Flow) (l c : Nat) : Bool :=
  f.placed.any (fun p => decide (p.2.1 = l) && decide (p.2.2.1 = c) && p.2.2.2)

/-! ### Tuning (R174) -/

/-- FLOW_TUNE[k]. -/
def State.tune (s : State) (k : Nat) : Nat := s.fld R.FLOW_TUNE_VALUE k

/-- Capacity of a cell of link l (R158). -/
def cellCap (m : SMap Word) (jam l : Nat) : Nat := (linkLanes m l * linkLen m l * 65536) / jam

/-- The share of RHO that leaves per frame (R163). -/
def outShare (vel len : Nat) : Nat := if len = 0 then 65536 else min 65536 ((vel * 256) / (5 * len))

/-! ### Propagation (R163, R164) -/

/-- Where a portion of mass goes: a cell, a boundary entry, or out of the graph. -/
inductive FlowDest where
  | cell (l c : Nat)
  | bnd (b : Nat)
  | sink
  deriving DecidableEq, Repr

/-- One portion of mass: sender link and cell, destination, mass, and the sender's VEL and CONF. -/
structure FlowSend where
  l : Nat
  c : Nat
  dest : FlowDest
  m : Nat
  vel : Nat
  conf : Nat
  deriving DecidableEq, Repr

/-- The portions a cell wants to send. -/
def Flow.wants (f : Flow) (l c : Nat) : List FlowSend :=
  let x := f.cell l c
  let want := (x.rho * outShare x.vel (linkLen f.links l)) / 65536
  if c + 1 < linkNcell f.links l then [⟨l, c, .cell l (c + 1), want, x.vel, x.conf⟩]
  else
    let used := usedExits f.links l
    if used.isEmpty then [⟨l, c, .sink, want, x.vel, x.conf⟩]
    else used.map (fun k =>
      let e := linkExit f.links l k
      let m := (want * f.tf l k) / 65536
      ⟨l, c, (if e < 4096 then .cell e 0 else .bnd (e - 0x8000)), m, x.vel, x.conf⟩)

/-- Every cell of every valid link. -/
def Flow.allCells (f : Flow) : List (Nat × Nat) :=
  (validLinks f.links).flatMap (fun l => (List.range (linkNcell f.links l)).map (fun c => (l, c)))

/-- The portions after the room of each receiving cell has been shared (R163). -/
def Flow.limitSends (f : Flow) (jam : Nat) (ss : List FlowSend) : List FlowSend :=
  ss.map (fun x =>
    match x.dest with
    | .cell l c =>
      let room := cellCap f.links jam l - (f.cell l c).rho
      let total := ((ss.filter (fun y => decide (y.dest = x.dest))).map (fun y => y.m)).sum
      if room < total then { x with m := (x.m * room) / total } else x
    | _ => x)

/-- The state of a cell after propagation and blending, from the state at the start of the step (R163, R164). -/
def Flow.afterSends (f : Flow) (ss : List FlowSend) (l c : Nat) : FlowCell :=
  let x := f.cell l c
  let keep := x.rho - ((ss.filter (fun y => decide (y.l = l ∧ y.c = c))).map (fun y => y.m)).sum
  let arr := ss.filter (fun y => decide (y.dest = .cell l c ∧ y.m ≠ 0))
  let m := (arr.map (fun y => y.m)).sum
  if arr.isEmpty ∨ keep + m = 0 then { x with rho := keep + m }
  else
    { x with
      rho := keep + m
      vel := (x.vel * keep + (arr.map (fun y => y.vel * y.m)).sum) / (keep + m)
      conf := (x.conf * keep + (arr.map (fun y => y.conf * y.m)).sum) / (keep + m) }

/-- Step 3 of R169. -/
def Flow.propagate (f : Flow) (jam : Nat) : Flow :=
  let ss := f.limitSends jam (f.allCells.flatMap (fun p => f.wants p.1 p.2))
  let g := f.allCells.foldl (fun g p => g.setCell p.1 p.2 (f.afterSends ss p.1 p.2)) f
  ss.foldl (fun g x =>
    match x.dest with
    | .bnd b => { g with outSum := natSet g.outSum b ((SMap.find 0 g.outSum b + x.m) % 2 ^ 32) }
    | _ => g) g

/-- Step 4: the source term in covered cells (R164). -/
def Flow.source (f : Flow) (jam : Nat) : Flow :=
  f.allCells.foldl (fun g p =>
    if g.covered p.1 p.2 then
      let x := g.cell p.1 p.2
      g.setCell p.1 p.2 { x with rho := (clampI (x.rho + x.s) 0 (cellCap f.links jam p.1)).toNat }
    else g) f

/-! ### Boundary inflow (R172) -/

/-- The tenth of an inflow due in the next update. -/
def FlowIn.tenth (i : FlowIn) : Nat :=
  if 10 ≤ i.given then 0 else if i.given = 9 then i.total - 9 * (i.total / 10) else i.total / 10

/-- What of the outflow has not been given yet. -/
def FlowIn.rest (i : FlowIn) : Nat :=
  if 10 ≤ i.given then 0 else i.total - i.given * (i.total / 10)

def Flow.inEntry (f : Flow) (b : Nat) : FlowIn := SMap.find {} f.inflow b

/-- Step 2 of R169 for boundary entry b: its tenth and what was kept go into the head cell as far as there is room. -/
def Flow.giveInflow (jam : Nat) (f : Flow) (b : Nat) : Flow :=
  let w := SMap.find 0 f.bnd b
  let i := f.inEntry b
  if bndValid w ∧ bndIn w ∧ linkValid f.links (bndLink w) then
    let l := bndLink w
    let x := f.cell l 0
    let offer := i.tenth + i.kept
    let taken := min offer (cellCap f.links jam l - x.rho)
    { f.setCell l 0 { x with rho := x.rho + taken } with
      inflow := SMap.set {} f.inflow b { i with given := min 10 (i.given + 1), kept := offer - taken } }
  else f

/-- The IN entry that an element matches. -/
def Flow.matchElem (f : Flow) (peer : Nat) (e : FlowElem) : Option Nat :=
  (List.range 64).find? (fun b =>
    let w := SMap.find 0 f.bnd b
    bndValid w && bndIn w && decide (bndPeer w = peer) && decide (bndLink w = e.recvLink) && decide (bndPeerLink w = e.sendLink))

/-- Take one element of a message in the update of frame `frame` (R172): ghost cells replaced, each of the element's LEN and of the
age from the edge after the message's frame to the edge after this one (R173); the remainder of the previous inflow offered at once,
the new outflow set to be spread. -/
def Flow.takeElem (frame : Nat) (f : Flow) (msg : FlowMsg) (e : FlowElem) : Flow :=
  match f.matchElem msg.peer e with
  | some b =>
    let i := f.inEntry b
    { f with inflow := SMap.set {} f.inflow b { i with
      total := e.outflow
      given := 0
      kept := i.kept + i.rest
      ghosts := e.cells
      len := e.len
      ageMs := 20 * (frame - msg.frame) } }
  | none => f

/-! ### Fusion (R160 to R162) -/

/-- A detection or half of one, with its target link, cell and weight; none when the lantern is unplaced or the direction
cannot be. -/
structure FlowHalf where
  det : FlowDet
  target : Option (Nat × Nat × Nat)
  unplaced : Bool
  deriving DecidableEq, Repr

/-- Sorted by arrival time-stamp, then LID (R160): insertion. -/
def insertDet (d : FlowDet) : List FlowDet → List FlowDet
  | [] => [d]
  | x :: xs => if d.arrNs < x.arrNs ∨ (d.arrNs = x.arrNs ∧ d.lid < x.lid) then d :: x :: xs else x :: insertDet d xs

def sortDets (ds : List FlowDet) : List FlowDet := ds.foldl (fun acc d => insertDet d acc) []

/-- The halves of a report (R160, R161 steps 1 and 2). -/
def Flow.halves (f : Flow) (d : FlowDet) : List FlowHalf :=
  match f.place d.lid with
  | none => [⟨d, none, true⟩]
  | some (l, c) =>
    let r := linkReverse f.links l
    let back := linkNcell f.links l - 1 - c
    if d.dir = 0 then
      (if r = 0xFFFF then [⟨d, some (l, c, 65536), false⟩]
       else [⟨d, some (l, c, 32768), false⟩, ⟨d, some (r, back, 32768), false⟩])
    else if d.dir = 1 then [⟨d, some (l, c, 65536), false⟩]
    else if d.dir = 2 ∧ r ≠ 0xFFFF then [⟨d, some (r, back, 65536), false⟩]
    else [⟨d, none, false⟩]

/-- Counts kept while detections are fused. -/
structure FuseAcc where
  f : Flow
  n : Nat
  fused : Nat
  overflow : Nat
  unplaced : Nat
  age : Nat
  direction : Nat
  cls : Nat
  hit : List (Nat × Nat)
  deriving DecidableEq, Repr

/-- The cell a detection advances to (R161 step 5), in half units of 0.1 m. -/
def advanceCell (len cell speed age ncell : Nat) : Nat :=
  min (((2 * cell + 1) * len + 2 * ((speed * age) / 25600)) / (2 * len)) (ncell - 1)

/-- Count a detection for the learning links that have the target link as an exit (R166). -/
def Flow.countTf (f : Flow) (l : Nat) : Flow :=
  ((validLinks f.links).filter (linkLearn f.links)).foldl (fun g x =>
    (usedExits g.links x).foldl (fun h k =>
      if linkExit h.links x k = l then { h with cnt := natSet h.cnt (4 * x + k) (SMap.find 0 h.cnt (4 * x + k) + 1) } else h) g) f

/-- One detection through the table of R160 and the fusion of R162. DW, a field of 32 bits, saturates (DESIGN CHOICE, log entry 171). -/
def fuseOne (tune : Nat → Nat) (frame nextEdgeNs : Nat) (a : FuseAcc) (h : FlowHalf) : FuseAcc :=
  let a := { a with n := a.n + 1 }
  let d := h.det
  let age := (nextEdgeNs - d.detNs) / 1000000
  if 8192 < a.n then { a with overflow := a.overflow + 1 }
  else if h.unplaced then { a with unplaced := a.unplaced + 1 }
  else if tune 10 < age then { a with age := a.age + 1 }
  else
    match h.target with
    | none => { a with direction := a.direction + 1 }
    | some (l, c, w) =>
      if !(linkClasses a.f.links l).testBit d.cls then { a with cls := a.cls + 1 }
      else
        let sp := if d.speed ≠ 0 then d.speed
          else if d.cls = 0 then tune 15 % 2 ^ 16
          else if d.cls = 1 then tune 15 / 2 ^ 16
          else (a.f.cell l c).vel
        let t := advanceCell (linkLen a.f.links l) c sp age (linkNcell a.f.links l)
        let x := a.f.cell l t
        let vel := if d.speed ≠ 0 then ((x.vel : Int) + sarI ((tune 3 : Int) * ((d.speed : Int) - x.vel)) 16).toNat else x.vel
        let g := a.f.setCell l t
          { x with dw := min (x.dw + w) (2 ^ 32 - 1), vel := vel, last := frame % 2 ^ 32, conf := 65535 }
        { a with f := (if t < 4 then g.countTf l else g), fused := a.fused + 1, hit := (l, t) :: a.hit }

/-- Dwell decay (R162). -/
def Flow.decay (f : Flow) : Flow :=
  f.allCells.foldl (fun g p =>
    let x := g.cell p.1 p.2
    g.setCell p.1 p.2 { x with dw := x.dw - (x.dw * outShare x.vel (linkLen f.links p.1)) / 65536 }) f

/-- Correction of RHO and S (R162). -/
def Flow.correct (f : Flow) (tune : Nat → Nat) : Flow :=
  f.allCells.foldl (fun g p =>
    let x := g.cell p.1 p.2
    let cov := g.covered p.1 p.2
    let r0 : Int := (x.dw : Int) - x.rho
    let r := if !cov ∧ r0 < 0 then 0 else r0
    let rho := (clampI ((x.rho : Int) + sarI ((tune 0 : Int) * r) 16) 0 (cellCap f.links (tune 8) p.1)).toNat
    let s := if cov then clampI (x.s + sarI ((tune 1 : Int) * r) 16) (-(tune 2 : Int)) (tune 2) else x.s
    g.setCell p.1 p.2 { x with rho := rho, s := s }) f

/-- Relaxation, confidence decay and drain (R165). -/
def Flow.relax (f : Flow) (tune : Nat → Nat) (hit : List (Nat × Nat)) : Flow :=
  f.allCells.foldl (fun g p =>
    if hit.contains p then g
    else
      let x := g.cell p.1 p.2
      let vel := ((x.vel : Int) + sarI ((tune 4 : Int) * ((linkVfree f.links p.1 : Int) - x.vel)) 16).toNat
      let conf := (x.conf * tune 5) / 65536
      let rho := if !g.covered p.1 p.2 ∧ conf < tune 6 then x.rho - x.rho / 2 ^ tune 7 else x.rho
      g.setCell p.1 p.2 { x with vel := vel, conf := conf, rho := rho }) f

/-! ### Turning fractions (R166) -/

/-- One learning step of link l. -/
def Flow.learnLink (tune : Nat → Nat) (f : Flow) (l : Nat) : Flow :=
  let used := usedExits f.links l
  let tot := (used.map (fun k => SMap.find 0 f.cnt (4 * l + k))).sum
  if tot < tune 14 ∨ tot = 0 then f
  else
    let newTf (k : Nat) : Nat :=
      let old : Int := ((f.learned l k : Nat) : Int)
      let share : Int := (((SMap.find 0 f.cnt (4 * l + k) * 65536) / tot : Nat) : Int)
      (old + sarI ((tune 12 : Int) * (share - old)) 16).toNat
    let last := used.getLastD 0
    let others := used.filter (fun k => decide (k ≠ last))
    let g := others.foldl (fun g k => { g with tfl := natSet g.tfl (4 * l + k) (newTf k + 1) }) f
    let g1 := { g with tfl := natSet g.tfl (4 * l + last) (65536 - (others.map newTf).sum + 1) }
    (List.range 4).foldl (fun g k => { g with cnt := natSet g.cnt (4 * l + k) 0 }) g1

/-- Step 8 of R169, in due frames. -/
def Flow.learn (f : Flow) (tune : Nat → Nat) (frame : Nat) : Flow :=
  if tune 13 ≠ 0 ∧ frame % tune 13 = tune 13 - 1 then
    ((validLinks f.links).filter (linkLearn f.links)).foldl (Flow.learnLink tune) f
  else f

/-! ### Traces (R167) -/

/-- A deposit: cell key 64·l + c, horizon 1 to 3, weight. -/
abbrev Deposit := Nat × Nat × Nat

/-- Walk a trace from `x2` half units of 0.1 m before the end of cell `c` of link `l` at `t` ms. `marks` are the marks not
yet laid (horizon, time), `j` the junctions crossed. -/
def Flow.walk (f : Flow) (vstop prune : Nat) : Nat → Nat → Nat → Nat → Nat → Nat → List (Nat × Nat) → Nat → List Deposit
  | 0, _, _, _, _, _, _, _ => []
  | n + 1, l, c, x2, t, w, marks, j =>
    let v := (f.cell l c).vel
    if v < vstop ∨ v = 0 then marks.map (fun m => (64 * l + c, m.1, w))
    else
      let t1 := t + (x2 * 12800) / v
      let here := (marks.filter (fun m => decide (m.2 < t1))).map (fun m => (64 * l + c, m.1, w))
      let rest := marks.filter (fun m => decide (t1 ≤ m.2))
      if rest.isEmpty then here
      else if c + 1 < linkNcell f.links l then
        here ++ Flow.walk f vstop prune n l (c + 1) (2 * linkLen f.links l) t1 w rest j
      else if 2 ≤ j then here
      else
        here ++ (usedExits f.links l).flatMap (fun k =>
          let e := linkExit f.links l k
          let w1 := (w * f.tf l k) / 65536
          if 4096 ≤ e ∨ w1 < prune then []
          else Flow.walk f vstop prune n e 0 (2 * linkLen f.links e) t1 w1 rest (j + 1))

/-- The marks of R167, each increased by `age`. -/
def traceMarks (age : Nat) : List (Nat × Nat) := [(1, 5000 + age), (2, 10000 + age), (3, 20000 + age)]

/-- The time to pass the ghost cells between a ghost's centre and the head of LINK, if no ghost on the way is below V_STOP:
the ghost's own half cell, then the whole cells behind it towards the boundary. -/
def ghostTime (vstop len : Nat) (vel : Nat) (rest : List (Nat × Nat × Nat)) : Option Nat :=
  rest.foldl (fun acc g =>
    match acc with
    | none => none
    | some t => if g.2.1 < vstop ∨ g.2.1 = 0 then none else some (t + (2 * len * 12800) / g.2.1))
    (if vel < vstop ∨ vel = 0 then none else some ((len * 12800) / vel))

/-- The deposits of the ghost cells of an entry, each `len` long (R167, R172, R173). -/
def Flow.ghostTraces (f : Flow) (vstop prune len age l : Nat) : List (Nat × Nat × Nat) → List (Nat × Deposit)
  | [] => []
  | g :: rest =>
    (match ghostTime vstop len g.2.1 rest with
     | none => []
     | some t =>
       let live := (traceMarks age).filter (fun m => decide (t ≤ m.2))
       (f.walk vstop prune 200 l 0 (2 * linkLen f.links l) t 65536 live 0).map (fun d => (g.1, d))) ++
    Flow.ghostTraces f vstop prune len age l rest

/-- A_h by key 256·cell-key + h, from every cell with RHO ≥ 64 and every live ghost (R167). -/
def Flow.traces (f : Flow) (tune : Nat → Nat) : SMap Nat :=
  let own := f.allCells.flatMap (fun p =>
    let x := f.cell p.1 p.2
    if x.rho < 64 then []
    else (f.walk (tune 9) (tune 11) 200 p.1 p.2 (linkLen f.links p.1) 0 65536 (traceMarks 0) 0).map (fun d => (x.rho, d)))
  let ghosts := (List.range 64).flatMap (fun b =>
    let w := SMap.find 0 f.bnd b
    let i := f.inEntry b
    if bndValid w && bndIn w && !f.lost.getLsbD (bndPeer w) && linkValid f.links (bndLink w) then
      f.ghostTraces (tune 9) (tune 11) i.len i.ageMs (bndLink w) i.ghosts
    else [])
  (own ++ ghosts).foldl (fun m e =>
    let k := 256 * e.2.1 + e.2.2.1
    natSet m k (SMap.find 0 m k + (e.1 * e.2.2.2) / 65536)) []

/-- Presence of the placed lanterns into the back buffer (R168). -/
def Flow.presence (f : Flow) (a : SMap Nat) : SMap Nat :=
  f.placed.foldl (fun m p =>
    match f.place p.1 with
    | none => m
    | some (l, c) =>
      let at0 := min 65535 (f.cell l c).rho
      let ah (h : Nat) := min 65535 (SMap.find 0 a (256 * (64 * l + c) + h))
      natSet (natSet (natSet (natSet m (4 * p.1) at0) (4 * p.1 + 1) (ah 1)) (4 * p.1 + 2) (ah 2)) (4 * p.1 + 3) (ah 3)) []

/-! ### The update (R169) -/

namespace State

/-- HOST_PEER_CFG[p].EN (19 R433). -/
def peerEn (s : State) (p : Nat) : Bool := s.bit R.HOST_PEER_CFG_EN p

/-- Peer p is lost (R173). -/
def peerLost (s : State) (p : Nat) : Bool := s.flow.lost.getLsbD p

def setFlow (s : State) (f : Flow) : State := { s with flow := f }

/-- FLOW_BND_STAT.LOST of every entry: a valid one of a lost peer (R173). -/
def showLost (s : State) : State :=
  (List.range 64).foldl (fun t b =>
    let w := SMap.find 0 t.flow.bnd b
    t.setBit R.FLOW_BND_STAT_LOST (bndValid w && t.peerLost (bndPeer w)) b) s

/-- Step 1: check and apply the shadow (R155, R156). -/
def flowApply (s : State) : State :=
  if s.bit R.FLOW_STAT_PENDING then
    let bnd (b : Nat) : Word := s.rd (R.FLOW_BND_CFG_VALID.at b 0)
    let s1 := s.setBit R.FLOW_STAT_PENDING false
    match shadowCheck s.flow.shadow bnd s.peerEn with
    | some (st, reason, idx) =>
      ((s1.setFld R.FLOW_CFG_RES_STATUS st.code).setFld R.FLOW_CFG_RES_REASON reason).setFld R.FLOW_CFG_RES_INDEX idx
    | none =>
      let tbl := (List.range 64).foldl (fun m b => SMap.set 0 m b (bnd b)) ([] : SMap Word)
      let f := s.flow.accept tbl
      (((s1.setFlow f).showLost.setFld R.FLOW_CFG_RES_STATUS 0).setFld R.FLOW_CFG_RES_REASON 0).setFld R.FLOW_CFG_RES_INDEX 0
  else s

/-- The entries whose MISMATCH an element of peer p without a match sets: the peer's valid IN entries; where it has none, its valid
entries; where it has none, entry 0. DESIGN CHOICE (log entry 140): R172 says that MISMATCH sets and not of which entry. -/
def mismatchOf (f : Flow) (p : Nat) : List Nat :=
  let own (b : Nat) : Bool := bndValid (SMap.find 0 f.bnd b) && decide (bndPeer (SMap.find 0 f.bnd b) = p)
  let ins := (List.range 64).filter (fun b => own b && bndIn (SMap.find 0 f.bnd b))
  if !ins.isEmpty then ins
  else if !((List.range 64).filter own).isEmpty then (List.range 64).filter own
  else [0]

/-- One element: taken by its entry, or dropped with MISMATCH. -/
def flowElem (m : FlowMsg) (s : State) (e : FlowElem) : State :=
  match s.flow.matchElem m.peer e with
  | some b => (s.setFlow (s.flow.takeElem s.fr.number m e)).setFld R.FLOW_BND_FLOW_FLOW e.outflow b
  | none => (mismatchOf s.flow m.peer).foldl (fun t b => t.setBit R.FLOW_BND_STAT_MISMATCH true b) s

/-- Take the messages of the snapshot (R172). -/
def flowMessages (s : State) : State :=
  let s1 := s.flow.snapMsgs.foldl (fun t m => m.elems.foldl (flowElem m) t) s
  { s1 with flow := { s1.flow with snapMsgs := [] } }

/-- The peers with a valid OUT entry. -/
def outPeers (f : Flow) : List Nat :=
  (List.range 8).filter (fun p => (List.range 64).any (fun b =>
    let w := SMap.find 0 f.bnd b
    bndValid w && !bndIn w && decide (bndPeer w = p)))

/-- The last min(8, cell count) cells of a link, from upstream to the boundary. -/
def lastCells (f : Flow) (l : Nat) : List (Nat × Nat × Nat) :=
  let n := linkNcell f.links l
  (List.range (min 8 n)).map (fun i =>
    let x := f.cell l (n - min 8 n + i)
    (x.rho, x.vel, x.conf))

/-- The elements for a peer: one per OUT entry in ascending order (R171). -/
def xchgElems (f : Flow) (p : Nat) : List FlowElem :=
  (List.range 64).filterMap (fun b =>
    let w := SMap.find 0 f.bnd b
    if bndValid w && !bndIn w && decide (bndPeer w = p) then
      some ⟨bndLink w, bndPeerLink w, SMap.find 0 f.outSum b, linkLen f.links (bndLink w), lastCells f (bndLink w)⟩
    else none)

def hostPeer (s : State) (p : Nat) : HostPeer := SMap.find {} s.host.peers p

def setHostPeer (s : State) (p : Nat) (x : HostPeer) : State :=
  { s with host := { s.host with peers := SMap.set {} s.host.peers p x } }

/-- A datagram of a peer has arrived. -/
def peerHeard (s : State) (p : Nat) : State := s.setHostPeer p { s.hostPeer p with heardNs := s.nowNs }

/-- One message to a peer, with FLOW_BND_FLOW of its OUT entries; dropped and counted while the link is not UP (19 R433). -/
def xchgTo (s : State) (p : Nat) : State :=
  if s.fld R.HOST_PEER_STAT_STATE p = 2 then
    (List.range 64).foldl (fun t b =>
      let w := SMap.find 0 t.flow.bnd b
      if bndValid w && !bndIn w && decide (bndPeer w = p) then t.setFld R.FLOW_BND_FLOW_FLOW (SMap.find 0 t.flow.outSum b) b else t)
      (s.emit (.flowXchg p s.fr.number (xchgElems s.flow p)))
  else s.addSat R.HOST_PEER_STAT_DROPPED 1 p

/-- Step 11: the boundary messages, in frames with n mod 10 = 0 (R171). -/
def flowSend (s : State) : State :=
  if s.fr.number % 10 = 0 then
    let s1 := (outPeers s.flow).foldl xchgTo s
    { s1 with flow := { s1.flow with outSum := [] } }
  else s

/-- Steps 5 to 10 of R169 on the snapshot's detections. -/
def flowFuse (s : State) : State :=
  let tune := s.tune
  let f0 := s.flow.decay
  let ds := (sortDets s.flow.snapDets).flatMap f0.halves
  let acc : FuseAcc :=
    { f := f0, n := 0, fused := 0, overflow := 0, unplaced := 0, age := 0, direction := 0, cls := 0, hit := [] }
  let a := ds.foldl (fuseOne tune s.fr.number (s.fr.edgeNs + frameNs)) acc
  let f1 := ((a.f.correct tune).relax tune a.hit).learn tune s.fr.number
  let f2 := { f1 with snapDets := [], back := f1.presence (f1.traces tune) }
  let s1 := s.setFlow f2
  (((((s1.addSat R.FLOW_DROP_OVERFLOW a.overflow).addSat R.FLOW_DROP_UNPLACED a.unplaced).addSat R.FLOW_DROP_AGE a.age).addSat
    R.FLOW_DROP_DIRECTION a.direction).addSat R.FLOW_DROP_CLASS a.cls).addSat R.FLOW_FUSED_COUNT a.fused

/-- A whole update (R169). -/
def flowUpdate (s : State) : State :=
  let s1 := s.flowApply
  let s2 := if s1.flow.clearReq then { s1 with flow := { s1.flow.clearAll with clearReq := false } } else s1
  let s3 := s2.flowMessages
  let f := (List.range 64).foldl (Flow.giveInflow (s3.tune 8)) s3.flow
  let s4 := s3.setFlow ((f.propagate (s3.tune 8)).source (s3.tune 8))
  let s5 := s4.flowFuse
  let s6 := s5.flowSend
  { s6 with flow := { s6.flow with busy := true, missed := false, ready := false } }

/-- SNAP's part for the reckoner (R15, R168 to R170): placements are taken, inputs enter the snapshot, presence is published, or
LATE sets. The inputs of an earlier snapshot stay where an update that missed the edge has kept the next one from starting (log entry 169).
`beforeNs` is the edge. -/
def flowSnap (s : State) (beforeNs : Nat) : State :=
  let f := s.flow
  let keep := (f.busy || f.missed) && s.bit R.FLOW_CTRL_RUN
  let f1 := { f with
    placed := placements s.fmem s.part.lanterns
    snapDets := (if keep then f.snapDets else []) ++ f.dets.filter (fun d => decide (d.arrNs < beforeNs))
    dets := f.dets.filter (fun d => decide (beforeNs ≤ d.arrNs))
    snapMsgs := (if keep then f.snapMsgs else []) ++ f.msgs.filter (fun d => decide (d.arrNs < beforeNs))
    msgs := f.msgs.filter (fun d => decide (beforeNs ≤ d.arrNs)) }
  let s1 := s.setFlow f1
  if f.busy then (s1.setBit R.FLOW_STAT_LATE true)
  else if f.ready then
    let base := 0x280000
    let clear (m : SMap Byte) : SMap Byte := SMap.clear m base (base + 8 * 16384 - 1)
    let put (m : SMap Byte) : SMap Byte := f.back.foldl (fun m e => memPut fDflt m (base + 2 * e.1) 2 e.2) m
    { s1 with fmem := put (clear s1.fmem), ftwin := put (clear s1.ftwin), flow := { f1 with ready := false } }
  else s1

/-- The frames since each peer was heard (R176). A peer not heard since the reckoner started counts from its first SNAP. -/
def flowAges (s : State) : State :=
  let h := (List.range 8).foldl (fun m p => if SMap.find 0 m p = 0 then natSet m p (s.fr.mono + 1) else m) s.flow.heard
  (List.range 64).foldl (fun t b =>
    let w := SMap.find 0 t.flow.bnd b
    if bndValid w then t.setFld R.FLOW_BND_STAT_AGE (min 255 (t.fr.mono + 1 - SMap.find 0 h (bndPeer w))) b
    else t) (s.setFlow { s.flow with heard := h })

end State

/-! ### Commands -/

/-- FLOW_UPDATE_COMPLETE (R170): the update took `us` µs; its presence is ready for the next SNAP. -/
def execFlowUpdateComplete (us : Nat) (s : State) : Out :=
  .next (if s.flow.busy then
      let d := min us 65535
      let s1 := s.setFld R.FLOW_TIME_LAST d
      let s2 := s1.setFld R.FLOW_TIME_MAX (max d (s1.fld R.FLOW_TIME_MAX))
      { s2 with flow := { s2.flow with busy := false, ready := true } }
    else s)

/-- FLOW_APPLY (R155): APPLY written; the shadow is checked at the next update. -/
def execFlowApply (s : State) : Out :=
  .next (if s.ready 9 then s.setBit R.FLOW_STAT_PENDING true else s)

/-- FLOW_CLEAR (R170): CLEAR written; every cell is cleared at the next update. -/
def execFlowClear (s : State) : Out :=
  .next (if s.ready 9 then { s with flow := { s.flow with clearReq := true } } else s)

/-- FLOW_RUN_WRITE (R170). -/
def execFlowRunWrite (run : Bool) (s : State) : Out :=
  .next (if s.ready 9 then s.setBit R.FLOW_CTRL_RUN run else s)

/-- A message of format 1 from peer p enters the next snapshot; LOST ends, and AGE with it. -/
def State.peerMessage (s : State) (p frame : Nat) (elems : List FlowElem) : State :=
  let msg : FlowMsg := ⟨s.nowNs, p, frame, elems⟩
  let s1 : State := { s with flow := { s.flow with
    msgs := s.flow.msgs ++ [msg], heard := natSet s.flow.heard p (s.fr.mono + 1), lost := s.flow.lost &&& ~~~bit8 p } }
  (List.range 64).foldl (fun t b =>
    if bndPeer (SMap.find 0 t.flow.bnd b) = p then (t.setBit R.FLOW_BND_STAT_LOST false b).setFld R.FLOW_BND_STAT_AGE 0 b else t)
    ((s1.peerHeard p).assertSrc (130 + p))

/-- A message of another format: dropped and counted, with one record per peer and frame (R172, log entry 140). -/
def State.badMessage (s : State) (p format : Nat) : State :=
  let n := SMap.find 0 s.flow.badFormat p + 1
  let s1 := s.setFlow { s.flow with
    badFormat := natSet s.flow.badFormat p n, badFrame := natSet s.flow.badFrame p (s.fr.mono + 1) }
  let s2 := (s1.peerHeard p).assertSrc (130 + p)
  if SMap.find 0 s.flow.badFrame p = s.fr.mono + 1 then s2 else s2.report 0 0x04 .flowFormat [p, s.fr.number] [format, n]

/-- FLOW_XCHG_RECEIVE (R172, 19 R433): a message of a configured peer, at `us` µs into the frame. A format other than 1 is
dropped, counted and recorded; a valid one enters the next snapshot and ends LOST. -/
def execFlowXchgReceive (peer : Fin 8) (us : Fin 20000) (format frame : Nat) (elems : List FlowElem) (s : State) : Out :=
  let t := s.atUs us
  .next (if !t.peerEn peer ∨ t.fld R.HOST_PEER_STAT_STATE peer ≠ 2 then t
    else if format ≠ 1 then t.badMessage peer format
    else t.peerMessage peer frame elems)

/-- Boundary entry b is a valid entry of peer p. -/
def State.ofPeer (s : State) (p b : Nat) : Bool :=
  let w := SMap.find 0 s.flow.bnd b
  bndValid w && decide (bndPeer w = p)

/-- An entry loses its peer: nothing flows in, and the ghost cells go. -/
def State.bndLost (s : State) (b : Nat) : State :=
  let s1 := s.setBit R.FLOW_BND_STAT_LOST true b
  { s1 with flow := { s1.flow with inflow := SMap.set {} s1.flow.inflow b {} } }

/-- The peer is lost. -/
def State.losePeer (s : State) (p : Nat) : State :=
  let s0 := s.setFlow { s.flow with lost := s.flow.lost ||| bit8 p }
  let s1 := (List.range 64).foldl (fun t b => if t.ofPeer p b then t.bndLost b else t) s0
  (s1.setFld R.FLOW_EVT_LOST (s1.fld R.FLOW_EVT_LOST ||| 2 ^ p)).report 0 0x04 .peerLost [p] [s.fr.number]

/-- PEER_LOST (R173): no valid message from the peer for 30 frames. -/
def execPeerLost (peer : Fin 8) (s : State) : Out :=
  .next (if s.fr.mono + 1 < SMap.find 0 s.flow.heard peer + 30 ∨ s.peerLost peer then s else s.losePeer peer)

end Sys2Proof.Machine
end

