-- ==== Sys2Proof/Machine/Keys.lean ====
section
/-! DEFINITION. The key store (17_keys_and_attestation.md): recovery, derivation, loads and replacement, revocation, the operation queue, and
what a token says. -/

namespace Sys2Proof.Machine

namespace State

/-! ### Operations -/

/-- Show a slot with a state. -/
def showKey (s : State) (k st : Nat) : State :=
  match (s.keySlot k).winner with
  | some (h, x) =>
    let s1 := ((s.setFld R.KEY_SLOT_CFG_TYPE x.typ k).setFld R.KEY_SLOT_CFG_USAGE x.usage k).setFld R.KEY_SLOT_CFG_PARENT x.parent k
    let s2 := ((s1.setBit R.KEY_SLOT_CFG_DERIVED x.derived k).setFld R.KEY_SLOT_STAT_STATE st k).setFld R.KEY_SLOT_STAT_HALF h k
    (s2.setFld R.KEY_SLOT_STAT_GEN x.gen k).setFld R.KEY_SLOT_SEQ_SEQ x.seq k
  | none => s.setFld R.KEY_SLOT_STAT_STATE st k

/-- Change the active half in place. -/
def updHalf (s : State) (k : Nat) (f : KeyHalf → KeyHalf) : State :=
  let x := s.keySlot k
  match x.winner with
  | some (h, y) => s.setKeySlot k (if h = 0 then { x with a := some (f y) } else { x with b := some (f y) })
  | none => s

/-! ### Derivation (R394, R395, R399) -/

/-- Derive slot k from its parent's material, when both stand. -/
def deriveSlot (s : State) (k : Nat) : State :=
  match s.keyActive k with
  | some x =>
    if x.derived ∧ (s.keySlot k).mat = none ∧ !(s.keySlot k).revoked then
      match s.keyMat x.parent with
      | some p => (s.setKeySlot k { s.keySlot k with mat := some (derivedKey p s.key.bmr x.label k x.gen) }).showKey k 1
      | none => s
    else s
  | none => s

/-- Derive every derived slot, parents before children: 32 rounds suffice. -/
def deriveAll (s : State) : State :=
  (List.range 32).foldl (fun t _ => (List.range 32).foldl deriveSlot t) s

/-- The derived slots whose parent chain reaches slot k (R398). -/
def children (s : State) (k : Nat) : List Nat :=
  let kid (acc : List Nat) : List Nat := (List.range 32).filter (fun j =>
    s.bit R.KEY_SLOT_CFG_DERIVED j && decide (j ≠ k) && (decide (s.fld R.KEY_SLOT_CFG_PARENT j = k) || acc.contains (s.fld R.KEY_SLOT_CFG_PARENT j)))
  (List.range 32).foldl (fun acc _ => kid acc) []

/-- The image of each measured stage after the loader, in order, from a slot's parts (R394). -/
def stagesOf (s : State) (parts : List UpdPart) : List (List Byte) :=
  let img (kind index : Nat) : List Byte := ((parts.find? (fun p => decide (p.kind = kind ∧ p.index = index))).map (fun p => p.digest)).getD (fitBytes 32 (Config.factoryDigest kind index))
  [Config.sha256 Config.loader, img 1 0, img 2 0, img 3 0] ++ (if s.part.trxs = 2 then [img 3 1] else []) ++ [img 4 0, img 5 0]

/-- The BMR that the boot ROM forms from stage digests. -/
def bmrOf (ds : List (List Byte)) : List Byte :=
  ds.foldl (fun b d => Config.sha256 (b ++ d)) (List.replicate 32 0)

/-- The parts of the active slot. -/
def activeParts (s : State) : List UpdPart := if s.fld R.UPD_SLOT_ACTIVE = 0 then s.upd.slot0 else s.upd.slot1

/-- The parts of the slot whose carried lantern images are in force: a trial set's come with its confirmation (18 R414). -/
def carriedParts (s : State) : List UpdPart :=
  if (s.fld R.UPD_SLOT_ACTIVE = 0) ≠ (s.fld R.UPD_SLOT_TRIAL = 1) then s.upd.slot0 else s.upd.slot1

/-- The boot ROM measures the stages of the active slot and locks the BMR. -/
def bootMeasure (s : State) : State :=
  let ds := s.stagesOf s.activeParts
  let b := bmrOf ds
  let s1 := { s with key := { s.key with bmr := b, meas := ds, done := false } }
  (List.range 8).foldl (fun t j => t.setFld R.KEY_BMR_BYTES (leNat ((b.drop (4 * j)).take 4)) j) (s1.setFld R.KEY_MEAS_CNT_STAGES ds.length)

/-! ### Invalidation (R398, R399) -/

def syncQueue (s : State) : State := s.setFld R.KEY_STAT_QUEUED s.key.queue.length

/-- The answer to the request that an operation served. -/
def keyAnswer (s : State) (who : Option (Nat × Nat)) (st : Status) (res : List Int) : State :=
  match who with
  | some (i, id) => if st = .auth then s.respondAuth i id else s.respond i id st res
  | none => s

/-- What a queued operation ends with, without its request's own result: the supervisor learns of its SEAL and UNSEAL too. -/
def keyFail (s : State) (j : KeyJob) (st : Status) : State :=
  let k := (j.use.map (fun u => u.1)).getD 0
  match j.work with
  | .seal _ => s.emit (.sealed k st 0)
  | .unseal _ _ => s.emit (.unsealed k st [])
  | .manifest _ => (s.updRefuse st 0).keyAnswer j.who st [0]
  | _ => s.keyAnswer j.who st []

/-- Queued operations that name one of the slots and have not started fail with REVOKED. -/
def failJobs (s : State) (ks : List Nat) : State :=
  let bad (j : KeyJob) : Bool := j.key.isNone && j.slots.any ks.contains
  let s1 := { s with key := { s.key with queue := s.key.queue.filter (fun j => !bad j) } }
  ((s.key.queue.filter bad).foldl (fun t j => t.keyFail j .revoked) s1).syncQueue

/-- A slot is invalidated: its children are erased and REVOKED; `again`: they are derived anew at the next frame edge. -/
def invalidate (s : State) (k : Nat) (again : Bool) : State :=
  let cs := s.children k
  let s1 := cs.foldl (fun t j =>
    (t.setKeySlot j { t.keySlot j with mat := none, rederive := again }).setFld R.KEY_SLOT_STAT_STATE 3 j) s
  ((s1.failJobs (k :: cs)).setBit R.KEY_EVT_REVOKED true).report 1 0x0C (if s.keyState k = 2 then .keyIntegrity else .keyInvalid) [k] [cs.length]

/-- The active half fails its integrity check (R392). -/
def keyBroken (s : State) (k : Nat) : State :=
  let s0 := s.updHalf k (fun h => { h with good := false })
  let s1 := s0.setKeySlot k { s0.keySlot k with mat := none }
  let s2 := (s1.setFld R.KEY_SLOT_STAT_STATE 2 k).setBit R.KEY_EVT_INTEGRITY true
  let s3 := s2.invalidate k false
  if k ≤ 3 then s3.fltRaise clsKey 1 [k] else s3

/-- Children of a replaced slot, erased before this edge, are derived again with GEN + 1. -/
def keyEdge (s : State) : State :=
  let ks := (List.range 32).filter (fun k => (s.keySlot k).rederive)
  let s1 := ks.foldl (fun t k =>
    let t1 := t.updHalf k (fun h => { h with gen := (h.gen + 1) % 2 ^ 24 })
    t1.setKeySlot k { t1.keySlot k with rederive := false }) s
  if ks.isEmpty then s else s1.deriveAll

/-! ### Recovery (R391) -/

/-- Show slot k after recovery; what cannot be recovered sets INTEGRITY, and raises KEY for slots 0 to 3. -/
def recoverShow (s : State) (k : Nat) : State :=
  let x := s.keySlot k
  let st := if x.revoked then 3 else match x.winner with
    | some (_, h) => if h.derived then 3 else 1
    | none => if x.used then 2 else 0
  let s1 := s.showKey k st
  if st = 2 then
    let s2 := s1.setBit R.KEY_EVT_INTEGRITY true
    if k ≤ 3 then s2.fltRaise clsKey 1 [k] else s2
  else s1

/-- Recover every slot, derive, and set the KEY bit. -/
def keyRecover (s : State) : State :=
  let s1 := (List.range 32).foldl (fun t k => t.setKeySlot k (t.keySlot k).recover) s
  let s3 := ((List.range 32).foldl recoverShow s1).deriveAll
  ({ s3 with key := { s3.key with done := true, queue := [] } }.syncQueue).setReady 5

/-- After a start from OFF, CAL comes back from NAND when KEY is ready (15 R368). -/
def calRestore (s : State) : State :=
  if s.rtc.calLost then
    ({ s with rtc := { s.rtc with calLost := false } } : State).wr R.RTC_CAL_CAL.addr
      (SMap.find (s.rd R.RTC_CAL_CAL.addr) s.nand.regs R.RTC_CAL_CAL.addr)
  else s

/-! ### Loading and replacement (R388, R389, R393) -/

/-- A chain of parents from k comes back to k, or does not end. -/
def parentLoop (s : State) (k : Nat) : Nat → Nat → Bool
  | 0, _ => true
  | n + 1, p => decide (p = k) || (s.bit R.KEY_SLOT_CFG_DERIVED p && parentLoop s k n (s.fld R.KEY_SLOT_CFG_PARENT p))

/-- An operation of the queue loads slot k; `began`: and has started. -/
def loading (s : State) (k : Nat) (began : Bool) : Bool :=
  s.key.queue.any (fun j => (!began || j.key.isSome) && (match j.work with
    | .load q => decide (q.slot = k)
    | _ => false))

/-- A derived slot names slot k as its parent. -/
def hasChild (s : State) (k : Nat) : Bool :=
  (List.range 32).any (fun j => decide (j ≠ k ∧ s.keyState j ≠ 0) && s.bit R.KEY_SLOT_CFG_DERIVED j && decide (s.fld R.KEY_SLOT_CFG_PARENT j = k))

/-- What R388 and R395 say against a load. A SESSION parent derives by its USAGE field (log entry 156). -/
def loadShape (s : State) (q : KeyLoad) : Status :=
  if s.fld R.KEY_LIFECYCLE_STATE = 3 then .refusedState
  else if 32 ≤ q.slot then .range
  else if q.slot ≤ 1 then .locked
  else if q.typ = 0 ∨ 7 < q.typ ∨ q.typ = 1 ∨ (q.slot = 2 ∧ q.typ ≠ 2) ∨ q.slot = 3 then .invalid
  else if q.typ = 4 ∧ !q.derived then .invalid
  else if q.derived ∧ !((q.typ = 3 ∨ q.typ = 4) ∧ q.parent < 32 ∧
      (s.fld R.KEY_SLOT_CFG_TYPE q.parent = 3 ∨ s.fld R.KEY_SLOT_CFG_TYPE q.parent = 4) ∧
      (s.fld R.KEY_SLOT_CFG_USAGE q.parent).testBit 6 ∧ s.parentLoop q.slot 32 q.parent = false) then .invalid
  else if s.hasChild q.slot ∧ !((q.typ = 3 ∨ q.typ = 4) ∧ q.usage.testBit 6) then .invalid
  else .ok

/-- The key that a load uses (R389), as slot and usage bit; AUTH where the request names no SESSION slot to unwrap under, or is for the first
OWNER_CA and comes over no SERVICE session. An OWNER_CA after the first is signed under the one in KEY[2] (log entry 156). -/
def loadUse (s : State) (service : Bool) (q : KeyLoad) : Status × Option (Nat × Nat) :=
  if q.derived then (.ok, none)
  else if q.typ = 3 ∨ q.typ = 6 then
    match q.wrap with
    | some w => if w < 32 ∧ s.fld R.KEY_SLOT_CFG_TYPE w = 3 then (.ok, some (w, 4)) else (.auth, none)
    | none => (.auth, none)
  else if q.typ = 2 then
    if s.fld R.KEY_LIFECYCLE_STATE = 1 ∧ q.slot = 2 then (if service then .ok else .auth, none) else (.ok, some (2, 1))
  else (.ok, none)

/-- What the engine makes of a load with what the slot that it uses gives: the new material, or why it fails (R389, R393 step 3). -/
def loadKey (q : KeyLoad) (signed : Bool) (u : Status × List Byte) : Status × List Byte :=
  if u.1 ≠ .ok then (u.1, [])
  else if q.derived then (.ok, [])
  else if q.typ = 3 ∨ q.typ = 6 then
    match unwrapKey u.2 q.material (if q.typ = 3 then 32 else 16) with
    | some m => (.ok, m)
    | none => (.integrity, [])
  else if signed ∧ !Config.sigValid u.2 q.material q.ownerSig then (.auth, [])
  else if Config.sigValid q.material Config.testDigest q.proof then (.ok, q.material)
  else (.integrity, [])

/-- Step 1 of a replacement: the inactive half takes the new key, beyond the active half's SEQ and GEN. The old key stays in force. -/
def halfWrite (s : State) (k : Nat) (h : KeyHalf) : State :=
  let x := s.keySlot k
  let (seq, gen) := match x.winner with
    | some (_, o) => (o.seq + 1, o.gen + 1)
    | none => (x.topSeq + 1, x.topGen + 1)
  let s1 := s.setKeySlot k (x.put x.spare (some { h with seq := seq, gen := gen % 2 ^ 24, good := true }))
  if s1.keyState k = 1 then s1.setFld R.KEY_SLOT_STAT_STATE 4 k else s1

/-- A replacement fails before step 4: the half is erased. -/
def keyErase (s : State) (k : Nat) : State :=
  let x := s.keySlot k
  let s1 := s.setKeySlot k (x.put x.spare none)
  if s1.keyState k = 4 ∧ x.dueNs.isNone then s1.setFld R.KEY_SLOT_STAT_STATE 1 k else s1

/-- Step 4: commit copy 1 names the new half, which is in force. A slot that held a key is thereby invalidated (R398); a first key writes
its own SEC record. -/
def keyCommit (s : State) (k : Nat) : State :=
  let x := s.keySlot k
  match x.half x.spare with
  | some n =>
    let y : KeySlot := { x with
      one := some ⟨x.spare, n.seq, true⟩, mat := if n.derived then none else some n.mat, dueNs := some (s.nowNs + 50000000)
      revoked := false, rederive := false }
    let s1 := (s.setKeySlot k y).showKey k 4
    let s2 := if n.derived then (s1.setFld R.KEY_SLOT_STAT_STATE 3 k).deriveSlot k else s1
    if x.used then s2.invalidate k true else s2.report 1 0x0C .keyLoad [k] []
  | none => s

/-- Steps 1 to 4 at once, for the key store's own replacement at a confirmation (18 R414). -/
def keyReplace (s : State) (k : Nat) (h : KeyHalf) : State := (s.halfWrite k h).keyCommit k

/-- Step 5: copy 2 is written and the old half erased. -/
def keyCopy2 (s : State) (k : Nat) : State :=
  let x := s.keySlot k
  match x.dueNs, x.winner with
  | some _, some (h, y) =>
    let s1 := s.setKeySlot k { x with
      two := x.one, a := if h = 0 then some y else none, b := if h = 0 then none else some y, dueNs := none }
    if s1.keyState k = 4 then s1.setFld R.KEY_SLOT_STAT_STATE 1 k else s1
  | _, _ => s

/-- The key-store sync of ONYX: every pending copy 2, and the invocation counters (R393). -/
def keySync (s : State) : State :=
  (List.range 32).foldl (fun t k =>
    let t1 := t.keyCopy2 k
    t1.setKeySlot k { t1.keySlot k with saved := (t1.keySlot k).counter }) s

/-- KEY_STAT.BUSY counts a refusal for a full queue (R400). -/
def keyBusy (s : State) : State := s.addSat R.KEY_STAT_BUSY 1

/-! ### The operation queue (R400) -/

/-- 64 operations are queued. -/
def keyFull (s : State) : Bool := decide (64 ≤ s.key.queue.length)

/-- The half that a load writes. -/
def loadHalf (q : KeyLoad) (m : List Byte) : KeyHalf := ⟨q.typ, q.usage % 128, q.parent, q.derived, q.label, 0, 0, m, true⟩

/-- The engine starts the operation at the head of its queue: what its slot gives is taken then (R399), and a load writes its half. -/
def keyStart (s : State) : State :=
  match s.key.queue with
  | j :: js =>
    if j.key.isSome then s.syncQueue
    else
      let u := match j.use with
        | some (k, b) => s.keyUse k b
        | none => (Status.ok, [])
      let s1 := ({ s with key := { s.key with queue := { j with key := some u } :: js } }).syncQueue
      match j.work with
      | .load q =>
        match loadKey q j.use.isSome u with
        | (.ok, m) => s1.halfWrite q.slot (loadHalf q m)
        | _ => s1
      | _ => s1
  | [] => s.syncQueue

/-- An operation enters the queue. -/
def keyQueue (s : State) (j : KeyJob) : State := ({ s with key := { s.key with queue := s.key.queue ++ [j] } }).keyStart

/-- KEY_LOAD in a session: accepted, it is queued. A session by PIN alone loads the first OWNER_CA and nothing else (19 R419). -/
def keyLoad (s : State) (i id : Nat) (q : KeyLoad) : State :=
  if !s.ready 5 then s.respond i id .notReady []
  else if s.keyFull then s.keyBusy.respond i id .busy []
  else if (s.sess i).unowned ∧ ¬(q.slot = 2 ∧ q.typ = 2 ∧ s.fld R.KEY_LIFECYCLE_STATE = 1) then s.respondAuth i id
  else match s.loadShape q, s.loadUse (decide (s.sessRole i = 4)) q with
    | .ok, (.ok, use) =>
      if (s.keySlot q.slot).dueNs.isSome ∨ s.loading q.slot false then s.respond i id .busy []
      else
        let more := if q.derived then [q.parent] else (use.map (fun u => u.1)).toList
        s.keyQueue { use := use, slots := q.slot :: more, who := some (i, id), work := .load q }
    | .ok, (_, _) => s.respondAuth i id
    | st, _ => s.respond i id st []

/-- REVOKE of a slot (R388, R398): its material is erased, but for the half that a load which the engine has started is writing. -/
def keyRevoke (s : State) (k : Nat) : Status × State :=
  if k ≤ 1 then (.locked, s)
  else if s.keyState k = 0 then (.ok, s)
  else
    let x := s.keySlot k
    let keep := s.loading k true
    let s1 := (s.setKeySlot k { x with
      a := if keep ∧ x.spare = 0 then x.a else x.a.map (fun h => { h with mat := [] })
      b := if keep ∧ x.spare = 1 then x.b else x.b.map (fun h => { h with mat := [] })
      mat := none, dueNs := none, revoked := true, rederive := false }).setFld R.KEY_SLOT_STAT_STATE 3 k
    (.ok, s1.invalidate k false)

/-! ### Attestation (R401) -/

/-- The claims of a token: label and CBOR value. -/
def claims (s : State) (nonce : List Byte) : List (Int × List Byte) :=
  let num (n : Nat) : List Byte := cborInt n
  let stage (k : Nat) (d : List Byte) : List Byte := cborArray [num k, cborBytes d]
  [(10, cborBytes nonce),
   (256, cborBytes (2 :: leBytes 8 Config.serial)),
   (259, cborBytes (leBytes 4 (s.rd 0).toNat)),
   (267, num (s.fld R.EVR_BOOT_BOOT)),
   (-75001, num (s.fld R.KEY_LIFECYCLE_STATE)),
   (-75002, cborArray (s.key.meas.zipIdx.map (fun p => stage p.2 p.1) ++ [stage 255 s.key.bmr]))] ++
  (if s.part.meter then
    [(-75003, match s.met.identNs with
      | some t => cborArray [num (s.fld R.MET_FWID_FWID), num (s.fld R.MET_FWCRC_CRC), num ((s.nowNs - t) / 1000000000)]
      | none => [0xF6])]
   else []) ++
  [(-75004, cborArray ((List.range 32).map (fun k => num (s.keyState k)))),
   (-75005, num (s.fld R.UPD_STATE_STATE))]

/-- The claims as one CBOR map. -/
def claimSet (s : State) (nonce : List Byte) : List Byte :=
  cborPut 5 (s.claims nonce).length ++ (s.claims nonce).flatMap (fun c => cborInt c.1 ++ c.2)

/-- kid: the first 8 bytes of the SHA-256 of the public key. -/
def tokenKid (key : List Byte) : List Byte := (Config.sha256 (Config.publicKey key)).take 8

/-- The token: a tagged COSE_Sign1 structure with ES256 and kid, signed with KEY[0]. -/
def token (s : State) (nonce : List Byte) (key : List Byte) : List Int :=
  let body := s.claimSet nonce
  let sig := Config.sign key (coseToSign coseOne [coseEs256] body)
  (0xD2 :: cborArray [cborBytes coseEs256, 0xA1 :: 0x04 :: cborBytes (tokenKid key), cborBytes body, cborBytes sig]).map
    (fun b => (b.toNat : Int))

end State

/-! ### Commands -/

/-- At a start, after the BMR is locked. -/
def execKeyRecovery (s : State) : Out := .next (if s.poweredOn ∧ !s.key.done then s.keyRecover.calRestore else s)

def execKeyLoad (i : Fin 8) (id : Nat) (q : KeyLoad) (s : State) : Out :=
  .next (s.request i id 3 true (fun t => t.keyLoad i id q))

def execKeyCommitCopy2 (k : Fin 32) (us : Fin 20000) (s : State) : Out :=
  .next (if s.poweredOn ∧ s.ready 5 then (s.atUs us).keyCopy2 k else s)

/-- A token needs a nonce of 8 to 64 bytes (R401). -/
def execAttest (i : Fin 8) (id : Nat) (nonce : List Byte) (s : State) : Out :=
  .next (s.request i id 1 false (fun t =>
    if t.sessVersion i < 4 ∨ !t.sessFeature i 3 then t.respond i id .version []
    else if nonce.length < 8 ∨ 64 < nonce.length then t.respond i id .invalid []
    else if !t.ready 5 then t.respond i id .notReady []
    else if t.keyFull then t.keyBusy.respond i id .busy []
    else t.keyQueue { use := some (0, 0), slots := [0], who := some (i, id), work := .attest nonce }))

/-- The request's signature is checked under OWNER_CA, in the engine's turn. -/
def execRetire (i : Fin 8) (id : Nat) (body sig : List Byte) (s : State) : Out :=
  .next (s.request i id 3 false (fun t =>
    if t.sessVersion i < 4 then t.respond i id .version []
    else if !t.ready 5 then t.respond i id .notReady []
    else if t.keyFull then t.keyBusy.respond i id .busy []
    else t.keyQueue { use := some (2, 1), slots := [2], who := some (i, id), work := .retire body sig }))

end Sys2Proof.Machine
end

