-- ==== Sys2Proof/Machine/Verifier.lean ====
section
/-! DEFINITION. The program verifier: instruction words and their costs (03_marric_instruction_set.md R72 to R75 and the group
tables), the paths of a bead's code (R96, R101; 02_frame_engine.md R48) and the proofs over them. -/

namespace Sys2Proof.Machine

/-! ### Words -/

/-- What an instruction does to a path. -/
inductive VKind where
  | seq
  | br (off : Nat)
  | brc (off : Nat)
  | loop (free : Bool) (max body : Nat)
  | call (target : Nat)
  | ret | evwait | eoi | halt | fault | tlb
  | raise (n : Nat)
  deriving DecidableEq, Repr

/-- An instruction: words, cycles, port bursts, log entries, and whether level 1.1 offers it. -/
structure VOp where
  words : Nat := 1
  cyc : Nat := 1
  bur : Nat := 0
  log : Nat := 0
  kind : VKind := .seq
  l11 : Bool := false
  deriving DecidableEq, Repr

/-- `x` where the fields are legal. -/
def vIf (p : Bool) (x : VOp) : Option VOp := if p then some x else none

/-- Bits `lo` to `lo + n − 1` of a word. -/
def wbits (w lo n : Nat) : Nat := w / 2 ^ lo % 2 ^ n

/-- The scalar register group. -/
def vScalar (fn d b sh : Nat) : Option VOp :=
  if fn ≤ 0x04 ∨ (0x08 ≤ fn ∧ fn ≤ 0x0B) ∨ fn = 0x10 then vIf (decide (sh = 0)) {}
  else if fn ≤ 0x07 then vIf (decide (b = 0 ∨ sh = 0)) {}
  else match fn with
    | 0x0C => some { cyc := 2 }
    | 0x0D => some { cyc := 2 }
    | 0x0E => some { cyc := 34 }
    | 0x0F => vIf (decide (b = 0 ∧ sh = 0)) {}
    | 0x11 => vIf (decide (sh < 16)) {}
    | 0x12 => vIf (decide (d = 0 ∧ sh = 0)) {}
    | 0x13 => vIf (decide (b = 0 ∧ sh = 0)) {}
    | _ => none

/-- The vector group: `op` is FN[3:0]. -/
def vVector (op d a b sh : Nat) : Option VOp :=
  if op = 0x8 then vIf (decide (1 ≤ d ∧ d ≤ 3 ∧ a < 16 ∧ sh ≤ 7)) {}
  else if op = 0x9 then vIf (decide (a < 16 ∧ b ≤ 2) && decide (b = 0 ∨ sh = 0)) { cyc := 4 }
  else if 16 ≤ d ∨ 16 ≤ a then none
  else if op ≤ 0x1 then vIf (decide (sh ≤ 1)) {}
  else if op ≤ 0x3 then some { cyc := 2 }
  else if op ≤ 0x7 then vIf (decide (sh = 0)) {}
  else none

/-- Loads and stores of format I. -/
def vMemory (op d m : Nat) : Option VOp :=
  let ok := decide (m ≠ 3 ∨ d < 16)
  match op with
  | 0x10 => vIf ok { cyc := 2, bur := 1 }
  | 0x11 => vIf ok { log := if m = 3 then 16 else 1 }
  | 0x12 => vIf ok { cyc := 2, bur := 1 }
  | 0x13 => vIf ok { bur := 1 }
  | 0x14 => vIf (decide (m = 2)) { cyc := 6 }
  | _ => vIf (decide (m = 2)) { log := 1 }

/-- Lantern sets and the lantern table. -/
def vLantern (op d a b m imm sub w2 : Nat) : Option VOp :=
  match op with
  | 0x18 =>
    let k := sub % 16
    vIf (decide (d ≤ 1 ∧ b = 0 ∧ k ≤ 5 ∧ sub / 32 = 0) &&
      lsetWf (Fin.ofNat 6 k) (Fin.ofNat 32 a) (BitVec.ofNat 32 w2)) { words := 2, cyc := 4 }
  | 0x19 => vIf (decide (d < 16 ∧ a ≤ 1 ∧ 1 ≤ m ∧ imm = 0)) { cyc := 3, bur := 1 }
  | _ =>
    let wd := wbits imm 7 2
    let ok := decide (d < 16 ∧ a < 16 ∧ wd ≠ 3 ∧ imm % 128 % 2 ^ wd = 0 ∧ imm / 1024 = 0)
    if op = 0x1A then vIf ok { cyc := 3, bur := 16 } else vIf (ok && decide (wbits imm 9 1 = 0)) { cyc := 3, log := 16 }

/-- Time, calendar and flow. -/
def vTime (op d a m imm b sh fn sub w2 : Nat) : Option VOp :=
  match op with
  | 0x28 => vIf (decide (a = 0 ∧ m = 0 ∧ imm ≤ 6)) {}
  | 0x29 =>
    vIf (decide (b = 0) && (decide (sub = 0 ∧ 1 ≤ d ∧ d ≤ 30 ∧ w2 = 0) || decide (sub = 1 ∧ wbits w2 12 19 = 0 ∧ wbits w2 0 12 ≤ 3000)))
      { words := 2, cyc := 24 }
  | 0x2A => vIf (decide (a = 0 ∧ m = 0 ∧ imm = 0)) { cyc := 2 }
  | 0x2B => vIf (decide (m = 0 ∧ imm ≤ 1)) { cyc := 160 }
  | 0x2C => vIf (decide (d < 16 ∧ a < 16 ∧ imm < 4)) { cyc := 3, bur := 16, l11 := true }
  | _ => vIf (decide (d = 0 ∧ sh = 0 ∧ fn = 0)) { cyc := 2, log := 1, l11 := true }

/-- Outputs. -/
def vOutput (op d a b m sh fn sub w2 : Nat) : Option VOp :=
  match op with
  | 0x30 => vIf (decide (d = 0 ∧ a < 16 ∧ sh = 0 ∧ fn < 4)) { cyc := 2, log := 16 }
  | 0x31 => vIf (decide (d = 0 ∧ m = 0)) { cyc := 3, log := 1, kind := .tlb }
  | 0x32 =>
    let len := wbits w2 8 6
    vIf (decide (b < 16 ∧ sub = 0 ∧ len ≤ 56 ∧ w2 / 2 ^ 14 = 0)) { words := 2, cyc := 4, log := 1 + ceilDiv len 8 }
  | 0x33 => vIf (decide (d = 0 ∧ sh = 0 ∧ fn = 0)) { cyc := 2, log := 1 }
  | _ => vIf (decide (sh = 0 ∧ fn = 0)) { cyc := 3, log := 1, l11 := true }

/-- Control flow. -/
def vControl (w op d a b m sh fn imm : Nat) : Option VOp :=
  let off := w % 65536
  let cond := wbits w 16 4
  let jb := decide (wbits w 20 6 = 0)
  match op with
  | 0x38 => vIf (jb && decide (cond = 0 ∧ off ≠ 0)) { kind := .br off }
  | 0x39 => vIf (jb && decide (off ≠ 0)) { kind := .brc off }
  | 0x3A => vIf (decide (w % 512 ≠ 0)) { cyc := 2, kind := .loop (decide (wbits w 21 5 ≠ 0)) (wbits w 9 12) (w % 512) }
  | 0x3B => vIf (jb && decide (cond = 0)) { cyc := 2, kind := .call off }
  | 0x3C =>
    if d = 0 ∧ a = 0 ∧ b = 0 ∧ sh = 0 then
      match fn with
      | 0 => some {}
      | 1 => some { cyc := 2, kind := .ret }
      | 2 => some { cyc := 2, kind := .evwait }
      | 3 => some { kind := .eoi }
      | 4 => some { kind := .halt }
      | _ => none
    else none
  | 0x3D => vIf (decide (d = 0 ∧ m = 0 ∧ imm < 64) && decide (a = 0 ∨ imm = 0))
      { cyc := 2, kind := if a = 0 then .raise imm else .seq }
  | _ => vIf (decide (d = 0 ∧ a = 0 ∧ m = 0)) { kind := .fault }

/-- An instruction from its word, and the word after it (R72 to R74); none when it breaks R73. -/
def vOp (w w2 : Nat) : Option VOp :=
  let op := wbits w 26 6
  let d := wbits w 21 5
  let a := wbits w 16 5
  let b := wbits w 11 5
  let sh := wbits w 6 5
  let fn := w % 64
  let m := wbits w 14 2
  let imm := w % 16384
  let sub := w % 2048
  if op = 0x01 then vScalar fn d b sh
  else if 0x02 ≤ op ∧ op ≤ 0x05 then vIf (decide (op ≠ 0x02 ∨ m = 0)) {}
  else if op = 0x06 then vIf (decide (m ≤ 2 ∧ imm < 32)) {}
  else if op = 0x07 then vIf (decide (d = 0 ∧ m = 0)) {}
  else if op = 0x08 ∨ op = 0x09 then vIf (decide (a = 0)) {}
  else if op = 0x0A then vIf (decide (a = 0 ∧ b = 0 ∧ sub = 0)) { words := 2, cyc := 2 }
  else if op = 0x0B then vIf (decide (sh = 0 ∧ fn = 0)) { cyc := 6, bur := 3 }
  else if 0x10 ≤ op ∧ op ≤ 0x15 then vMemory op d m
  else if 0x18 ≤ op ∧ op ≤ 0x1B then vLantern op d a b m imm sub w2
  else if op = 0x20 then vVector (fn % 16) d a b sh
  else if 0x28 ≤ op ∧ op ≤ 0x2D then vTime op d a m imm b sh fn sub w2
  else if 0x30 ≤ op ∧ op ≤ 0x34 then vOutput op d a b m sh fn sub w2
  else if 0x38 ≤ op ∧ op ≤ 0x3E then vControl w op d a b m sh fn imm
  else none

/-! ### Code in order -/

/-- An instruction at its word index; `stop` is the end of the innermost LOOP body around it, or of the code. -/
structure VIns where
  pos : Nat
  op : Option VOp
  stop : Nat
  deriving DecidableEq, Repr

/-- The instructions of a bead's code from `pos` on; `stack` holds the ends of the bodies around it, innermost first. A word that
breaks R73 counts as one word. -/
def vParse : Nat → List Nat → Nat → List Nat → Nat → List VIns
  | 0, _, _, _, _ => []
  | _, [], _, _, _ => []
  | k + 1, w :: ws, pos, stack, n =>
    let st := stack.dropWhile (fun e => decide (e ≤ pos))
    let op := match vOp w (ws.headD 0) with
      | some o => if o.words = 2 ∧ ws.isEmpty then none else some o
      | none => none
    let st2 := match op with
      | some o => (match o.kind with
        | .loop _ _ body => (pos + 1 + body) :: st
        | _ => st)
      | none => st
    let two := match op with
      | some o => decide (o.words = 2)
      | none => false
    ⟨pos, op, st.headD n⟩ :: (if two then vParse k ws.tail (pos + 2) st2 n else vParse k ws (pos + 1) st2 n)

def vCode (ws : List Nat) : List VIns := vParse ws.length ws 0 [] ws.length

/-- The LOOP bodies: first word and end. -/
def vLoops (is : List VIns) : List (Nat × Nat) :=
  is.filterMap (fun i => match i.op with
    | some o => (match o.kind with
      | .loop _ _ body => some (i.pos + 1, i.pos + 1 + body)
      | _ => none)
    | none => none)

/-! ### Paths -/

/-- The sums and greatest values over paths: cycles, bursts, log entries, TLBs, EOIs (least and most), LOOPs open at once, and
CALLs deep. -/
structure VMet where
  cyc : Nat := 0
  bur : Nat := 0
  log : Nat := 0
  tlb : Nat := 0
  eoiMin : Nat := 0
  eoiMax : Nat := 0
  loops : Nat := 0
  calls : Nat := 0
  deriving DecidableEq, Repr

/-- One path part after another. -/
def VMet.after (a b : VMet) : VMet :=
  ⟨a.cyc + b.cyc, a.bur + b.bur, a.log + b.log, a.tlb + b.tlb, a.eoiMin + b.eoiMin, a.eoiMax + b.eoiMax, max a.loops b.loops,
    max a.calls b.calls⟩

/-- Either of two. -/
def VMet.either (a b : VMet) : VMet :=
  ⟨max a.cyc b.cyc, max a.bur b.bur, max a.log b.log, max a.tlb b.tlb, min a.eoiMin b.eoiMin, max a.eoiMax b.eoiMax,
    max a.loops b.loops, max a.calls b.calls⟩

/-- n times. -/
def VMet.times (n : Nat) (a : VMet) : VMet :=
  ⟨n * a.cyc, n * a.bur, n * a.log, n * a.tlb, n * a.eoiMin, n * a.eoiMax, a.loops, a.calls⟩

/-- Where paths leave a region: by running on past its last word, by a branch to word p, or by an end of the bead's own. -/
inductive VExit where
  | fall
  | at (p : Nat)
  | ret | evwait | halt | fault
  deriving DecidableEq, Repr

abbrev VSum := List (VExit × VMet)

/-- Add one exit to a summary. -/
def addExit : VSum → VExit × VMet → VSum
  | [], e => [e]
  | x :: xs, e => if x.1 = e.1 then (x.1, x.2.either e.2) :: xs else x :: addExit xs e

def joinSums (a b : VSum) : VSum := b.foldl addExit a

def afterMet (m : VMet) (x : VSum) : VSum := x.map (fun e => (e.1, m.after e.2))

/-- The summary of a LOOP, from its body's: it counts at its encoded maximum of `n` iterations, each at the worst path through the
body (02 R48); EOIs and TLBs are counted along the iterations before the one that leaves. Only a path that runs on past the last word of
the body begins another iteration: a branch to the word after the body ends the loop (R102). -/
def loopSum (free : Bool) (n : Nat) (body : VSum) : VSum :=
  let worst : VMet := body.foldl (fun a e => a.either e.2) {}
  let full (lo hi tlb : Nat) : VMet :=
    { worst.times n with eoiMin := lo, eoiMax := hi, tlb := tlb, loops := worst.loops + 1 }
  let ft := (body.find? (fun e => decide (e.1 = VExit.fall))).map (fun e => e.2)
  let others := body.filter (fun e => decide (e.1 ≠ VExit.fall))
  let eois := (ft.map (fun f => f.eoiMax)).getD 0
  let tlbs := (ft.map (fun f => f.tlb)).getD 0
  let early : VSum := others.map (fun e => (e.1, full e.2.eoiMin ((n - 1) * eois + e.2.eoiMax) ((n - 1) * tlbs + e.2.tlb)))
  let all : VSum := match ft with
    | some f => addExit early (VExit.fall, full (n * f.eoiMin) (n * f.eoiMax) (n * f.tlb))
    | none => early
  if free then addExit all (VExit.fall, full 0 0 0) else all

/-- The summary from instruction i on, to the end of its region; `t` holds the summaries of the instructions after it. -/
def backStep (callee : Nat → VSum) (t : SMap VSum) (i : VIns) : SMap VSum :=
  let go (p : Nat) : VSum := if p < i.stop then SMap.find [] t p else [(VExit.at p, {})]
  let run (p : Nat) : VSum := if p < i.stop then SMap.find [] t p else [(VExit.fall, {})]
  let resolve (stop : Nat) (x : VSum) : VSum := x.foldl (fun (acc : VSum) (e : VExit × VMet) => match e.1 with
    | .fall => joinSums acc (afterMet e.2 (run stop))
    | .at p => joinSums acc (afterMet e.2 (go p))
    | _ => addExit acc e) []
  match i.op with
  | none => t
  | some o =>
    let own : VMet := { cyc := o.cyc, bur := o.bur, log := o.log }
    let sum : VSum := match o.kind with
      | .seq => afterMet own (run (i.pos + o.words))
      | .raise _ => afterMet own (run (i.pos + o.words))
      | .tlb => afterMet { own with tlb := 1 } (run (i.pos + o.words))
      | .eoi => afterMet { own with eoiMin := 1, eoiMax := 1 } (run (i.pos + o.words))
      | .br off => afterMet own (go (i.pos + off))
      | .brc off => joinSums (afterMet own (run (i.pos + 1))) (afterMet own (go (i.pos + off)))
      | .loop free n body => afterMet own (resolve (i.pos + 1 + body) (loopSum free (n + 1) (SMap.find [] t (i.pos + 1))))
      | .call target =>
        (callee target).foldl (fun (acc : VSum) (e : VExit × VMet) =>
          let m := own.after { e.2 with calls := e.2.calls + 1 }
          match e.1 with
          | .ret => joinSums acc (afterMet m (run (i.pos + 1)))
          | x => addExit acc (x, m)) []
      | .ret => [(.ret, own)]
      | .evwait => [(.evwait, own)]
      | .halt => [(.halt, own)]
      | .fault => [(.fault, own)]
    (i.pos, sum) :: t

/-- The summaries of all instructions. -/
def backTable (callee : Nat → VSum) (is : List VIns) : SMap VSum := is.foldr (fun i t => backStep callee t i) []

/-- The table after `k` rounds of putting callees in place: with no cycle of calls, one round more than the number of CALLs
suffices. -/
def callRounds (is : List VIns) : Nat → SMap VSum
  | 0 => backTable (fun _ => [(.ret, {})]) is
  | k + 1 => let t := callRounds is k; backTable (fun p => SMap.find [] t p) is

/-- CALLs in the code. -/
def callCount (is : List VIns) : Nat :=
  (is.filter (fun i => match i.op with
    | some o => (match o.kind with
      | .call _ => true
      | _ => false)
    | none => false)).length

def vTable (is : List VIns) : SMap VSum := callRounds is (callCount is + 1)

/-! ### The rules -/

/-- R73: every word, with no X cut off at the end. -/
def wordsOk (is : List VIns) : Bool := is.all (fun i => i.op.isSome)

/-- R73: ENTRY does not reach the second word of an X instruction. -/
def entryOk (is : List VIns) (entry : Nat) : Bool := is.any (fun i => decide (i.pos = entry))

/-- A level 1.1 instruction stands in the code. -/
def uses11 (is : List VIns) : Bool := is.any (fun i => (i.op.map (fun o => o.l11)).getD false)

/-- The sources that immediate RAISEs name. -/
def raises (is : List VIns) : List Nat :=
  is.filterMap (fun i => match i.op with
    | some o => (match o.kind with
      | .raise n => some n
      | _ => none)
    | none => none)

/-- The rules of R101 that hold of each instruction by itself, for a bead of class `cls`. -/
def insOk (is : List VIns) (n cls : Nat) (i : VIns) : Bool :=
  let ls := vLoops is
  let first (p : Nat) : Bool := is.any (fun j => decide (j.pos = p))
  let inside (p : Nat) : Bool := ls.any (fun l => decide (l.1 ≤ p ∧ p < l.2))
  let lands (p : Nat) : Bool := first p && ls.all (fun l => !decide (l.1 ≤ p ∧ p < l.2) || decide (l.1 ≤ i.pos))
  match i.op with
  | none => false
  | some o =>
    match o.kind with
    | .br off => lands (i.pos + off)
    | .brc off => lands (i.pos + off)
    | .loop _ _ body => decide (i.pos + 1 + body ≤ i.stop) && (first (i.pos + 1 + body) || decide (i.pos + 1 + body = n))
    | .call p => first p && !inside p
    | .evwait => decide (cls = 1)
    | .eoi => decide (cls = 1)
    | _ => true

/-- What a path's exit has to meet. -/
def exitOk (cls : Nat) (e : VExit × VMet) : Bool :=
  decide (e.2.tlb ≤ 16 ∧ e.2.loops ≤ 4 ∧ e.2.calls ≤ 8) &&
    (match e.1 with
     | .fall => false
     | .at _ => false
     | .ret => decide (cls ≠ 1 ∨ (e.2.eoiMin = 1 ∧ e.2.eoiMax = 1))
     | .evwait => decide (e.2.eoiMin = 1 ∧ e.2.eoiMax = 1)
     | .halt => decide (e.2.eoiMax ≤ 1)
     | .fault => decide (e.2.eoiMax ≤ 1))

/-- R33, R96 and R101 for a bead. -/
def flowOk (is : List VIns) (n cls entry : Nat) : Bool :=
  let t := vTable is
  let cyc := t.any (fun (e : Nat × VSum) => e.2.any (fun x => decide (callCount is < x.2.calls)))
  is.all (insOk is n cls) && entryOk is entry &&
    !(vLoops is).any (fun l => decide (l.1 ≤ entry ∧ entry < l.2)) && !cyc && (SMap.find [] t entry).all (exitOk cls)

/-- The verifier's proof: the most cycles, bursts and log entries of a pass; an activation is charged the 8 entry and 4 exit
cycles (04 R119). -/
def vProof (is : List VIns) (cls entry : Nat) : VMet :=
  let m := (SMap.find [] (vTable is) entry).foldl (fun (a : VMet) (e : VExit × VMet) => a.either e.2) {}
  if cls = 1 then { m with cyc := m.cyc + 12 } else m

end Sys2Proof.Machine
end

