-- ==== Sys2Proof/Machine/Images.lean ====
section
/-! DEFINITION. Program images (05_programs_and_lantern_table.md R126 to R138): the layout, the checks, placement and admission
(02_frame_engine.md R40, R51, R52), activation, and the states of the image slots. -/

namespace Sys2Proof.Machine

/-! ### Layout (R126 to R131) -/

/-- `n` bytes of an image at `a`. -/
def imgNat (bs : List Byte) (a n : Nat) : Nat := leNat ((bs.drop a).take n)

def beadEntryAt (bs : List Byte) (i : Nat) : BeadEntry :=
  let a := 0x60 + 32 * i
  { cls := imgNat bs a 1, rod := imgNat bs (a + 1) 1, slot := imgNat bs (a + 2) 1, order := imgNat bs (a + 3) 1
    flags := imgNat bs (a + 4) 1, act := imgNat bs (a + 5) 1, period := imgNat bs (a + 6) 2, phase := imgNat bs (a + 8) 2
    entry := imgNat bs (a + 10) 2, codeStart := imgNat bs (a + 12) 4, codeWords := imgNat bs (a + 16) 4
    budget := imgNat bs (a + 20) 4, bursts := imgNat bs (a + 24) 4, logEntries := imgNat bs (a + 28) 4 }

def subEntryAt (bs : List Byte) (a : Nat) : SubEntry :=
  ⟨imgNat bs a 1, imgNat bs (a + 1) 1, imgNat bs (a + 2) 2, imgNat bs (a + 4) 1⟩

def grantEntryAt (bs : List Byte) (a : Nat) : GrantEntry :=
  ⟨imgNat bs a 1, imgNat bs (a + 1) 1, imgNat bs (a + 4) 4, imgNat bs (a + 8) 4⟩

/-- Counts of the three tables. -/
def imgCounts (bs : List Byte) : Nat × Nat × Nat := (imgNat bs 0x1C 2, imgNat bs 0x1E 2, imgNat bs 0x20 2)

/-- Where the tables end. -/
def tablesEnd (bs : List Byte) : Nat :=
  let (b, u, g) := imgCounts bs
  0x60 + 32 * b + 8 * u + 16 * g

def mpiOf (bs : List Byte) : Mpi :=
  let (b, u, g) := imgCounts bs
  let subAt := 0x60 + 32 * b
  { isa := imgNat bs 5 1 * 256 + imgNat bs 6 1, keepState := (imgNat bs 7 1).testBit 0
    name := ((bs.drop 8).take 16).map (fun (x : Byte) => x.toNat), version := imgNat bs 0x18 4, codeOff := imgNat bs 0x24 4
    codeWords := imgNat bs 0x28 4, constOff := imgNat bs 0x2C 4, constSize := imgNat bs 0x30 4, constBase := imgNat bs 0x34 4
    fBase := imgNat bs 0x38 4, fSize := imgNat bs 0x3C 4, iBase := imgNat bs 0x40 4, iSize := imgNat bs 0x44 4
    sigOff := imgNat bs 0x48 4, total := imgNat bs 0x4C 4, beads := (List.range b).map (beadEntryAt bs)
    subs := (List.range u).map (fun i => subEntryAt bs (subAt + 8 * i))
    grants := (List.range g).map (fun i => grantEntryAt bs (subAt + 8 * u + 16 * i)) }

/-- The code words of a bead. -/
def beadCode (bs : List Byte) (m : Mpi) (b : BeadEntry) : List Nat :=
  (List.range b.codeWords).map (fun i => imgNat bs (m.codeOff + 4 * (b.codeStart + i)) 4)

/-- All bytes from `a` to before `e` are 0. -/
def zeroRun (bs : List Byte) (a e : Nat) : Bool := ((bs.drop a).take (e - a)).all (fun b => decide (b = 0))

/-! ### Checks 1 to 12 (R134) -/

/-- Check 1. -/
def fmtOk (bs : List Byte) : Bool :=
  decide (imgNat bs 0 4 = 0x0049504D ∧ imgNat bs 4 1 = 1 ∧ imgNat bs 0x22 2 = 0) && zeroRun bs 0x50 0x60

/-- Check 2. -/
def sizeOk (bs : List Byte) (m : Mpi) : Bool :=
  let te := tablesEnd bs
  let codeEnd := m.codeOff + 4 * m.codeWords
  let constEnd := m.constOff + m.constSize
  decide (m.total = bs.length ∧ m.total ≤ 2 ^ 24 ∧ te ≤ m.codeOff ∧ m.codeOff % 4 = 0 ∧ codeEnd ≤ m.constOff ∧
    m.constOff % 64 = 0 ∧ constEnd ≤ m.sigOff ∧ m.sigOff % 4 = 0 ∧ m.sigOff ≤ m.total ∧ m.total - m.sigOff ≤ 4096) &&
    zeroRun bs te m.codeOff && zeroRun bs codeEnd m.constOff && zeroRun bs constEnd m.sigOff

/-- Check 4: levels 1.0 and 1.1 are offered; 1.0 without the instructions of 1.1 (03 R104). -/
def levelOk (bs : List Byte) (m : Mpi) : Bool :=
  decide (m.isa = 0x101) || (decide (m.isa = 0x100) && m.beads.all (fun b => !uses11 (vCode (beadCode bs m b))))

/-- A region of `n` bytes at `a`, both multiples of 64, within `lo` to before `hi`. The table of R127 bounds base and size apart; a region
that starts within its space and ends past it is refused with the others (DESIGN CHOICE, log entry 162). -/
def regionOk (a n lo hi : Nat) : Bool := decide (a % 64 = 0 ∧ n % 64 = 0 ∧ lo ≤ a ∧ a < hi ∧ a + n ≤ hi)

/-- A NAME: printable characters, then zeros. -/
def nameOk (cs : List Nat) : Bool :=
  let k := cs.takeWhile (fun c => decide (0x21 ≤ c ∧ c ≤ 0x7E))
  decide (k ≠ []) && (cs.drop k.length).all (fun c => decide (c = 0))

def headerOk (bs : List Byte) (m : Mpi) : Bool :=
  let (b, u, g) := imgCounts bs
  decide (imgNat bs 7 1 ≤ 1 ∧ 1 ≤ b ∧ b ≤ 1024 ∧ u ≤ 248 ∧ g ≤ 64) && nameOk m.name &&
    regionOk m.constBase m.constSize 0x1000000 0x1800000 && regionOk m.fBase m.fSize 0x300000 0x400000 &&
    regionOk m.iBase m.iSize 0 0x200000

/-- A bead entry (R128, R129). -/
def beadStatus (p : Part) (m : Mpi) (b : BeadEntry) : Option Status :=
  if b.rod ≠ 0xFF ∧ p.rods ≤ b.rod then some .range
  else if decide (b.cls ≤ 2 ∧ (b.slot < 64 ∨ b.slot = 0xFF) ∧ b.flags < 4 ∧ 1 ≤ b.codeWords ∧ b.codeWords ≤ 65536) &&
      decide (b.entry < b.codeWords ∧ b.codeStart + b.codeWords ≤ m.codeWords ∧ 1 ≤ b.budget ∧ b.budget ≤ 7020000) &&
      (if b.cls = 1 then decide (1 ≤ b.act ∧ b.act ≤ 64) else decide (b.act = 0)) &&
      (if b.cls = 0 then decide (1 ≤ b.period ∧ b.period ≤ 3000 ∧ b.phase < b.period) else decide (b.period = 0 ∧ b.phase = 0)) &&
      (!b.flags.testBit 0 || decide (b.rod ≤ 1 ∨ b.rod = 0xFF)) then none
  else some .invalid

/-- A subscription entry by itself (R130). -/
def subOk (bs : List Byte) (a n : Nat) (u : SubEntry) : Bool :=
  decide (8 ≤ u.source ∧ 1 ≤ u.prio ∧ u.prio ≤ 15 ∧ u.bead < n ∧ u.pool ≤ 1) && zeroRun bs (a + 5) (a + 8)

/-- A grant entry (R131). -/
def grantStatus (bs : List Byte) (p : Part) (a : Nat) (g : GrantEntry) : Option Status :=
  let base := decide (g.access < 4) && zeroRun bs (a + 2) (a + 4) && zeroRun bs (a + 12) (a + 16)
  let ok := match g.kind with
    | 1 => decide (g.first ≤ g.last ∧ 0x200000 ≤ g.first ∧ g.last ≤ 0x20CFFF)
    | 2 => decide (g.first ≤ g.last ∧ g.last ≤ 127)
    | 3 => decide (g.first ≤ g.last ∧ g.access = 2)
    | 4 => decide (g.first < 2 ^ 24 ∧ g.last = 0 ∧ g.access = 2)
    | 5 => decide (g.first ≤ g.last ∧ g.first % 4 = 0 ∧ g.last % 4 = 0)
    | 6 => decide (g.access = 2)
    | _ => false
  if !base ∨ !ok then some .invalid
  else if g.kind = 3 ∧ p.lanterns ≤ g.last then some .range
  else none

/-- Check 6. -/
def fieldStatus (p : Part) (bs : List Byte) (m : Mpi) : Option Status :=
  let subAt := 0x60 + 32 * m.beads.length
  let grantAt := subAt + 8 * m.subs.length
  if !headerOk bs m then some .invalid
  else match m.beads.findSome? (beadStatus p m) with
    | some st => some st
    | none =>
      if !m.subs.zipIdx.all (fun (x : SubEntry × Nat) => subOk bs (subAt + 8 * x.2) m.beads.length x.1) then some .invalid
      else m.grants.zipIdx.findSome? (fun (x : GrantEntry × Nat) => grantStatus bs p (grantAt + 16 * x.2) x.1)

/-- Check 9. -/
def proofOk (bs : List Byte) (m : Mpi) (b : BeadEntry) : Bool :=
  let x := vProof (vCode (beadCode bs m b)) b.cls b.entry
  decide (x.cyc ≤ b.budget ∧ x.bur ≤ b.bursts ∧ x.log ≤ b.logEntries)

/-- The registers that programs may write (06 R176, 11 R309, 12 R322, 14 R362, 15 R376, 07 R217). -/
def programMayWrite (a : Nat) : Bool :=
  decide (a = R.FLOW_EVT_LOST.addr ∨ a = R.PWR_REQ_AGATE.addr ∨ a = R.WCH_BKP_FLAGS_FLAG.addr) ||
    (List.range 6).any (fun f => decide (a = R.DRV_FEEDER_CMD_CLOSE.at f 0)) ||
    (List.range 4).any (fun l => decide (a = R.LCE_SP_SP.at l 0)) ||
    (List.range 2).any (fun k => decide (a = R.LCE_AOUT_MAN_CODE.at k 0)) ||
    (List.range 32).any (fun i => decide (a = R.RTC_BKP_DATA.at i 0))

/-- A register of an Ethernet port beyond the two (10 R287). -/
def absentPort (a : Nat) : Bool := decide (0x70180 ≤ a ∧ a < 0x80000 ∧ a % 64 ≤ 0x20)

/-- An address that R26 accepts: a register, one of a port that does not exist, or the data window. -/
def isRegister (a : Nat) : Bool :=
  decide (a % 4 = 0) && ((findReg a).isSome || absentPort a || decide (0x58000 ≤ a ∧ a < 0x60000))

/-- Check 10 (R132). -/
def grantsOk (m : Mpi) : Bool :=
  m.grants.all (fun g =>
    if g.kind = 2 ∧ g.access.testBit 1 then decide (0x20 ≤ g.first ∧ g.last < 0x40)
    else if g.kind = 5 ∧ g.access.testBit 1 then
      (List.range ((g.last - g.first) / 4 + 1)).all (fun k => !isRegister (g.first + 4 * k) || programMayWrite (g.first + 4 * k))
    else true)

/-- Check 11: what R130 asks of the subscriptions together. -/
def bindOk (m : Mpi) : Bool :=
  let cls (i : Nat) : Nat := ((m.beads[i]?).map (fun b => b.cls)).getD 0
  m.beads.zipIdx.all (fun (x : BeadEntry × Nat) => decide (x.1.cls ≠ 1) || m.subs.any (fun u => decide (u.bead = x.2))) &&
    m.subs.all (fun u => decide (cls u.bead = 1) &&
      (decide (u.pool = 0) || ((m.beads[u.bead]?).map (fun b => decide (b.rod = 0xFF ∧ b.slot ≠ 0xFF))).getD false) &&
      decide ((m.subs.filter (fun v => decide (v.source = u.source))).length = 1))

/-- Check 12. -/
def raiseOk (bs : List Byte) (m : Mpi) : Bool := m.beads.all (fun b => (raises (vCode (beadCode bs m b))).all m.raise)

/-- Checks 6 to 12: status and reason of the first that fails. -/
def checkProgram (p : Part) (bs : List Byte) (m : Mpi) : Option (Status × Nat) :=
  match fieldStatus p bs m with
  | some st => some (st, 6)
  | none =>
    if !m.beads.all (fun b => wordsOk (vCode (beadCode bs m b)) && entryOk (vCode (beadCode bs m b)) b.entry) then some (.invalid, 7)
    else if !m.beads.all (fun b => flowOk (vCode (beadCode bs m b)) b.codeWords b.cls b.entry) then some (.invalid, 8)
    else if !m.beads.all (proofOk bs m) then some (.budget, 9)
    else if !grantsOk m then some (.auth, 10)
    else if !bindOk m then some (.invalid, 11)
    else if !raiseOk bs m then some (.auth, 12)
    else none

/-! ### Placement and admission -/

/-- A bead in its place: image slot, index in the bead table, bead number, its entry. -/
structure Place where
  img : Nat
  index : Nat
  bead : Nat
  entry : BeadEntry
  deriving DecidableEq, Repr

/-- The entries on rod r. -/
def onRod (ps : List Place) (r : Nat) : List Place := ps.filter (fun p => decide (p.bead / 64 = r))

/-- A sum counted as R51 counts: FRAME beads once, EVENT beads `ev` times, the largest of the ONESHOT beads. -/
def countedOn (ps : List Place) (r : Nat) (val : BeadEntry → Nat) (ev : BeadEntry → Nat) : Nat :=
  let xs := onRod ps r
  ((xs.filter (fun p => decide (p.entry.cls = 0))).map (fun p => val p.entry)).sum +
    ((xs.filter (fun p => decide (p.entry.cls = 1))).map (fun p => val p.entry * ev p.entry)).sum +
    (xs.filter (fun p => decide (p.entry.cls = 2))).foldl (fun m p => max m (val p.entry)) 0

/-- The admitted load of rod r. -/
def rodLoad (ps : List Place) (r : Nat) : Nat := countedOn ps r (fun b => b.budget) (fun b => b.act)

/-- Admitted port bursts, and log entries (R40), of the module. -/
def portLoad (ps : List Place) : Nat := ((List.range 16).map (fun r => countedOn ps r (fun b => b.bursts) (fun b => b.act))).sum

def logLoad (ps : List Place) : Nat := ((List.range 16).map (fun r => countedOn ps r (fun b => b.logEntries) (fun b => b.act + 1))).sum

/-- Words of rod r's instruction store in use: shared copies once (R129). -/
def codeLoad (ps : List Place) (r : Nat) : Nat :=
  (((onRod ps r).map (fun p => (p.img, p.entry.codeStart, p.entry.codeWords))).eraseDups.map (fun x => x.2.2)).sum

/-- The slot a bead takes on rod r: the one it names when it is free, or the lowest free one, with its code fitting. -/
def slotOn (ps : List Place) (r img index : Nat) (b : BeadEntry) : Option Place :=
  let free (k : Nat) : Bool := !ps.any (fun p => decide (p.bead = 64 * r + k))
  let slot : Option Nat := if b.slot = 0xFF then (List.range 64).find? free else if free b.slot then some b.slot else none
  match slot with
  | some k =>
    let p : Place := ⟨img, index, 64 * r + k, b⟩
    if codeLoad (p :: ps) r ≤ 65536 then some p else none
  | none => none

namespace State

/-- The admission limit in cycles (R51). -/
def admitCycles (s : State) : Nat := 7800000 * s.fr.limitPct / 100

/-- The rod of lowest admitted load on which a bead fits (R52). Where it fits on none but for the load, the one of lowest load. -/
def pickRod (s : State) (ps : List Place) (img index : Nat) (b : BeadEntry) : Option Place :=
  let rods := (List.range s.part.rods).filter (fun r => !b.flags.testBit 0 || decide (r < 2))
  let cands := rods.filterMap (fun r => slotOn ps r img index b)
  let fits := cands.filter (fun p => decide (rodLoad (p :: ps) (p.bead / 64) ≤ s.admitCycles))
  let low (xs : List Place) : Option Place := xs.foldl (fun (m : Option Place) p => match m with
    | some q => if rodLoad ps (p.bead / 64) < rodLoad ps (q.bead / 64) then some p else some q
    | none => some p) none
  match low fits with
  | some p => some p
  | none => low cands

/-- Place one bead: on its rod, on the lowest, or on each rod of the pool. -/
def placeBead (s : State) (img : Nat) (m : Mpi) (ps : List Place) (index : Nat) (b : BeadEntry) : Option (List Place) :=
  if m.subs.any (fun u => decide (u.bead = index ∧ u.pool = 1)) then
    let rods := (List.range s.part.rods).filter (fun r => (s.fld R.ICU_POOL_RODS).testBit r && (!b.flags.testBit 0 || decide (r < 2)))
    if rods.isEmpty then none
    else rods.foldl (fun (acc : Option (List Place)) r => acc.bind (fun qs => (slotOn qs r img index b).map (fun p => p :: qs))) (some ps)
  else if b.rod = 0xFF then (s.pickRod ps img index b).map (fun p => p :: ps)
  else (slotOn ps b.rod img index b).map (fun p => p :: ps)

/-- The beads in place, but for those of some image slots. -/
def places (s : State) (skip : List Nat) : List Place :=
  s.images.flatMap (fun e =>
    if skip.contains e.1 then []
    else e.2.placed.filterMap (fun q => (e.2.mpi.beads[q.1]?).map (fun b => (⟨e.1, q.1, q.2, b⟩ : Place))))

def image (s : State) (i : Nat) : Image := SMap.find {} s.images i

def setImage (s : State) (i : Nat) (x : Image) : State := { s with images := SMap.set {} s.images i x }

def imgState (s : State) (i : Nat) : Nat := s.fld R.LTAB_IMG_STATE i

def imgHandle (s : State) (i : Nat) : Nat := s.fld R.LTAB_IMG_HANDLE i

/-- The image of the same NAME that is ACTIVE. -/
def replacedBy (s : State) (i : Nat) : Option Nat :=
  (s.imagesIn 5).find? (fun j => decide (j ≠ i ∧ (s.image j).mpi.name = (s.image i).mpi.name))

/-- Two regions share a byte. -/
def regionsMeet (a n b m : Nat) : Bool := decide (0 < n ∧ 0 < m ∧ a < b + m ∧ b < a + n)

/-- Checks 15 to 19 of image slot i, and the places of its beads: what a DEACTIVATE of the image itself has not yet unloaded does not
count, since its unloading comes first (R135). -/
def checkPlace (s : State) (i : Nat) : Except (Status × Nat) (List Place) :=
  let m := (s.image i).mpi
  let old := s.replacedBy i
  let others := (s.imagesIn 5).filter (fun j => decide (j ≠ i ∧ some j ≠ old))
  let meets (j : Nat) : Bool :=
    let o := (s.image j).mpi
    regionsMeet m.constBase m.constSize o.constBase o.constSize || regionsMeet m.fBase m.fSize o.fBase o.fSize ||
      regionsMeet m.iBase m.iSize o.iBase o.iSize
  let ps0 := s.places (i :: old.toList)
  if others.any meets then .error (.noSpace, 15)
  else if m.subs.any (fun u => others.any (fun j => (s.image j).mpi.subs.any (fun v => decide (v.source = u.source)))) then
    .error (.locked, 16)
  else match m.beads.zipIdx.foldl (fun (acc : Option (List Place)) (x : BeadEntry × Nat) =>
      acc.bind (fun ps => s.placeBead i m ps x.2 x.1)) (some ps0) with
    | none => .error (.noSpace, 17)
    | some ps =>
      if (List.range 16).any (fun r => decide (s.admitCycles < rodLoad ps r)) ∨ 7020000 < portLoad ps then .error (.budget, 18)
      else if 262144 < logLoad ps then .error (.budget, 19)
      else .ok (ps.filter (fun p => decide (p.img = i)))

/-- Show the admitted loads (02 R66). -/
def admitSync (s : State) : State :=
  let ps := s.places []
  let s1 := (List.range 16).foldl (fun t r => t.setFld R.ROD_LOAD_CYCLES (rodLoad ps r) r) s
  (s1.setFld R.ROD_PORT_LOAD_BURSTS (portLoad ps)).setFld R.ROD_LOG_FREE_ENTRIES (262144 - logLoad ps)

/-! ### Beads of an image (02 R34, R67) -/

/-- A bead is READY or RUNNING in its place. -/
def onItsRod (s : State) (n : Nat) : Bool := decide (s.beadState n = stRunning ∨ s.beadState n = stReady)

/-- Take a bead out of its slot. A log of it that still waits for a bar does not commit: its last passes are those that committed at the
bar before the edge (R136; after a DEACTIVATE DEDUCED, log entry 163). -/
def unloadBead (s : State) (n : Nat) : State :=
  let s0 := if s.onItsRod n then s.leaveRod n else s
  let s1 : State := { s0 with bar := { s0.bar with queue := s0.bar.queue.filter (fun q => decide (q.bead ≠ n)) } }
  let s2 := { s1 with beads := SMap.set {} s1.beads n {} }
  ([0, 4, 8, 12, 16] : List Nat).foldl (fun t o => t.wr (R.ROD_BEAD_STATE_STATE.at n 0 + o) (if o = 16 then 0xFFFFFFFF else 0)) s2

/-- A source is unbound (04 R113). -/
def unbind (s : State) (n : Nat) : State :=
  (((s.setFld R.ICU_SRC_CFG_PRIO 0 n).setFld R.ICU_SRC_CFG_TARGET 16 n).setFld R.ICU_SRC_CFG_SLOT 0 n).setBit R.ICU_SRC_CFG_BOUND false n

/-- Put a bead into its place, IDLE with its registers cleared. -/
def loadBead (s : State) (p : Place) : State :=
  let b := p.entry
  let n := p.bead
  let x : Bead := { slot := p.img, index := p.index, entry := b.entry, order := b.order, act := b.act, period := b.period
                    phase := b.phase, bursts := b.bursts }
  let s1 := ((s.setBead n x).wr (R.ROD_BEAD_STATE_STATE.at n 0) 0).setBit R.ROD_BEAD_STATE_VALID true n
  let s2 := (s1.setFld R.ROD_BEAD_STATE_CLASS b.cls n).setFld R.ROD_BEAD_STATE_IMAGE (s.imgHandle p.img) n
  let s3 := (s2.wr (R.ROD_BEAD_FAULT_CAUSE.at n 0) 0).setFld R.ROD_BEAD_CYCLES_LAST 0 n
  (s3.setFld R.ROD_BEAD_BUDGET_BUDGET b.budget n).syncNext n

/-- The place of the next START in the order in which they are accepted (02 R54). -/
def nextStart (s : State) : Nat := s.beads.foldl (fun m e => max m e.2.startSeq) 0 + 1

/-- START takes effect: registers and the POST count start anew (R33, 03 R98). -/
def startNow (s : State) (n : Nat) : State :=
  let b := s.bead n
  let seq := if b.startReq then b.startSeq else s.nextStart
  let b1 := { b with s := [], v := [], m := [], posts := 0, startReq := false, stopReq := false, startSeq := seq, lastCommit := none, due := false }
  ((s.setBead n b1).setBeadState n (if s.beadClass n = 1 then stWaitEvent else stWaitFrame)).syncNext n

/-- ROD_BEAD_CTRL (R35, R67). -/
def writeBeadCtrl (s : State) (n : Nat) (v : Word) : Status × State :=
  let b := s.bead n
  let st := s.beadState n
  match getBits v 0 3 with
  | 0 => (.ok, s)
  | 1 => if s.beadValid n ∧ st = stIdle then (.ok, s.setBead n { b with startReq := true, startSeq := s.nextStart }) else (.refusedState, s)
  | 2 =>
    if !s.beadValid n then (.refusedState, s)
    else if st = stWaitEvent then (.ok, s.setBeadState n stIdle)
    else if st = stWaitFrame ∨ st = stReady ∨ st = stRunning then (.ok, s.setBead n { b with stopReq := true })
    else (.refusedState, s)
  | 4 =>
    if s.beadValid n ∧ (st = stHalted ∨ st = stFaulted) then (.ok, s.setBead n { b with resetReq := true }) else (.refusedState, s)
  | _ => (.invalid, s)

/-- The requests of bead n take effect at a frame edge. -/
def beadRequests (s : State) (n : Nat) : State :=
  let b := s.bead n
  let st := s.beadState n
  if b.startReq ∧ st = stIdle then s.startNow n
  else if b.stopReq ∧ st = stWaitFrame then
    ((s.setBead n { b with stopReq := false, due := false }).setBeadState n stIdle).syncNext n
  else if b.resetReq ∧ (st = stHalted ∨ st = stFaulted) then
    ((s.setBead n { b with resetReq := false, stopReq := false }).setBeadState n stIdle).setFld R.ROD_BEAD_FAULT_CAUSE 0 n
  else s

/-! ### Activation (R136, R137) -/

/-- Zero the regions of a new image, but for what KEEP_STATE keeps; its constants appear in C. -/
def imageMemory (s : State) (m : Mpi) (old : Option Mpi) (bs : List Byte) : State :=
  let keep := match old with
    | some o => if m.keepState ∧ o.fBase = m.fBase then min o.fSize m.fSize else 0
    | none => 0
  { s with
    fmem := if keep < m.fSize then SMap.clear s.fmem (m.fBase + keep) (m.fBase + m.fSize - 1) else s.fmem
    ftwin := if keep < m.fSize then SMap.clear s.ftwin (m.fBase + keep) (m.fBase + m.fSize - 1) else s.ftwin
    imem := if 0 < m.iSize then SMap.clear s.imem m.iBase (m.iBase + m.iSize - 1) else s.imem
    cmem := SMap.setRun zDflt s.cmem m.constBase ((bs.drop m.constOff).take m.constSize) }

/-- Write the bindings of an image whose beads stand at `ps` (04 R113). A bead with a pool subscription stands on several rods; for its
other subscriptions its own rod is the one of the place that is found first, the last that was taken (DESIGN CHOICE, log entry 164). -/
def bindAll (s : State) (m : Mpi) (ps : List Place) : State :=
  m.subs.foldl (fun t u =>
    match ps.find? (fun p => decide (p.index = u.bead)) with
    | some p =>
      let t1 := (t.setFld R.ICU_SRC_CFG_PRIO u.prio u.source).setFld R.ICU_SRC_CFG_TARGET (if u.pool = 1 then 31 else p.bead / 64) u.source
      (t1.setFld R.ICU_SRC_CFG_SLOT (p.bead % 64) u.source).setBit R.ICU_SRC_CFG_BOUND true u.source
    | none => t) s

/-- Status and reason of a slot's last load or activation. -/
def imgResult (s : State) (i : Nat) (st : Status) (reason : Nat) : State :=
  (s.setFld R.LTAB_IMG_RES_STATUS st.code i).setFld R.LTAB_IMG_RES_REASON reason i

/-- The beads of image slot j leave, and its sources are unbound. -/
def imageOut (s : State) (j : Nat) : State :=
  let x := s.image j
  let s1 := x.placed.foldl (fun t q => t.unloadBead q.2) s
  let s2 := if j < 64 ∧ s1.imgState j = 5 then x.mpi.subs.foldl (fun t u => t.unbind u.source) s1 else s1
  s2.setImage j { x with placed := [], unloading := false, wasActive := false }

/-- Beads of an image that a DEACTIVATE has left in their slots are unloaded. -/
def unplace (s : State) (x : Image) : State := x.placed.foldl (fun t q => t.unloadBead q.2) s

/-- Activate image slot i in one step at a frame edge; `clear` zeroes its regions. -/
def activateNow (s : State) (i : Nat) (ps : List Place) (clear : Bool) : State :=
  let x := s.image i
  let old := s.replacedBy i
  let s1 := match old with
    | some j => (s.imageOut j).setFld R.LTAB_IMG_STATE 3 j
    | none => s
  let s1 := s1.unplace x
  let s2 := if clear then s1.imageMemory x.mpi (old.map (fun j => (s.image j).mpi)) x.bytes else s1
  let s3 := ps.foldl loadBead s2
  let s4 := s3.bindAll x.mpi ps
  let s5 := s4.setImage i { x with placed := ps.map (fun p => (p.index, p.bead)), edges := 0, unloading := false, wasActive := true }
  let s6 := ps.foldl (fun t p => if p.entry.flags.testBit 1 then t.startNow p.bead else t) s5
  (((s6.setFld R.LTAB_IMG_STATE 5 i).imgResult i .ok 0).setFld R.LTAB_IMG_ACT_FRAME s6.fr.number i).admitSync

/-- Activate slot i, or leave it LOADED with its reason. -/
def activateChecked (s : State) (i : Nat) (clear : Bool) : State :=
  match s.checkPlace i with
  | .ok ps => s.activateNow i ps clear
  | .error (st, r) => ((s.setImage i { s.image i with wasActive := false }).setFld R.LTAB_IMG_STATE 3 i).imgResult i st r

/-- Some bead of image slot j is RUNNING. -/
def imageRuns (s : State) (j : Nat) : Bool := (s.image j).placed.any (fun q => decide (s.beadState q.2 = stRunning))

/-- The switch to image slot i waits: a bead of the image it replaces, or of its own earlier activation, is RUNNING. -/
def switchWaits (s : State) (i : Nat) : Bool :=
  (match s.replacedBy i with
   | some j => s.imageRuns j
   | none => false) || ((s.image i).unloading && s.imageRuns i)

/-- An image that UNLOAD has taken out of its slot leaves with its last bead. -/
def dropLeft (s : State) (j : Nat) : State := if j < 64 then s else { s with images := SMap.set {} s.images j {} }

/-- Image switches of a frame edge: those ACTIVATING whose predecessor has no bead RUNNING, and images to be unloaded. -/
def imageEdge (s : State) : State :=
  let s1 := (s.imagesIn 4).foldl (fun t i =>
    let x := t.image i
    let t1 := t.setImage i { x with edges := x.edges + 1 }
    if t1.switchWaits i then t1 else t1.activateChecked i true) s
  let out := (s1.images.filter (fun (e : Nat × Image) => e.2.unloading && !s1.imageRuns e.1)).map (fun e => e.1)
  if out.isEmpty then s1 else (out.foldl (fun t j => (t.imageOut j).dropLeft j) s1).admitSync

/-- Slot i is no longer among the images to be activated again. -/
def notAgain (s : State) (i : Nat) : State := { s with flt := { s.flt with images := s.flt.images.filter (fun j => decide (j ≠ i)) } }

/-- At a frame edge after a start or GARNET, the next image that was ACTIVE is activated again (R138, 21 R453, R454); it waits while a bead
of an image that it replaces is RUNNING (R135). Commands in the meantime change nothing of it: also an image of whose NAME a newer one has
become ACTIVE is activated in its turn (DESIGN CHOICE, log entry 165). -/
def imageAgain (s : State) : State :=
  if !s.ready 8 ∨ s.flt.reverify then s
  else match s.flt.images with
    | [] => s
    | i :: is =>
      if s.imgState i = 3 ∧ s.switchWaits i then s
      else
        let t : State := { s with flt := { s.flt with images := is } }
        if t.imgState i = 3 then t.activateChecked i true else t

/-! ### Loading (R134, R135) -/

/-- Checks 1 to 4. -/
def checkForm (s : State) (bs : List Byte) : Option (Status × Nat) :=
  let m := mpiOf bs
  if !fmtOk bs then some (.invalid, 1)
  else if !sizeOk bs m then some (.invalid, 2)
  else
    match if coseSign1 (bs.drop m.sigOff) then s.keyVerify 2 (bs.take m.sigOff) (bs.drop m.sigOff) else .auth with
    | .ok => if levelOk bs m then none else some (.version, 4)
    | st => some (st, 3)

/-- Bytes of the program store in use. -/
def storeUsed (s : State) : Nat := (s.images.map (fun (e : Nat × Image) => if e.2.stored then e.2.bytes.length else 0)).sum

/-- Every check of R134 on image slot i; `again`: without checks 5, 13 and 14 (R138). -/
def checkImage (s : State) (i : Nat) (again : Bool) : Option (Status × Nat) :=
  let bs := (s.image i).bytes
  let m := mpiOf bs
  match s.checkForm bs with
  | some r => some r
  | none =>
    let held := (s.imagesIn 3 ++ s.imagesIn 4 ++ s.imagesIn 5).any (fun j =>
      decide (j ≠ i ∧ (s.image j).mpi.name = m.name ∧ m.version ≤ (s.image j).mpi.version))
    if !again ∧ held then some (.refusedState, 5)
    else match checkProgram s.part bs m with
      | some r => some r
      | none =>
        if !again ∧ Config.programStore < s.storeUsed + bs.length then some (.noSpace, 14)
        else match (s.setImage i { s.image i with mpi := m }).checkPlace i with
          | .ok _ => none
          | .error r => some r

/-- The first empty slot, when fewer than 64 images are held. -/
def freeSlot (s : State) : Option Nat := (List.range 64).find? (fun i => decide (s.imgState i = 0))

/-- The lowest handle not in use. -/
def freeHandle (s : State) : Nat :=
  ((List.range 255).find? (fun h => !(List.range 64).any (fun i => decide (s.imgState i ≠ 0 ∧ s.imgHandle i = h + 1)))).getD 0 + 1

/-- Empty a slot's registers. -/
def clearSlot (s : State) (i : Nat) : State :=
  let a := R.LTAB_IMG_STATE.at i 0
  (((({ s with images := SMap.set {} s.images i {} }).wr a 0).wr (a + 4) 0).wr (a + 8) 0).wr (a + 12) 0xFFFFFFFF

/-- A load request is accepted. -/
def imgReceive (s : State) (slot session id : Nat) : State :=
  let h := s.freeHandle
  (((s.clearSlot slot).setImage slot { session := session, reqId := id }).setFld R.LTAB_IMG_STATE 1 slot).setFld R.LTAB_IMG_HANDLE h slot

/-- The image slot that a request is filling. -/
def imgOfRequest (s : State) (session id : Nat) : Option Nat :=
  (s.imagesIn 1).find? (fun i => decide ((s.image i).session = session ∧ (s.image i).reqId = id))

/-- The last byte has come. -/
def imgReceived (s : State) (session id : Nat) (bs : List Byte) : State :=
  match s.imgOfRequest session id with
  | some i => (s.setImage i { s.image i with bytes := bs }).setFld R.LTAB_IMG_STATE 2 i
  | none => s

/-- What a verified image shows of itself. -/
def imgShow (s : State) (i : Nat) (m : Mpi) : State :=
  ((s.setFld R.LTAB_IMG_BEADS m.beads.length i).setFld R.LTAB_IMG_RES_ISA (m.isa / 256 % 16 * 16 + m.isa % 16) i).setFld R.LTAB_IMG_VER_VERSION m.version i

/-- Run the checks on slot i; an ISA level that is not offered is recorded (01 R25). -/
def imgVerify (s : State) (i : Nat) : State :=
  let x := s.image i
  match s.checkImage i false with
  | none =>
    let m := mpiOf x.bytes
    let s1 := (s.setImage i { x with mpi := m, stored := true }).imgShow i m
    (((s1.setFld R.LTAB_IMG_STATE 3 i).imgResult i .ok 0).trialWrite 1).respond x.session x.reqId .ok [s.imgHandle i]
  | some (st, r) =>
    let s1 := (s.setImage i { x with bytes := [], mpi := {} }).setFld R.LTAB_IMG_STATE 6 i
    let s2 := if st = .version then s1.report 0 0x13 .imageVersion [i] [st.code] else s1
    (s2.imgResult i st r).respond x.session x.reqId st [(r : Int)]

/-! ### LTAB_IMG_CTRL (R135) -/

def imgActivate (s : State) (i : Nat) : Status × State :=
  if s.imgState i = 0 then (.invalid, s)
  else if !s.ready 8 then (.notReady, s)
  else if s.imgState i ≠ 3 then (.refusedState, s)
  else match s.checkPlace i with
    | .error (st, r) => (st, s.imgResult i st r)
    | .ok _ => (.ok, ((s.setImage i { s.image i with edges := 0 }).setFld R.LTAB_IMG_STATE 4 i).imgResult i .ok 0)

/-- STOP of a bead whose image is deactivated. -/
def beadStop (s : State) (n : Nat) : State :=
  let st := s.beadState n
  if st = stWaitEvent ∨ st = stWaitFrame then (s.setBeadState n stIdle).syncNext n
  else if st = stRunning ∨ st = stReady then s.setBead n { s.bead n with stopReq := true }
  else s

def imgDeactivate (s : State) (i : Nat) : Status × State :=
  if s.imgState i = 0 then (.invalid, s)
  else if s.imgState i ≠ 5 then (.refusedState, s)
  else
    let x := s.image i
    let s1 := x.placed.foldl (fun t q => t.beadStop q.2) s
    let s2 := x.mpi.subs.foldl (fun t u => t.unbind u.source) s1
    (.ok, ((s2.notAgain i).setImage i { x with unloading := true, wasActive := false }).setFld R.LTAB_IMG_STATE 3 i)

/-- A number of the images' map, beyond the slots, under which no image stands. -/
def freeLeaving (s : State) : Nat := s.images.foldl (fun m e => max m (e.1 + 1)) 64

/-- Slot i is freed while beads of its image are in their places: they stay in their places, under a number beyond the slots, until the first edge
with none of them RUNNING (R135; DEDUCED, log entry 138). -/
def leaveSlot (s : State) (i : Nat) : State :=
  let x := s.image i
  let k := s.freeLeaving
  let s1 := s.setImage k { x with bytes := [], stored := false, wasActive := false, unloading := true }
  x.placed.foldl (fun t q => t.setBead q.2 { t.bead q.2 with slot := k }) s1

def imgUnload (s : State) (i : Nat) : Status × State :=
  if s.imgState i = 0 then (.invalid, s)
  else if s.imgState i ≠ 3 ∧ s.imgState i ≠ 6 then (.refusedState, s)
  else
    let t := s.notAgain i
    let u := if (t.image i).placed.isEmpty then t.imageOut i else t.leaveSlot i
    (.ok, ((u.clearSlot i).admitSync).trialWrite 1)

def writeImgCtrl (s : State) (v : Word) : Status × State :=
  let i := getBits v 0 6
  match getBits v 8 2 with
  | 1 => s.imgActivate i
  | 2 => s.imgDeactivate i
  | 3 => s.imgUnload i
  | _ => (.invalid, s)

/-- The 50th frame edge after ACTIVATE, a replaced bead still RUNNING. -/
def imgTimeout (s : State) (i : Nat) : State :=
  if s.imgState i = 4 ∧ 50 ≤ (s.image i).edges ∧ s.switchWaits i then (s.setFld R.LTAB_IMG_STATE 3 i).imgResult i .busy 0 else s

/-! ### Verifying again (R138) -/

/-- Stored images in handle order. -/
def storedImages (s : State) : List Nat :=
  let is := (s.images.filter (fun (e : Nat × Image) => e.2.stored)).map (fun e => e.1)
  (sortNat (is.map (fun i => s.imgHandle i * 64 + i))).map (fun k => k % 64)

/-- Verify every stored image again; those that fail are left LOADED with their reason and are not activated. -/
def verifyAgain (s : State) : State :=
  let s0 := { s with flt := { s.flt with reverify := false } }
  s0.storedImages.foldl (fun t i =>
    match t.checkImage i true with
    | none => t
    | some (st, r) =>
      ((t.notAgain i).setImage i { t.image i with wasActive := false }).imgResult i st r) s0

end State

/-! ### Streams (19 R427) -/

namespace State

/-- Open a stream with its first data; refused when the feature STREAM was not agreed. -/
def openStream (s : State) (i id op len : Nat) (data : List Byte) : State :=
  let x := s.sess i
  s.setSess i { x with streams := x.streams ++ [⟨id, op, len, data, [], s.fld R.HOST_WINDOW_KIB * 1024⟩] }

def closeStream (s : State) (i id : Nat) : State :=
  let x := s.sess i
  s.setSess i { x with streams := x.streams.filter (fun y => decide (y.id ≠ id)) }

end State

/-! ### Commands -/

/-- `data`: what the segments that follow at once bring, of `len` bytes in all. -/
def execImageLoad (i : Fin 8) (id len : Nat) (data : List Byte) (txn : Bool) (s : State) : Out :=
  .next (s.request i id 3 false (fun t =>
    if !t.sessFeature i 0 then t.respond i id .version []
    else if txn then t.txnRefused i id
    else if !t.bit R.LTAB_STAT_RESTORED then t.respond i id .notReady []
    else match t.freeSlot with
      | none => t.respond i id .noSpace [13]
      | some slot =>
        let t1 := t.imgReceive slot i id
        if data.length < len then t1.openStream i id 0x30 len data
        else if data.length = len then t1.imgReceived i id data
        else (t1.clearSlot slot).respond i id .invalid []))

def execImageVerify (i : Fin 64) (us : Fin 20000) (s : State) : Out :=
  .next (if s.imgState i = 2 ∧ s.poweredOn then (s.atUs us).imgVerify i else s)

/-- At a frame edge that finds a replaced bead RUNNING. -/
def execImageActivateTimeout (i : Fin 64) (s : State) : Out := .next (if s.framesRun then s.imgTimeout i else s)

def execImageReverify (us : Fin 20000) (s : State) : Out :=
  .next (if s.poweredOn ∧ s.ready 8 ∧ s.flt.reverify then (s.atUs us).verifyAgain else s)

end Sys2Proof.Machine
end

