-- ==== Sys2Proof/Machine/MeterLink.lean ====
section
/-! DEFINITION. The meter link as bytes (13_meter_island.md R335, R337, R342): CRCs, frames, the MEAS record, the island log record, and the
payloads of the other frames. Log entry 182 has the sizes and orders that the spec's tables leave open. -/

namespace Sys2Proof.Machine

/-! ### CRC -/

/-- One step of a reflected CRC-32. -/
def crcBit (poly c : BitVec 32) : BitVec 32 := if c.getLsbD 0 then (c >>> 1) ^^^ poly else c >>> 1

def crcByte (poly c : BitVec 32) (b : Byte) : BitVec 32 :=
  let x := c ^^^ b.setWidth 32
  crcBit poly (crcBit poly (crcBit poly (crcBit poly (crcBit poly (crcBit poly (crcBit poly (crcBit poly x)))))))

/-- A reflected CRC-32 with initial value and final XOR 0xFFFFFFFF. -/
def crc32 (poly : BitVec 32) (bs : List Byte) : BitVec 32 := ~~~(bs.foldl (crcByte poly) 0xFFFFFFFF)

/-- CRC-32C (16 R379, 13 R335): polynomial 0x1EDC6F41, reflected. -/
def crc32c (bs : List Byte) : BitVec 32 := crc32 0x82F63B78 bs

/-- CRC-32 of IEEE 802.3 (R333). -/
def crc32ieee (bs : List Byte) : BitVec 32 := crc32 0xEDB88320 bs

/-! ### Frames (R335) -/

/-- The little-endian number of `n` bytes from an offset. -/
def leAt (bs : List Byte) (off n : Nat) : Nat := leNat ((bs.drop off).take n)

/-- A frame: TYPE, the counter of its direction, and its payload. -/
def linkFrame (typ counter : Nat) (payload : List Byte) : List Byte :=
  let body := [0xA5, 0x5A, 0x02, BitVec.ofNat 8 typ] ++ leBytes 2 payload.length ++ leBytes 2 counter ++ payload
  body ++ leBytes 4 (crc32c body).toNat

/-- The LENGTHs that a TYPE allows. -/
def linkLength (typ len : Nat) : Bool :=
  match typ with
  | 0x01 => decide (len = 20)
  | 0x02 => decide (len = 2)
  | 0x10 => decide (len = 256)
  | 0x11 => decide (len = 32)
  | 0x20 => decide (len = 7)
  | 0x21 => decide (len = 10)
  | 0x22 => decide (len = 8)
  | 0x23 => decide (len = 0)
  | 0x24 => decide (len = 16)
  | 0x30 => decide (len = 16)
  | _ => decide (len ≤ 1024)

/-- The frame at the head of a byte string, when its MAGIC, VERSION, LENGTH and CRC are right: TYPE, payload, and what follows. -/
def linkHead (bs : List Byte) : Option (Nat × List Byte × List Byte) :=
  let typ := leAt bs 3 1
  let len := leAt bs 4 2
  if bs.take 3 = [0xA5, 0x5A, 0x02] ∧ linkLength typ len ∧ 12 + len ≤ bs.length ∧
      leAt bs (8 + len) 4 = (crc32c (bs.take (8 + len))).toNat then
    some (typ, (bs.drop 8).take len, bs.drop (12 + len))
  else none

/-- The bytes from the next MAGIC on. -/
def nextMagic : List Byte → List Byte
  | [] => []
  | b :: bs => if b = 0xA5 ∧ bs.head? = some 0x5A then b :: bs else nextMagic bs

/-- What a receiver makes of the bytes that arrive: the valid frames, as TYPE and payload, and how many it discarded. -/
def linkScan : Nat → List Byte → List (Nat × List Byte) × Nat
  | 0, _ => ([], 0)
  | _ + 1, [] => ([], 0)
  | n + 1, b :: bs =>
    match linkHead (b :: bs) with
    | some (typ, payload, rest) => let r := linkScan n rest; ((typ, payload) :: r.1, r.2)
    | none => let r := linkScan n (nextMagic bs); (r.1, r.2 + 1)

/-- The payloads of the valid frames of one TYPE, and how many frames were discarded. -/
def linkPayloads (typ : Nat) (bs : List Byte) : List (List Byte) × Nat :=
  let r := linkScan bs.length bs
  ((r.1.filter (fun p => decide (p.1 = typ))).map (fun p => p.2), r.2)

/-! ### Records -/

/-- The MEAS record of R337, 256 bytes. -/
def measBytes (m : Meas) : List Byte :=
  let phase (p : List Nat) : List Byte :=
    leBytes 2 (p.getD 0 0) ++ leBytes 2 (p.getD 1 0) ++ leBytes 4 (p.getD 2 0) ++ leBytes 4 (p.getD 3 0) ++ leBytes 4 (p.getD 4 0)
  leBytes 4 m.seq ++ leBytes 6 m.secs ++ leBytes 2 m.status ++ fitBytes 96 (m.energy.flatMap (leBytes 8)) ++ leBytes 4 m.demLast ++
    leBytes 4 m.demMax ++ leBytes 4 m.demPer ++ leBytes 4 m.demPrev ++ leBytes 2 m.demFlags ++ leBytes 2 m.freq ++
    fitBytes 48 (m.phases.flatMap phase) ++ fitBytes 48 (m.feeders.flatMap (fun f => leBytes 4 f.1 ++ leBytes 4 f.2)) ++
    fitBytes 24 (m.events.flatMap (leBytes 4)) ++ leBytes 4 (m.used % 2 ^ 14 + m.unlogged % 2 ^ 16 * 2 ^ 16) ++ leBytes 4 m.alarm

/-- The record that 256 bytes spell. -/
def measOf (bs : List Byte) : Meas :=
  { seq := leAt bs 0x00 4, secs := leAt bs 0x04 6, status := leAt bs 0x0A 2
    energy := (List.range 12).map (fun r => leAt bs (0x0C + 8 * r) 8)
    demLast := leAt bs 0x6C 4, demMax := leAt bs 0x70 4, demPer := leAt bs 0x74 4, demPrev := leAt bs 0x78 4
    demFlags := leAt bs 0x7C 2, freq := leAt bs 0x7E 2
    phases := (List.range 3).map (fun k =>
      let o := 0x80 + 16 * k
      [leAt bs o 2, leAt bs (o + 2) 2, leAt bs (o + 4) 4, leAt bs (o + 8) 4, leAt bs (o + 12) 4])
    feeders := (List.range 6).map (fun f => (leAt bs (0xB0 + 8 * f) 4, leAt bs (0xB4 + 8 * f) 4))
    events := (List.range 6).map (fun j => leAt bs (0xE0 + 4 * j) 4)
    used := leAt bs 0xF8 4 % 2 ^ 14, unlogged := leAt bs 0xFA 2, alarm := leAt bs 0xFC 4 }

/-- The island log record of R342, 32 bytes. -/
def islRecBytes (index : Nat) (r : IslRec) : List Byte :=
  leBytes 2 index ++ leBytes 2 r.code ++ leBytes 6 r.secs ++ [0, 0] ++ fitBytes 20 r.data

/-- Its index and content. -/
def islRecOf (bs : List Byte) : Nat × IslRec := (leAt bs 0 2, ⟨leAt bs 2 2, leAt bs 4 6, (bs.drop 12).take 20⟩)

/-- A signed number as four bytes, and the number that four bytes spell. -/
def leSigned (x : Int) : List Byte := leBytes 4 (x % 2 ^ 32).toNat
def signedAt (bs : List Byte) (off : Nat) : Int := (BitVec.ofNat 32 (leAt bs off 4)).toInt

end Sys2Proof.Machine
end

