-- ==== Sys2Proof/Machine/Rtc.lean ====
section
/-! DEFINITION. The real-time clock (15_clock_and_calendar.md): fields, commits, alarms, steering and the event inputs. -/

namespace Sys2Proof.Machine

namespace State

/-! ### Alarms (R370 to R373) -/

/-- Bit i of CMP: 0 SEC, 1 MIN, 2 HOUR, 3 WEEKDAY, 4 DAY, 5 MONTH, 6 YEAR. -/
def almCmp (s : State) (a i : Nat) : Bool := (s.fld R.RTC_ALM_CTRL_CMP a).testBit i

/-- The alarm's date fields match a date. -/
def almDate (s : State) (a : Nat) (t : RtcTime) : Bool :=
  let w := s.rd (R.RTC_ALM_DATE_DATE.at a 0)
  (!s.almCmp a 3 || decide (getBits w 17 3 = t.weekday)) && (!s.almCmp a 4 || decide (getBits w 0 5 = t.day)) &&
    (!s.almCmp a 5 || decide (getBits w 5 4 = t.month)) && (!s.almCmp a 6 || decide (getBits w 9 8 = t.year))

/-- The alarm's time fields match a time of day. -/
def almTod (s : State) (a h m sec : Nat) : Bool :=
  let w := s.rd (R.RTC_ALM_TIME_TIME.at a 0)
  (!s.almCmp a 0 || decide (getBits w 0 6 = sec)) && (!s.almCmp a 1 || decide (getBits w 6 6 = m)) &&
    (!s.almCmp a 2 || decide (getBits w 12 5 = h))

def almMatch (s : State) (a : Nat) (t : RtcTime) : Bool := s.almDate a t && s.almTod a t.hour t.min t.sec

/-- The match period of a repeating alarm, by its most significant compared field (R372). -/
def almPeriod (s : State) (a : Nat) : Nat :=
  if s.almCmp a 5 then 31536000
  else if s.almCmp a 4 then 2419200
  else if s.almCmp a 3 then 604800
  else if s.almCmp a 2 then 86400
  else if s.almCmp a 1 then 3600
  else 60

/-- Alarm a fires (R373). -/
def almFire (s : State) (a : Nat) (late : Bool) : State :=
  let s1 := s.setFld R.RTC_EVT_ALM (s.fld R.RTC_EVT_ALM ||| 2 ^ a)
  let s2 := if late then s1.setFld R.RTC_EVT_LATE (s1.fld R.RTC_EVT_LATE ||| 2 ^ a) else s1
  let s3 := s2.setFld R.RTC_ALM_LAST_MONO (s2.fld R.RTC_MONO_SECONDS) a
  let s4 := if s3.bit R.RTC_ALM_CTRL_REPEAT a then s3 else s3.setBit R.RTC_ALM_CTRL_ARM false a
  if s4.bit R.RTC_ALM_CTRL_WAKE a ∧ s4.poweredOn then s4.powerRequest false else s4

/-- Alarm a at a second tick. -/
def almTick (s : State) (a : Nat) : State :=
  if !s.bit R.RTC_ALM_CTRL_ARM a ∨ !s.almMatch a s.rtcTime then s
  else if !s.bit R.RTC_ALM_CTRL_REPEAT a then s.almFire a false
  else if s.almPeriod a ≤ (s.fld R.RTC_MONO_SECONDS + 2 ^ 32 - s.fld R.RTC_ALM_LAST_MONO a) % 2 ^ 32 then s.almFire a false
  else (s.setFld R.RTC_EVT_SUPP (s.fld R.RTC_EVT_SUPP ||| 2 ^ a)).addSat R.RTC_ALM_CTRL_SUPPRESSED 1 a

/-- A match lies among the times of day `lo` to `hi`. -/
def almTodIn (s : State) (a lo hi : Nat) : Bool :=
  (List.range 86400).any (fun x => decide (lo ≤ x ∧ x ≤ hi) && s.almTod a (x / 3600) (x / 60 % 60) (x % 60))

/-- A second of (old, new] matches alarm a. -/
def almSkipped (s : State) (a : Nat) (old new : Int) : Bool :=
  let z0 := Int.fdiv (old + 1) 86400
  let z1 := Int.fdiv new 86400
  decide (old < new) && (List.range (z1 - z0 + 1).toNat).any (fun k =>
    let z := z0 + (k : Int)
    let lo := if z = z0 then (old + 1 - z * 86400).toNat else 0
    let hi := if z = z1 then (new - z * 86400).toNat else 86399
    s.almDate a (RtcTime.ofSecs (z * 86400)) && s.almTodIn a lo hi)

/-- After a forward change of time, armed one-shot alarms that it skipped fire late (R371). -/
def almSkips (s : State) (old new : Int) : State :=
  ([0, 1] : List Nat).foldl (fun t a =>
    if t.bit R.RTC_ALM_CTRL_ARM a ∧ !t.bit R.RTC_ALM_CTRL_REPEAT a ∧ t.almSkipped a old new then t.almFire a true else t) s

/-! ### Setting the time (R365, R366) -/

/-- The fields take a new time; with `sec` the prescaler restarts. OSF clears, skipped alarms fire, the epoch rules apply. -/
def rtcCommit (s : State) (t : RtcTime) (sec : Bool) (source : Nat) : State :=
  let old := s.rtcTime.secs
  let s1 := (s.setRtcTime t).setBit R.RTC_STATUS_OSF false
  let part := s.rtcPartNs
  let s2 := if sec then { s1 with rtc := { s1.rtc with tickNs := s1.nowNs, base := 0, steered := 0 } } else s1
  (s2.almSkips old t.secs).epochStep source (old * 1000000000 + part) (t.secs * 1000000000 + (if sec then 0 else part))

/-- The outcome of a commit. -/
def rtcResult (s : State) (st : Status) (source : Nat) : State :=
  (s.setFld R.RTC_SET_RES_STATUS st.code).setFld R.RTC_SET_RES_SOURCE source

/-- RTC_SET: commit the named groups of the shadows; source 0 GSP, 2 supervisor. -/
def writeRtcSet (s : State) (source : Nat) (v : Word) : Status × State :=
  let date := v.getLsbD 0
  let hm := v.getLsbD 1
  let sec := v.getLsbD 2
  if !date ∧ !hm ∧ !sec then (.invalid, s)
  else if source = 0 ∧ s.fld R.NTU_STAT_STATE = 2 then (.refusedState, s.rtcResult .refusedState source)
  else
    let r := s.rtcTime
    let d := s.rd R.RTC_SET_DATE_DATE.addr
    let m := s.rd R.RTC_SET_TIME_TIME.addr
    let t : RtcTime :=
      { year := if date then getBits d 9 8 else r.year, month := if date then getBits d 5 4 else r.month
        day := if date then getBits d 0 5 else r.day, hour := if hm then getBits m 12 5 else r.hour
        min := if hm then getBits m 6 6 else r.min, sec := if sec then getBits m 0 6 else r.sec }
    if !t.valid then (.dateInvalid, s.rtcResult .dateInvalid source)
    else (.ok, (s.rtcCommit t sec source).rtcResult .ok source)

/-- RTC_ALM_CTRL[a] (R370). -/
def almStatus (s : State) (a : Nat) (v : Word) : Status :=
  let cmp := getBits v 3 7
  let dw := s.rd (R.RTC_ALM_DATE_DATE.at a 0)
  let tw := s.rd (R.RTC_ALM_TIME_TIME.at a 0)
  let day := getBits dw 0 5
  let month := getBits dw 5 4
  let year := getBits dw 9 8
  let has (i : Nat) : Bool := cmp.testBit i
  let rep := v.getLsbD 1
  if !v.getLsbD 0 then .ok
  else if cmp = 0 ∨ (rep ∧ has 6) then .invalid
  else if (has 0 ∧ 60 ≤ getBits tw 0 6) ∨ (has 1 ∧ 60 ≤ getBits tw 6 6) ∨ (has 2 ∧ 24 ≤ getBits tw 12 5) ∨
      (has 3 ∧ 6 < getBits dw 17 3) ∨ (has 4 ∧ day = 0) ∨ (has 5 ∧ (month = 0 ∨ 12 < month)) ∨ (has 6 ∧ 199 < year) then .range
  else if has 4 ∧ has 5 ∧ (monthDays (if has 6 then 2000 + year else 2000) month < (day : Int)) then .dateInvalid
  else if cmp = 127 ∧ !rep ∧
      (RtcTime.mk year month day (getBits tw 12 5) (getBits tw 6 6) (getBits tw 0 6)).secs ≤ s.rtcTime.secs then .late
  else .ok

def writeAlmCtrl (s : State) (a : Nat) (v : Word) : Status × State :=
  match s.almStatus a v with
  | .ok => (.ok, s.setFld ⟨R.RTC_ALM_CTRL_ARM.addr, R.RTC_ALM_CTRL_ARM.stride, 0, 0, 10⟩ (v.toNat % 1024) a)
  | st => (st, s)

/-! ### Registers -/

/-- The RTC registers whose writes are not plain; `sup`: from the supervisor. -/
def rtcWrite (s : State) (sup : Bool) (a : Nat) (v : Word) : Option (Status × State) :=
  if a = R.RTC_SET_DATE.addr then some (s.writeRtcSet (if sup then 2 else 0) v)
  else if 0xB0040 ≤ a ∧ a < 0xB0060 ∧ a % 16 = 8 then some (s.writeAlmCtrl ((a - 0xB0040) / 16) v)
  else if 0xB0200 ≤ a ∧ a < 0xB0280 ∧ a % 32 = 0x14 then
    let i := (a - 0xB0200) / 32
    some (.ok, if v.getLsbD 0 then s.setEvin i (s.evin i).tail else s)
  else none

/-- The live views: the prescaler, the head entries, and STEERING, which ends when the difference has fallen below 61 µs (R369). -/
def rtcView (s : State) (a : Nat) (w : Word) : Word :=
  if a = R.RTC_SUBSEC_COUNT.addr then BitVec.ofNat 32 s.rtcSub
  else if 0xB0200 ≤ a ∧ a < 0xB0280 then
    match (s.evin ((a - 0xB0200) / 32)).head? with
    | some e =>
      if a % 32 = 0x08 then BitVec.ofNat 32 e.date
      else if a % 32 = 0x0C then BitVec.ofNat 32 e.time
      else if a % 32 = 0x10 then BitVec.ofNat 32 e.sub
      else w
    | none => w
  else if a = R.RTC_STATUS_STEERING.addr ∧ s.rtc.steerEnd ≤ s.nowNs then
    putBits w R.RTC_STATUS_STEERING.lo R.RTC_STATUS_STEERING.width 0
  else w

/-! ### Ticks and steering (R363, R368, R369) -/

/-- The always-on domain has a source. -/
def alwaysOn (s : State) : Bool := decide (s.pwr.mode ≠ .off)

/-- The state at `us` µs after the last tick edge where module time runs: within the frame on VAUX, on through ONYX. -/
def rtcClock (s : State) (us : Nat) : State :=
  match s.pwr.mode with
  | .on => s.atUs (min us 19999)
  | .onyx => s.atUs us
  | _ => s

/-- Steering whose time is over has stopped (R369). -/
def steerStop (s : State) : State :=
  if s.bit R.RTC_STATUS_STEERING ∧ s.rtc.steerEnd ≤ s.nowNs then s.setBit R.RTC_STATUS_STEERING false else s

/-- One second tick. -/
def rtcTick (s0 : State) : State :=
  let s := s0.steerStop
  let t := s.rtcTime.secs + 1
  let wrap := decide (utcYear t = 2200)
  let s1 := (s.setRtcTime (RtcTime.ofSecs t)).addWrap R.RTC_MONO_SECONDS 1
  let s2 := if wrap then s1.setBit R.RTC_STATUS_OSF true else s1
  let n := (s2.rtc.window + 1) % 32
  let s3 := { s2 with rtc := { s2.rtc with
    tickNs := s2.nowNs, base := 0, steered := 0, window := n, calNow := if n = 0 then s2.fldI R.RTC_CAL_CAL else s2.rtc.calNow } }
  (s3.almTick 0).almTick 1

/-- RTC time minus module UTC, µs. -/
def rtcDiff (s : State) : Int :=
  s.rtcTime.secs * 1000000 + ((s.rtcPartNs / 1000 : Nat) : Int) - (((s.nowNs / 1000 : Nat) : Int) - s.utcOffset * 1000000)

/-- The comparison of every 10 s in LOCKED: at 976.6 ppm, 1,024 µs of steering remove 1 µs. -/
def rtcSteer (s : State) : State :=
  let d := s.rtcDiff
  let s0 : State := { s with rtc := { s.rtc with steered := s.rtcSteered, steerFrom := s.nowNs } }
  let s1 := s0.setFldI R.RTC_STEER_DIFF (clampI d (-(2 ^ 31)) (2 ^ 31 - 1))
  if d.natAbs < 2000000 then
    let run := decide (61 ≤ d.natAbs)
    let n : Int := (min 320 (d.natAbs * 32768 / 1000000) : Nat)
    let s2 := s1.setBit R.RTC_STATUS_STEERING run
    if run then
      { s2 with rtc := { s2.rtc with steer := s2.rtc.steer + (if 0 < d then -n else n), steerEnd := s2.nowNs + (d.natAbs - 60) * 1024000 } }
    else s2
  else
    let u := s1.nowNs + 999999999
    ({ s1 with rtc := { s1.rtc with stepNs := some (u - u % 1000000000) } }).setBit R.RTC_STATUS_STEERING false

/-- The step of the RTC at a whole second of module UTC. Whole seconds lie at frame edges but for the edge's phase error, so the commit is
made at the nearest edge, and the prescaler counts from the whole second (log entry 98). -/
def rtcEdge (s : State) : State :=
  match s.rtc.stepNs with
  | none => s
  | some ns =>
    if s.nowNs + 10000000 < ns then s
    else
      let s0 := { s with rtc := { s.rtc with stepNs := none } }
      let utc : Int := (ns / 1000000000 : Nat) - s.utcOffset
      let new := RtcTime.ofSecs utc
      if s.fld R.NTU_STAT_STATE ≠ 2 then s0
      else if !new.valid ∨ utcYear utc < 2000 ∨ 2199 < utcYear utc then s0.rtcResult .dateInvalid 1
      else
        let old := s0.rtcTime.secs
        let s1 := s0.rtcCommit new true 1
        (({ s1 with rtc := { s1.rtc with tickNs := ns } } : State).rtcResult .ok 1).report 0 0x0B .rtcStep [] [old.toNat, new.secs.toNat]

/-- The adjustment of CAL after an hour in LOCKED: the net steering in units of CAL, to the nearest. -/
def calAdjust (s : State) : State :=
  let n := s.rtc.steer * 1000000000
  let q : Int := 117964800 * 954
  let u := if 0 ≤ n then Int.fdiv (2 * n + q) (2 * q) else -(Int.fdiv (-(2 * n) + q) (2 * q))
  s.setFldI R.RTC_CAL_CAL (clampI (s.fldI R.RTC_CAL_CAL + u) (-512) 511)

/-- The always-on domain starts from OFF (R367, R374, R375): fields, shadows, RTC_MONO, backup RAM, the watch flags and
EVIN start anew. -/
def rtcCold (s : State) : State :=
  let s0 := { s with regs := SMap.clear s.regs 0xB0000 0xB029F, rtc := { tickNs := s.nowNs } }
  let s1 := s0.setRtcTime ⟨0, 1, 1, 0, 0, 0⟩
  ((s1.setFld R.RTC_MONO_SECONDS 0).setBit R.RTC_STATUS_OSF true).setFld R.WCH_BKP_FLAGS_FLAG 0

end State

/-! ### Commands -/

/-- `us`: time since the last tick edge, as far as module time runs. -/
def execRtcSecondTick (us : Nat) (s : State) : Out := .next (if s.alwaysOn then (s.rtcClock us).rtcTick else s)

/-- No crystal edge for more than 1 ms (R367). -/
def execOscillatorStop (s : State) : Out := .next (if s.alwaysOn then s.setBit R.RTC_STATUS_OSF true else s)

/-- One that comes sooner than 10 s after the last does nothing. -/
def execRtcSteerCheck (us : Fin 20000) (s : State) : Out :=
  let t := s.atUs us
  .next (if s.poweredOn ∧ s.fld R.NTU_STAT_STATE = 2 ∧ t.rtc.checkNs ≤ t.nowNs then
      ({ t with rtc := { t.rtc with checkNs := t.nowNs + 10000000000 } }).rtcSteer
    else s)

/-- 3,600 s in LOCKED have passed (R369). -/
def execRtcCalAuto (s : State) : Out :=
  .next (match s.rtc.hourNs with
    | some t =>
      if s.poweredOn ∧ s.fld R.NTU_STAT_STATE = 2 then
        s.whenDue (t + 3600000000000) (fun q =>
          let q1 := if q.bit R.RTC_CAL_AUTO then q.calAdjust else q
          { q1 with rtc := { q1.rtc with hourNs := some (t + 3600000000000), steer := 0 } })
      else s
    | none => s)

/-- An edge on an event input of QG-CM16K, after its filter (R375). `us` as in RTC_SECOND_TICK; `count`: the prescaler where module time
does not run. -/
def execEvinEdge (i : Fin 4) (us : Nat) (count : Fin 32768) (rising : Bool) (s : State) : Out :=
  let t := s.rtcClock us
  .next (if s.part.evin ∧ s.alwaysOn then t.evinEdge i (if s.pwr.mode = .backup then count.val else t.rtcSub) rising else s)

end Sys2Proof.Machine
end

