-- ==== Sys2Proof/Machine/Ntu.lean ====
section
/-! DEFINITION. The network time unit (10_network_time.md): ports, masters, the servo, the time states and leap seconds. -/

namespace Sys2Proof.Machine

namespace State

/-! ### Ports (R269, R270) -/

def ntuPort (s : State) (p : Nat) : NtuPort := SMap.find {} s.ntu.ports p

def setNtuPort (s : State) (p : Nat) (x : NtuPort) : State :=
  { s with ntu := { s.ntu with ports := SMap.set {} s.ntu.ports p x } }

/-- SLAVE or MONITOR. -/
def ntuHears (s : State) (p : Nat) : Bool := decide (s.fld R.NTU_PORT_STAT_STATE p = 2 ∨ s.fld R.NTU_PORT_STAT_STATE p = 3)

def ntuActive (s : State) : Nat := s.fld R.NTU_STAT_ACTIVE

/-- The NTU exchanges PTP messages on port p. -/
def ntuRuns (s : State) (p : Nat) : Bool :=
  s.poweredOn && s.ready (14 + p) && s.bit R.NTU_CTRL_PTP_EN && s.bit R.NTU_PORT_CFG_EN p &&
    decide (100 ≤ (s.ntuPort p).speed)

/-- The state and the reason of a port. -/
def portShown (s : State) (p : Nat) : Nat × Nat :=
  let x := s.ntuPort p
  if !s.bit R.NTU_PORT_CFG_EN p then (0, 1)
  else if x.speed = 0 then (0, 2)
  else if x.speed = 10 then (0, 3)
  else if !s.bit R.NTU_CTRL_PTP_EN then (0, 0)
  else if x.master.isNone then (1, 0)
  else if s.ntuActive = p then (2, 0)
  else (3, 0)

def gmOf (s : State) (p : Nat) : Option Nat := (s.ntuPort p).master.map (fun a => a.gm)

/-- Show both ports and XCHK_VALID; without it ASYM_SUSPECT is 0 and the pairs start anew (R279). -/
def portSync (s : State) : State :=
  let s1 := ([0, 1] : List Nat).foldl (fun t p =>
    (t.setFld R.NTU_PORT_STAT_STATE (t.portShown p).1 p).setFld R.NTU_PORT_STAT_REASON (t.portShown p).2 p) s
  let ok := s1.ntuHears 0 && s1.ntuHears 1 && (s1.gmOf 0 == s1.gmOf 1)
  let s2 := s1.setBit R.NTU_STAT_XCHK_VALID ok
  if ok then s2
  else
    let s3 := (s2.setNtuPort 0 { s2.ntuPort 0 with fresh := none })
    let s4 := s3.setNtuPort 1 { s3.ntuPort 1 with fresh := none }
    ({ s4 with ntu := { s4.ntu with pairs := [] } }).setBit R.NTU_STAT_ASYM_SUSPECT false

/-! ### States (R273, R274) -/

def ntuState (s : State) : Nat := s.fld R.NTU_STAT_STATE

/-- Enter a state: NTU_LOCK is set in LOCKED only, and the hour of the RTC's calibration starts with it (15 R369). -/
def setNtuState (s : State) (st : Nat) : State :=
  if s.ntuState = st then s
  else
    let s1 := (s.setFld R.NTU_STAT_STATE st).setBit R.NTU_STAT_LOCK (decide (st = 2))
    if st = 2 then { s1.setReady 17 with rtc := { s1.rtc with hourNs := some s1.nowNs, steer := 0 } }
    else ({ s1.clearReady 17 with rtc := { s1.rtc with hourNs := none, steer := 0, checkNs := 0 } }).setBit R.RTC_STATUS_STEERING false

/-- HOLDOVER: module time runs at the frozen I (R280). -/
def holdover (s : State) (jump : Bool) : State :=
  let s1 := (s.setNtuState 3).setBit R.NTU_STAT_JUMP jump
  ({ s1 with ntu := { s1.ntu with run := 0, accept := false } }).setFldI R.NTU_FREQ_F s1.ntu.integ

def raiseJump (s : State) (p : Nat) : State :=
  let s1 := (s.holdover true).setBit R.NTU_EVT_JUMP true
  { s1 with ntu := { s1.ntu with jumpGm := (s1.gmOf p).getD 0 } }

/-! ### The servo (R272) -/

/-- 500 ppm. -/
def fmax : Int := 128000000

/-- One servo action on an offset in ns. -/
def servo (s : State) (offset logSync : Int) : State :=
  let e0 := clampI (offset * 256) (-(2 ^ 31)) (2 ^ 31 - 1)
  let e := if logSync < 0 then e0 * 2 ^ (-logSync).toNat else sarI e0 logSync.toNat
  let slew : Int := s.fld R.NTU_SLEW_PPM * 256000
  let p := sarI (s.fldI R.NTU_KP_KP * e) (s.fld R.NTU_SHIFT_SP)
  let i := if p.natAbs ≤ slew.natAbs then clampI (s.ntu.integ + sarI (s.fldI R.NTU_KI_KI * e) (s.fld R.NTU_SHIFT_SI)) (-fmax) fmax
    else s.ntu.integ
  ({ s with ntu := { s.ntu with integ := i } }).setFldI R.NTU_FREQ_F (clampI (i + clampI p (-slew) slew) (-fmax) fmax)

/-- The run of measurements within THRESH. -/
def lockRun (s : State) (offset : Int) : State :=
  { s with ntu := { s.ntu with run := if offset.natAbs ≤ s.fld R.NTU_LOCK_CFG_THRESH then s.ntu.run + 1 else 0 } }

/-- R273 is met. -/
def lockMet (s : State) : Bool := decide (s.fld R.NTU_LOCK_CFG_COUNT ≤ s.ntu.run)

/-! ### Leap seconds announced (R267) -/

/-- A leap second is held: when it is due, and of which kind. -/
def holdLeap (s : State) (due : Option (Nat × Bool)) (l61 l59 : Bool) : State :=
  (({ s with fr := { s.fr with leapDue := due } } : State).setBit R.NTU_UTC_LEAP61 l61).setBit R.NTU_UTC_LEAP59 l59

/-- No clock gives the announced day: in RTC without a network clock and with the time of RTC invalid. The flag is then held without a
day until the network clock starts (log entry 79). -/
def dayUnknown (s : State) : Bool := decide (s.ntuState = 0) && s.netNow.isNone && s.bit R.RTC_STATUS_OSF

/-- The leap flags of the active master: the announced day is its present UTC day, its end kept on the clock that day is counted on. One
whose day has ended stands until it takes effect. -/
def takeLeap (s : State) (l61 l59 : Bool) : State :=
  let now := ((s.nowNs : Int) + s.netShift).toNat
  if s.fr.leapDue.any (fun d => decide (d.1 ≤ now)) then s
  else if s.dayUnknown ∨ (!l61 ∧ !l59) then s.holdLeap none l61 (!l61 && l59)
  else
    let dayEnd := (s.utcMsOf now / 86400000 + 1) * 86400000
    s.holdLeap (some (((dayEnd : Int) + s.utcOffset * 1000).toNat * 1000000, l61)) l61 (!l61)

/-- The network clock starts: a leap second held till now is dated anew on it, by the master's newest Announce. -/
def netStart (s : State) (net : Int) : State :=
  let s1 : State := { s with ntu := { s.ntu with net := some net, netNs := s.nowNs } }
  match (s1.ntuPort s1.ntuActive).master with
  | some a => ({ s1 with fr := { s1.fr with leapDue := none } } : State).takeLeap a.leap61 a.leap59
  | none => s1

/-- A measurement of the active port in RTC: it starts the network clock, or steers it. -/
def measureRtc (s : State) (offset logSync : Int) : State :=
  let net := s.netNow.getD (-offset)
  let s1 := if s.netNow.isNone then s.netStart net else { s with ntu := { s.ntu with net := some net, netNs := s.nowNs } }
  let s2 := (s1.servo (offset + net) logSync).lockRun (offset + net)
  if s2.lockMet then { s2 with ntu := { s2.ntu with step := some net } } else s2

/-- A measurement of the active port in LOCKED or TRACK. -/
def measureTrack (s : State) (p : Nat) (offset logSync : Int) : State :=
  if s.fld R.NTU_JUMP_LIMIT_NS < offset.natAbs then s.raiseJump p
  else
    let s1 := (s.servo offset logSync).lockRun offset
    if s1.lockMet then s1.setNtuState 2 else s1

/-- A measurement of the active port in HOLDOVER (R274, R277): an accepted jump is stepped out at the next tick edge, and from another
master the accept is discarded; within the limit the servo resumes from the frozen I. -/
def measureHold (s : State) (p : Nat) (offset logSync : Int) : State :=
  let go (t : State) : State := (t.setNtuState 1).setBit R.NTU_STAT_JUMP false
  let acc := s.ntu.accept && s.bit R.NTU_STAT_JUMP
  let s0 := { s with ntu := { s.ntu with accept := false } }
  if acc then
    (if s.gmOf p = some s.ntu.jumpGm then go { s0 with ntu := { s0.ntu with step := some (-offset) } } else s0)
  else if offset.natAbs ≤ s.fld R.NTU_JUMP_LIMIT_NS then ((go s0).servo offset logSync).lockRun offset
  else if s.bit R.NTU_STAT_JUMP then s0
  else s0.raiseJump p

/-- The dual-path check after a measurement of port p (R279). -/
def xchk (s : State) (p : Nat) (offset : Int) : State :=
  if !s.bit R.NTU_STAT_XCHK_VALID then s
  else
    let s1 := s.setNtuPort p { s.ntuPort p with fresh := some (clampI offset (-(2 ^ 31)) (2 ^ 31 - 1)) }
    match (s1.ntuPort 0).fresh, (s1.ntuPort 1).fresh with
    | some a, some b =>
      let pairs := ((a - b) :: s1.ntu.pairs).take 16
      let x := clampI (Int.fdiv pairs.sum pairs.length) (-(2 ^ 31)) (2 ^ 31 - 1)
      let s2 := { s1 with ntu := { s1.ntu with pairs := pairs } }
      let s3 := s2.setNtuPort 0 { s2.ntuPort 0 with fresh := none }
      let s4 := (s3.setNtuPort 1 { s3.ntuPort 1 with fresh := none }).setFldI R.NTU_XCHK_NS x
      let lim := s4.fld R.NTU_ASYM_LIMIT_NS
      if !s4.bit R.NTU_STAT_ASYM_SUSPECT ∧ lim < x.natAbs then
        ((s4.setBit R.NTU_STAT_ASYM_SUSPECT true).setBit R.NTU_EVT_ASYM true).report 0 0x07 .asymSuspect [] [(x % 2 ^ 32).toNat]
      else if x.natAbs * 2 ≤ lim then s4.setBit R.NTU_STAT_ASYM_SUSPECT false
      else s4
    | _, _ => s1

/-- A 32-bit signed register that saturates. -/
def setSat (s : State) (f : Fld) (x : Int) (p : Nat := 0) : State := s.setFldI f (clampI x (-(2 ^ 31)) (2 ^ 31 - 1)) p

/-- The ingress and egress corrections of port p in ns (R271). -/
def ingress (s : State) (p : Nat) : Int :=
  4 * (s.fld (if (s.ntuPort p).speed = 1000 then R.NTU_CORR_GIG_IN else R.NTU_CORR_FAST_IN) p : Nat)

def egress (s : State) (p : Nat) : Int :=
  4 * (s.fld (if (s.ntuPort p).speed = 1000 then R.NTU_CORR_GIG_EG else R.NTU_CORR_FAST_EG) p : Nat)

/-- A Sync measurement on port p: the capture t2 less t1, and the correctionField terms, in ns. -/
def measure (s : State) (p : Nat) (raw corr logSync : Int) : State :=
  let offset := raw - s.ingress p - s.fldI R.NTU_PORT_DELAY_NS p - s.fldI R.NTU_ASYM_NS p - corr
  let s1 := ((s.setSat R.NTU_PORT_OFS_NS offset p).addSat R.NTU_PORT_CNT_SYNC 1 p).xchk p offset
  if s1.ntuActive ≠ p then s1
  else
    let s2 := s1.setSat R.NTU_OFFSET_NS offset
    if s2.ntuState = 0 then s2.measureRtc offset logSync
    else if s2.ntuState = 3 then s2.measureHold p offset logSync
    else s2.measureTrack p offset logSync

/-! ### Masters (R267, R270) -/

/-- The dataset of `a` is better than that of `b` (IEEE 1588): the first difference decides. -/
def annLess : List (Nat × Nat) → Bool
  | [] => false
  | (a, b) :: t => if a < b then true else if b < a then false else annLess t

def annBetter (a b : Announce) : Bool :=
  annLess [(a.priority1, b.priority1), (a.clockClass, b.clockClass), (a.accuracy, b.accuracy), (a.variance, b.variance),
    (a.priority2, b.priority2), (a.gm, b.gm)]

/-- Among the masters of one port, with one grandmaster: fewer steps, then the lower sender (log entry 80). -/
def foreignBetter (a b : Announce) : Bool :=
  if a.gm = b.gm then annLess [(a.steps, b.steps), (a.source, b.source)] else annBetter a b

/-- Two Announce messages within four intervals qualify a foreign master (IEEE 1588, log entry 149). -/
def qualified (f : Foreign) (now : Nat) : Bool :=
  match f.prevNs with
  | some q => decide (now ≤ q + 4 * f.ann.intervalMs * 1000000)
  | none => false

/-- The best of a list of foreign masters. -/
def bestForeign (fs : List Foreign) : Option Foreign :=
  fs.foldl (fun acc f => match acc with
    | some g => if foreignBetter f.ann g.ann then some f else some g
    | none => some f) none

/-- Port p has this master, or none. -/
def setMaster (s : State) (p : Nat) (f : Option Foreign) : State :=
  let x := s.ntuPort p
  match f with
  | none => s.setNtuPort p { x with master := none, wins := 0 }
  | some g =>
    ((s.setNtuPort p { x with master := some g.ann, annNs := g.lastNs }).setFld R.NTU_PORT_GM_LO_ID (g.ann.gm % 2 ^ 32) p).setFld
      R.NTU_PORT_GM_HI_ID (g.ann.gm / 2 ^ 32) p

/-- Note an Announce of a foreign master of port p; the port's master is the best of the qualified ones and the present one. -/
def foreignNote (s : State) (p : Nat) (a : Announce) : State :=
  let x := s.ntuPort p
  let old := x.foreign.find? (fun f => decide (f.ann.source = a.source))
  let fs : List Foreign := ⟨a, s.nowNs, old.map (fun f => f.lastNs)⟩ :: x.foreign.filter (fun f => decide (f.ann.source ≠ a.source))
  let present (f : Foreign) : Bool := match x.master with
    | some m => decide (m.source = f.ann.source)
    | none => false
  let s1 := s.setNtuPort p { x with foreign := fs }
  match bestForeign (fs.filter (fun f => present f || qualified f s.nowNs)) with
  | some g => s1.setMaster p (some g)
  | none => s1

/-- Port p's master beats the active port's: with one grandmaster, PREF decides. -/
def beats (s : State) (p : Nat) (a b : Announce) : Bool :=
  if a.gm = b.gm then decide (s.fld R.NTU_CTRL_PREF = p) else annBetter a b

/-- The UTC offset and leap flags of the active master's newest Announce. -/
def takeUtc (s : State) (a : Announce) : State :=
  (({ s with ntu := { s.ntu with ptpOff := a.utcOffset } } : State).setBit R.NTU_UTC_PTP_VALID a.utcOffset.isSome).takeLeap a.leap61 a.leap59

/-- The active port changes (R270, R274). -/
def portChange (s : State) (p : Nat) : State :=
  let s1 := ((s.setFld R.NTU_STAT_ACTIVE p).setBit R.NTU_EVT_PORTSW true)
  let s2 := s1.setNtuPort 0 { s1.ntuPort 0 with wins := 0 }
  let s3 := s2.setNtuPort 1 { s2.ntuPort 1 with wins := 0 }
  let s4 := { s3 with ntu := { s3.ntu with run := 0 } }
  let s5 := if s4.ntuState = 2 then s4.setNtuState 1 else s4
  (match (s5.ntuPort p).master with
   | some a => s5.takeUtc a
   | none => s5).portSync

/-- An Announce on port p. Only those of a port's own master count in the comparison of the two ports. -/
def announce (s : State) (p : Nat) (a : Announce) : State :=
  if a.transport ≠ s.fld R.NTU_PORT_CFG_TRANSPORT p then s
  else if a.unsupported then s.addSat R.NTU_PORT_CNT_ERR 1 p
  else if a.domain ≠ s.fld R.NTU_CTRL_DOMAIN then s
  else
    let s2 := s.foreignNote p a
    let act := s2.ntuActive
    if (s2.ntuPort p).master ≠ some a then s2.portSync
    else if p = act then (s2.takeUtc a).portSync
    else match (s2.ntuPort act).master with
      | none => s2.portChange p
      | some b =>
        let n := if s2.beats p a b then (s2.ntuPort p).wins + 1 else 0
        if 16 ≤ n then s2.portChange p else (s2.setNtuPort p { s2.ntuPort p with wins := n }).portSync

/-- Port p has a master that it hears. -/
def hasMaster (s : State) (p : Nat) : Bool := s.ntuRuns p && (s.ntuPort p).master.isSome

/-- The announce receipt timeout of port p: its master is gone; another that it still hears takes its place. -/
def masterLost (s : State) (p : Nat) : State :=
  let x := s.ntuPort p
  let rest := x.foreign.filter (fun f => decide (some f.ann.source ≠ x.master.map (fun m => m.source)))
  let s1 := (s.setNtuPort p { x with foreign := rest }).setMaster p (bestForeign (rest.filter (fun f => qualified f s.nowNs)))
  let o := 1 - p
  match (s1.ntuPort p).master with
  | some m => (if s1.ntuActive = p then s1.takeUtc m else s1).portSync
  | none =>
    if s1.ntuActive ≠ p then s1.portSync
    else if s1.hasMaster o then s1.portChange o
    else
      let s2 := ({ s1 with ntu := { s1.ntu with ptpOff := none } } : State).setBit R.NTU_UTC_PTP_VALID false
      let s3 := if s2.ntuState = 1 ∨ s2.ntuState = 2 then (s2.holdover false).setBit R.NTU_EVT_LOST true else s2
      s3.portSync

/-! ### Register writes (R274, R277, R287) -/

/-- PTP_EN := 0. -/
def ptpDisable (s : State) : State :=
  if s.ntuState = 0 then { s with ntu := { s.ntu with net := none, run := 0, step := none } } else s.holdover false

def writeNtuCtrl (s : State) (v : Word) : Status × State :=
  let was := s.bit R.NTU_CTRL_PTP_EN
  let s1 := s.wr R.NTU_CTRL_PTP_EN.addr (v &&& 0xFF03)
  let s2 := if was ∧ !s1.bit R.NTU_CTRL_PTP_EN then s1.ptpDisable else s1
  (.ok, s2.portSync)

def writeJumpAccept (s : State) (v : Word) : Status × State :=
  if !v.getLsbD 0 then (.ok, s)
  else if !s.bit R.NTU_STAT_JUMP then (.refusedState, s)
  else (.ok, { s with ntu := { s.ntu with accept := true } })

/-- The NTU registers whose writes are not plain. -/
def ntuWrite (s : State) (a : Nat) (v : Word) : Option (Status × State) :=
  if a = R.NTU_CTRL_PTP_EN.addr then some (s.writeNtuCtrl v)
  else if a = R.NTU_JUMP_ACCEPT_ACCEPT.addr then some (s.writeJumpAccept v)
  else if a = R.NTU_PORT_CFG_EN.at 0 0 ∨ a = R.NTU_PORT_CFG_EN.at 1 0 then some (.ok, (s.wr a (v &&& 0xFF)).portSync)
  else none

/-- Module time in the registers of R287, and the OUI. -/
def ntuView (s : State) (a : Nat) (w : Word) : Word :=
  if a = R.NTU_TIME_S_LO_S.addr then BitVec.ofNat 32 (s.nowNs / 1000000000)
  else if a = R.NTU_TIME_S_HI_S.addr then BitVec.ofNat 32 (s.nowNs / 1000000000 / 2 ^ 32 % 2 ^ 16)
  else if a = R.NTU_TIME_NS_NS.addr then BitVec.ofNat 32 (s.nowNs % 1000000000)
  else if a = R.NTU_TIME_FRAC_FRAC.addr then BitVec.ofNat 32 (s.fr.frac % 2 ^ 16)
  else if a = R.NTU_RADIO_OUI.addr then BitVec.setWidth 32 Config.ntuOui
  else w

/-! ### Frame lock (R281, R282) -/

/-- The length of the present frame in module time: by the phase error of its edge, in steps of 2 ns (log entry 150). -/
def tickLen (s : State) : Nat :=
  let l := ((frameNs : Int) - clampI (s.fldI R.NTU_PHASE_NS) (-50000) 50000).toNat
  if l % 2 = 0 then l else if Config.tickUp s.fr.mono then l + 1 else l - 1

/-- The next tick edge: its module time, its number and its phase error. -/
def tickEdge (s : State) : State :=
  let ns := s.fr.edgeNs + s.tickLen
  let n := (ns + 9999999) / frameNs
  let e : Int := (ns : Int) - ((n * frameNs : Nat) : Int)
  let s1 := { s with fr := { s.fr with
    edgeNs := ns, number := n, nowUs := 0, mono := s.fr.mono + 1, frac := Config.timeFrac s.fr.mono % 2 ^ 16 } }
  ((s1.setFldI R.NTU_PHASE_NS e).setBit R.NTU_STAT_FLOCK (decide (e.natAbs ≤ 1000))).addSat R.SYS_FRAME_COUNT_COUNT 1

/-- The leap second takes effect (R267). -/
def leapStep (s : State) (ns : Nat) (pos : Bool) : State :=
  let d : Int := if pos then 1 else -1
  let s1 := { s with
    fr := { s.fr with leapDue := none, leapPast := some (ns, pos) }
    ntu := { s.ntu with ptpOff := s.ntu.ptpOff.map (fun o => o + d) } }
  ((s1.setFldI R.NTU_UTC_OFFSET (s1.fldI R.NTU_UTC_OFFSET + d)).setBit R.NTU_UTC_LEAP61 false).setBit R.NTU_UTC_LEAP59 false

end State

/-! ### Commands -/

/-- What a Sync or delay message on port p does: nothing on another transport, counted in ERR when it relies on what is
not supported (R269), else `f` when the port hears its master in its domain. -/
def State.ptpHear (s : State) (p : Nat) (via : PtpVia) (f : State → State) : State :=
  if via.transport ≠ s.fld R.NTU_PORT_CFG_TRANSPORT p then s
  else if via.unsupported then s.addSat R.NTU_PORT_CNT_ERR 1 p
  else if s.ntuHears p ∧ via.domain = s.fld R.NTU_CTRL_DOMAIN then f s
  else s

/-- `corr`: the correctionField terms, in ns; `logSync`: 0 to 5 for −4 to +1. -/
def execPtpSyncMeasurement (p : Fin 2) (us : Fin 20000) (x : PtpSync) (corr : Int) (logSync : Fin 6) (s : State) : Out :=
  .next (if s.ntuRuns p then (s.atUs us).ptpHear p x.via (fun t => t.measure p x.raw corr ((logSync.val : Int) - 4)) else s)

/-- Only the mechanism that DELAY selects counts. -/
def execPtpDelayResponse (p : Fin 2) (us : Fin 20000) (x : PtpDelay) (s : State) : Out :=
  .next (if s.ntuRuns p then
      (s.atUs us).ptpHear p x.via (fun t =>
        if x.p2p = t.bit R.NTU_PORT_CFG_DELAY p then t.setSat R.NTU_PORT_DELAY_NS (Int.fdiv (x.sum - t.ingress p - t.egress p) 2) p else t)
    else s)

def execPtpAnnounce (p : Fin 2) (us : Fin 20000) (a : Announce) (s : State) : Out :=
  .next (if s.ntuRuns p then (s.atUs us).announce p a else s)

/-- ANN_TO intervals have passed since port p's last Announce. -/
def execMasterLost (p : Fin 2) (s : State) : Out :=
  .next (match (s.ntuPort p).master with
    | some a =>
      if s.poweredOn then
        s.whenDue ((s.ntuPort p).annNs + s.fld R.NTU_PORT_CFG_ANN_TO p * a.intervalMs * 1000000) (fun t => t.masterLost p)
      else s
    | none => s)

/-- Link speed in Mbit/s: 0 no link, 1 10BASE-T, 2 100BASE-TX, 3 1000BASE-T. -/
def execEthernetLinkChange (p : Fin 2) (us : Fin 20000) (speed : Fin 4) (s : State) : Out :=
  let v := ([0, 10, 100, 1000] : List Nat).getD speed 0
  .next (if s.poweredOn then
      let t := s.atUs us
      (t.setNtuPort p { t.ntuPort p with speed := v }).portSync
    else s)

/-- The instant at which the announced leap second has its effect, in ONYX and in a pause too. -/
def execLeapSecond (s : State) : Out :=
  .next (match s.fr.leapDue with
    | some (ns, pos) =>
      if s.poweredOn ∨ s.pwr.mode = .onyx then
        s.whenDue (s.onModule (if pos then ns + 1000000000 else ns - 1000000000)) (fun t => t.leapStep (s.onModule ns) pos)
      else s
    | none => s)

/-- The earliest apply instant among the levels bound to a broadcast (R282, 11 R294); in a control pause DRV holds its channels (11 R308). -/
def execBoundLevelApply (s : State) : Out :=
  .next (match s.drv.bound with
    | [] => s
    | x :: xs =>
      let f := xs.foldl (fun m y => min m y.frame) x.frame
      if s.framesRun ∧ !s.pwr.paused then
        s.whenDue (f * State.frameNs) (fun t =>
          (t.drv.bound.filter (fun y => decide (y.frame ≤ f))).foldl State.chanTake
            { t with drv := { t.drv with bound := t.drv.bound.filter (fun y => decide (f < y.frame)) } })
      else s)

end Sys2Proof.Machine
end

