-- ==== Sys2Proof/Machine/Segment.lean ====
section
/-! DEFINITION. Running a segment (07_segment_lighting.md): joins, reports, lantern faults, commands, load shedding, energy
reconciliation and firmware campaigns. -/

namespace Sys2Proof.Machine

/-! ### Fault codes (R207) -/

/-- The codes in the order of SEG_FAULT_CNT. -/
def faultCodes : List Nat := [0x01, 0x02, 0x03, 0x04, 0x05, 0x06, 0x07, 0x08, 0x09, 0x40, 0x41, 0x42]

def faultIndex (code : Nat) : Option Nat := (faultCodes.zipIdx.find? (fun p => decide (p.1 = code))).map (fun p => p.2)

/-- The STATUS bit a code maps to. -/
def faultBit (code : Nat) : Option Nat :=
  if code = 1 ∨ code = 2 then some 1
  else if code = 3 ∨ code = 4 ∨ code = 5 then some 2
  else if code = 6 then some 3
  else none

namespace State

/-! ### Record numbers (09 R256) -/

/-- Take a LAP record with its number: none for a repeat, which is counted. -/
def takeRecord (s : State) (lid n : Nat) : Option State :=
  let ns := SMap.find [] s.links.recNos lid
  if ns.contains n then none
  else some { s with links := { s.links with recNos := SMap.set [] s.links.recNos lid ((n :: ns).take 4) } }

/-- A record of a commissioned lantern reaches `f` once. -/
def lapRecord (s : State) (lid n : Nat) (f : State → State) : State :=
  if !s.poweredOn ∨ s.part.lanterns ≤ lid ∨ !recComm s.fmem lid then s
  else match s.takeRecord lid n with
    | none => s.addSat R.RAD_LINK_CNT_APPDUP 1
    | some t => f t

/-! ### Fault codes of a lantern (R208) -/

/-- Show how many lanterns have a code, and any code, active. -/
def countFaults (s : State) : State :=
  let has (c : Nat) : Nat := (s.seg.leaves.filter (fun e => e.2.codes.any (fun x => decide (x.1 = c)))).length
  let s1 := faultCodes.zipIdx.foldl (fun t p => t.setFld R.SEG_FAULT_CNT_ACTIVE (has p.1) p.2) s
  s1.setFld R.SEG_FAULT_ACTIVE_LANTERNS (s.seg.leaves.filter (fun e => !e.2.codes.isEmpty)).length

def addNote (s : State) (n : FaultNote) : State := { s with seg := { s.seg with notes := s.seg.notes ++ [n] } }

/-- Flaps of a code of a leaf. -/
def flapsOf (g : Leafing) (code : Nat) : Nat := ((g.flaps.find? (fun x => decide (x.1 = code))).map (fun x => x.2)).getD 0

/-- A code comes back within 60 s of its clearing: the fault goes on, and its flap count rises. A clearing not yet reported is
taken back. The raise is no new report: it enters no ring entry and asserts no SRC[70], as R208 calls it one continuing fault (DESIGN CHOICE,
log entry 172). -/
def flapCode (s : State) (lid code : Nat) (g : Leafing) : State :=
  let n := flapsOf g code + 1
  let s1 := s.setLeaf lid { g with
    codes := g.codes ++ [(code, s.nowNs)], cleared := g.cleared.filter (fun x => decide (x.1 ≠ code))
    flaps := (code, n) :: g.flaps.filter (fun x => decide (x.1 ≠ code)) }
  let old := s1.seg.notes.filter (fun x => !(decide (x.lid = lid ∧ x.code = code) && decide (x.kind ≠ 1)))
  (({ s1 with seg := { s1.seg with notes := old } } : State).addNote ⟨lid, code, 2, n⟩).countFaults

/-- A code is raised on a lantern; `ring`: by the lantern itself. -/
def raiseCode (s : State) (lid code : Nat) (ring : Bool) : State :=
  let g := s.leaf lid
  let g0 := if ring then { g with lastCode := code } else g
  if g.codes.any (fun x => decide (x.1 = code)) then s.setLeaf lid g0
  else if g.cleared.any (fun x => decide (x.1 = code ∧ s.nowNs ≤ x.2 + 60000000000)) then s.flapCode lid code g0
  else
    let s1 := s.setLeaf lid { g0 with
      codes := g.codes ++ [(code, s.nowNs)], cleared := g.cleared.filter (fun x => decide (x.1 ≠ code))
      flaps := g.flaps.filter (fun x => decide (x.1 ≠ code)) }
    let s2 := s1.addNote ⟨lid, code, 1, 0⟩
    let s3 := match faultIndex code with
      | some c => s2.addSat R.SEG_FAULT_CNT_RAISED 1 c
      | none => s2
    let s4 :=
      if ring then
        let k := s3.fld R.LTAB_FAULT_WR_COUNT % 64
        let s5 := (s3.setFld R.LTAB_FAULT_LID lid k).setFld R.LTAB_FAULT_CODE code k
        ((s5.setFld R.LTAB_FAULT_FRAME_FRAME s.fr.number k).addWrap R.LTAB_FAULT_WR_COUNT 1).assertSrc 70
      else s3
    s4.countFaults

/-- A code is cleared. -/
def clearCode (s : State) (lid code : Nat) : State :=
  let g := s.leaf lid
  if !g.codes.any (fun x => decide (x.1 = code)) then s
  else
    let s1 := s.setLeaf lid { g with
      codes := g.codes.filter (fun x => decide (x.1 ≠ code))
      cleared := (code, s.nowNs) :: g.cleared.filter (fun x => decide (x.1 ≠ code)) }
    (s1.addNote ⟨lid, code, 0, flapsOf g code⟩).countFaults

/-! ### Joins (R179, R180, 09 R241, R248) -/

/-- The commissioned record of an EUI-64. -/
def recordOf (s : State) (eui : Nat) : Option Nat :=
  (commissioned s.fmem s.part.lanterns).find? (fun l => decide (recNat s.fmem l 4 8 = eui))

/-- The lowest LID without a commissioned record. -/
def freeLid (s : State) : Option Nat :=
  let used := commissioned s.fmem s.part.lanterns
  (List.range s.part.lanterns).find? (fun l => !used.contains l)

/-- Queue a JOIN_RSP; without a short address it goes by the node's EUI-64. A Gen-1 node's carries SI, anchor and channel map. -/
def sendJoinRsp (s : State) (eui : Nat) (st : Status) (lid lap : Nat) (key : List Byte) (slot : Option (Nat × Nat × Nat)) : State :=
  s.enqueue ⟨0, true, lid, .joinRsp eui st lid lap key slot, lapOctets (13 + key.length + (if slot.isSome then 12 else 0)), 0, false⟩

/-- Automatic commissioning: the class C fields of R180. -/
def commission (s : State) (lid : Nat) (q : JoinReq) : State :=
  let s1 := (s.setLan lid 0x00 2 (lid + 2 ^ 14 + (if q.gen2 then 2 ^ 15 else 0))).setLan lid 0x0C 2 lid
  let s2 := ((s1.setLan lid 0x04 8 q.eui).setLan lid 0x1E 2 q.rated).setLan lid 0x02 1 (if q.lap3 then 3 else 2)
  let s3 := (((s2.setLan lid 0x03 1 0).setLan lid 0x0E 1 0).setLan lid 0x10 8 0).setLan lid 0x18 2 0xFFFF
  s3.setLan lid 0x1C 2 (s3.fld R.SEG_DEFAULT_FS_LEVEL)

/-- One join at SNAP: refused, listed, or kept for EMIT. -/
def joinSnapOne (s : State) (w : JoinWait) : State :=
  let q := w.node
  let later (t : State) (lid : Nat) : State := { t with seg := { t.seg with joins := t.seg.joins ++ [{ w with lid := some lid }] } }
  let list_ (t : State) : State :=
    match t.enrolNode q with
    | (t1, true) => t1.sendJoinRsp q.eui .notReady 0xFFFE 0 [] none
    | (t1, false) => t1.sendJoinRsp q.eui .noSpace 0xFFFE 0 [] none
  if !q.lap2 ∧ !q.lap3 then
    (s.sendJoinRsp q.eui .version 0xFFFE 0 [] none).report 0 0x05 .joinVersion [q.eui] []
  else if !s.hopValid (s.hopMap q.gen2) then
    (s.sendJoinRsp q.eui .notReady 0xFFFE 0 [] none).setBit R.RAD_LINK_EVT_NOMAP true
  else match s.recordOf q.eui with
    | some lid => later s lid
    | none =>
      if s.bit R.SEG_CTRL_AUTO then
        match s.freeLid with
        | some lid => later (s.commission lid q) lid
        | none => list_ s
      else list_ s

/-- The joins that arrived before the edge. -/
def joinSnap (s : State) (edge : Nat) : State :=
  let due := s.seg.joins.filter (fun w => decide (w.ns < edge) && w.lid.isNone)
  let rest := s.seg.joins.filter (fun w => !(decide (w.ns < edge) && w.lid.isNone))
  due.foldl joinSnapOne { s with seg := { s.seg with joins := rest } }

/-- A free anchor on the 5 ms grid of an interval, ms. -/
def freeAnchor (s : State) (si lid : Nat) : Option Nat :=
  (List.range (si / 5)).map (fun k => 5 * k) |>.find? (fun a =>
    !s.links.conns.any (fun e => decide (e.1 ≠ lid ∧ 1 ≤ e.2.st ∧ e.2.st ≤ 3) && !e.2.gen2 && decide (e.2.anchor % si = a)) &&
      !s.links.prep.any (fun e => decide (e.1 ≠ lid) && !e.2.gen2 && decide (e.2.anchor % si = a)))

/-- The connection that the acknowledgement of the JOIN_RSP makes (09 R250); one that exists stands until then. -/
def prepareConn (s : State) (lid : Nat) (gen2 : Bool) : Option State :=
  let sup := s.fld R.RAD_LINK_CFG_SUP * 1000
  let put (c : Conn) : State := { s with links := { s.links with prep := SMap.set {} s.links.prep lid c } }
  if gen2 then some (put { gen2 := true, chmap := s.links.map, supMs := sup })
  else
    let si := 250 * 2 ^ s.fld R.RAD_LINK_CFG_SI1
    (s.freeAnchor si lid).map (fun a => put { gen2 := false, chmap := s.g1Map, si := si, anchor := a, supMs := max sup (6 * si + 32000) })

/-- What a Gen-1 node's JOIN_RSP assigns: SI, anchor and channel map (09 R248). -/
def joinSlot (s : State) (lid : Nat) : Option (Nat × Nat × Nat) :=
  let c := SMap.find {} s.links.prep lid
  if c.gen2 then none else some (c.si, c.anchor, c.chmap)

/-- The segment network key, wrapped under the node's join key (17 R397). -/
def wrappedKey (s : State) (eui : Nat) : List Byte :=
  let find (bit : Nat) : Option (List Byte) := ((List.range 32).find? (fun k => s.keyPermits k 6 bit)).bind s.keyMat
  match find 4, find 2 with
  | some root, some net => wrapKey (joinKey root eui) net
  | _, _ => []

/-- EMIT answers the joins whose record was found: LAP and GEN are written (R179 step 5). The node's own failsafe level is known from
its request, its hand-over fade only from what the module last sent it. -/
def joinEmit (s : State) : State :=
  let due := s.seg.joins.filter (fun w => w.lid.isSome)
  let s1 := { s with seg := { s.seg with joins := s.seg.joins.filter (fun w => w.lid.isNone) } }
  due.foldl (fun t w =>
    let lid := w.lid.getD 0
    let q := w.node
    match t.prepareConn lid q.gen2 with
    | none => t.sendJoinRsp q.eui .noSpace lid 0 [] none
    | some t1 =>
      let lap := if q.lap3 then 3 else 2
      let t2 := (t1.setLan lid 0x02 1 lap).setLan lid 0x00 2 (t1.lan lid 0 2 % 2 ^ 15 + (if q.gen2 then 2 ^ 15 else 0))
      let g := t2.leaf lid
      let t3 := t2.setLeaf lid { g with
        joined := true, hw := q.hw, reportNs := none, sinceNs := t2.nowNs, fsSent := g.fsSent.map (fun v => (q.failsafe, v.2)) }
      t3.sendJoinRsp q.eui .ok lid lap (t3.wrappedKey q.eui) (t3.joinSlot lid)) s1

/-- At a bar: listed nodes whose record it has committed leave the list (R180). -/
def enrolBar (s : State) : State :=
  if s.seg.enrol.isEmpty then s
  else
    let euis := (commissioned s.fmem s.part.lanterns).map (fun l => recNat s.fmem l 4 8)
    ({ s with seg := { s.seg with enrol := s.seg.enrol.filter (fun q => !euis.contains q.eui) } }).syncEnrol

/-! ### Status reports (R184 to R186) -/

/-- Report period of a lantern's present supply, ns. -/
def reportPeriod (s : State) (lid : Nat) : Nat :=
  (if (s.leaf lid).mains then s.fld R.SEG_REPORT_PERIOD else 900) * 1000000000

/-- A LAP 2 lantern's reading at a reconciliation boundary between two reports: linear interpolation, when the boundary lies
within a third of a period of both (R210, R211). -/
def interpolate (s : State) (t1 e1 t2 e2 : Nat) : Option (Nat × Nat) :=
  let p := s.fld R.SEG_RECON_CFG_PERIOD * 60000
  let b := t2 / p * p
  if t1 < b ∧ b - t1 ≤ p / 3 ∧ t2 - b ≤ p / 3 then
    some (b / 1000, (e1 + (e2 + 2 ^ 32 - e1) % 2 ^ 32 * (b - t1) / (t2 - t1)) % 2 ^ 32)
  else none

/-- A report that arrived in frame `frame` enters its record at SNAP. A latched boundary reading counts within a third of a period of its
boundary (R211). -/
def takeReport (s : State) (lid ns frame : Nat) (r : StatusReport) : State :=
  let lap := if s.lan lid 2 1 = 2 then 2 else 3
  let e := if lap = 2 then r.energy * 10 % 2 ^ 32 else r.energy % 2 ^ 32
  let s1 := ((s.setLan lid 0x42 2 r.level).setLan lid 0x44 4 frame).setLan lid 0x4C 2 r.power
  let s2 := ((s1.setLan lid 0x48 4 e).setLan lid 0x55 1 r.store).setLan lid 0x56 2 r.fw
  let g := s2.leaf lid
  let ms := s2.utcMsOf ns
  let third := s.fld R.SEG_RECON_CFG_PERIOD * 20000
  let bound := if lap = 2 then g.energy.bind (fun p => s.interpolate p.1 p.2 ms e) else r.latched.filter (fun b => decide (ms ≤ b.1 * 1000 + third))
  let settled := decide (g.settleNs + 2000000000 < ns)
  let cmd := s2.lan lid 0x40 2
  let off := decide (s2.fld R.SEG_MISMATCH_LEVELS < (if cmd ≤ r.level then r.level - cmd else cmd - r.level))
  let n := if settled then (if off then g.mism + 1 else 0) else g.mism
  let again : Bool := decide (lap = 3) && (match r.failsafe, g.fsSent with
    | some v, some (w, _) => decide (v ≠ w)
    | _, _ => false)
  let s3 := s2.setLeaf lid { g with
    stale := false, reportNs := some ns, mains := r.mains, mism := n, energy := some (ms, e)
    latched := (bound.toList ++ g.latched).take 4, fsSent := if again then none else g.fsSent }
  if settled ∧ !off then s3.clearCode lid 0x40
  else if settled ∧ 2 ≤ n ∧ s3.leafFed lid then s3.raiseCode lid 0x40 false
  else s3

/-! ### SNAP -/

/-- CMD_LEVEL and CMD_FRAME of what the last EMIT queued (R184). -/
def cmdSnap (s : State) : State :=
  s.seg.cmdNotes.foldl (fun t x =>
    if x.leaf < 16384 then (t.setLan x.leaf 0x40 2 x.level).setLan x.leaf 0x5C 4 x.frame else t)
    { s with seg := { s.seg with cmdNotes := [], bcasts := [] } }

/-- Class M of a record as at bring-up (05 R143). -/
def clearClassM (s : State) (lid : Nat) : State :=
  let s1 := s.setLan lid 0x40 32 0
  ((s1.setLan lid 0x60 32 0).setLan lid 0x52 2 0xFFFF).setLan lid 0x55 1 0xFF

/-- A command of the module's own. -/
def cmdOwn (s : State) (lid code : Nat) (payload : List Byte) : State := s.cmdPut lid ⟨0, code, payload, 0, none, 0, 0, 0⟩

/-- A record whose identity changed since the last SNAP: LEAVE to the old node as a command like any other (R192), and a fresh start
(R181). Commands of the old node still wait for their results; the newest level of each class stays with a lantern still
commissioned (R195). -/
def leaveSnap (s : State) (lid : Nat) : State :=
  let now : Option Nat := if recComm s.fmem lid then some (s.lan lid 4 8) else none
  let g := s.leaf lid
  if g.known = now then s
  else
    match g.known with
    | none => s.setLeaf lid { g with known := now, sinceNs := s.fr.edgeNs }
    | some _ =>
      let fresh : Leafing := { known := now, sinceNs := s.fr.edgeNs, cmds := g.cmds, txn := g.txn }
      let kept : Leafing := if now.isSome then { fresh with sched := g.sched, traf := g.traf, hold := g.hold, garnet := g.garnet } else fresh
      ((((s.clearClassM lid).holdDst lid).setLeaf lid kept).cmdOwn lid 0x40 []).countFaults

/-- The lanterns that R181 looks at: those commissioned now or known before. -/
def identLids (s : State) : List Nat :=
  sortNat (commissioned s.fmem s.part.lanterns ++ (s.seg.leaves.filter (fun e => decide (e.1 < 16384) && e.2.known.isSome)).map (fun e => e.1))

/-- STATUS, FAULT and DETECT of a record, and since when it is unreachable (R185, R207, R208). -/
def statusSnap (s : State) (lid : Nat) : State :=
  let g := s.leaf lid
  let on (b : Nat) : Nat := if g.codes.any (fun x => faultBit x.1 == some b) then 2 ^ b else 0
  let pend := s.seg.camp.targets.any (fun t => decide (t.lid = lid) && !t.failed) && decide (s.fld R.SEG_FW_STAT_STATE ≠ 0)
  let reach := s.lan lid 0x4E 2 % 2
  let st := reach + on 1 + on 2 + on 3 + (if g.stale then 16 else 0) + (if pend then 32 else 0)
  let s1 := (s.setLan lid 0x4E 2 st).setLan lid 0x50 1 g.lastCode
  let s2 := if g.detects = 0 then s1 else s1.setLan lid 0x58 4 (s1.lan lid 0x58 4 + g.detects)
  let dark := decide (reach = 0) && s.leafFed lid
  let s3 := s2.setLeaf lid { g with detects := 0, badNs := if dark then some (g.badNs.getD s.fr.edgeNs) else none }
  if reach = 1 then s3.clearCode lid 0x41 else s3

/-- The segment's part of SNAP: what arrived before `edge` (R179 to R185). -/
def segSnap (s : State) (edge : Nat) : State :=
  let fed := ((List.range 6).map (fun f => if s.bit R.DRV_FEEDER_STAT_CLOSED f then 2 ^ f else 0)).sum
  let s1 := ({ s with seg := { s.seg with feeders := fed } }).cmdSnap
  let s2 := s1.identLids.foldl leaveSnap s1
  let due := s2.seg.reports.filter (fun r => decide (r.2.1 < edge))
  let s3 := due.foldl (fun t r => if recComm t.fmem r.1 then t.takeReport r.1 r.2.1 r.2.2.1 r.2.2.2 else t)
    { s2 with seg := { s2.seg with reports := s2.seg.reports.filter (fun r => decide (edge ≤ r.2.1)) } }
  let s4 := s3.joinSnap edge
  let s5 := (commissioned s4.fmem s4.part.lanterns).foldl statusSnap s4
  let s5 : State := if s5.seg.aggNs = 0 then { s5 with seg := { s5.seg with aggNs := s5.fr.edgeNs } } else s5
  let s6 := if s5.bit R.PWR_TALLY_STAT_SHEDDING ∧ !s5.seg.leaves.any (fun e => e.2.shed) then s5.setBit R.PWR_TALLY_STAT_SHEDDING false else s5
  s6.tallySnap

/-! ### Commands and results (R191 to R193, 19 R424, R432) -/

/-- The head of a lantern's queue ends: a GSP request is answered, a POST's result goes to the subscribers. -/
def cmdFinish (s : State) (lid : Nat) (st : Status) (dup : Bool) (data : List Byte) : State :=
  match (s.leaf lid).cmds.head? with
  | none => s
  | some c =>
    let s1 := s.cmdEnd lid st dup data
    match c.session with
    | some i => s1.respond i c.handle st (data.map (fun b => (b.toNat : Int)))
    | none => if c.handle = 0 then s1 else s1.notifyAll 1 [c.handle, lid, st.code]

/-- Released POSTs in bar order (R191). -/
def postDispatch (s : State) : State :=
  s.seg.posts.foldl (fun t p =>
    match t.cmdRequest p.1 p.2.1 p.2.2.1 p.2.2.2 none with
    | (.ok, t1) => t1
    | (st, t1) => (t1.cmdResult p.1 p.2.1 st false []).notifyAll 1 [p.1, p.2.1, st.code])
    { s with seg := { s.seg with posts := [] } }

/-- The hand-over fade of a full change (R198). -/
def fullFade (s : State) (lid : Nat) : Nat := s.fadeOf (groupsOf s.fmem lid)

/-- Send SET_FAILSAFE when the lantern's values differ from those last sent (R198). -/
def sendFailsafe (s : State) (lid : Nat) : State :=
  let v := s.lan lid 0x1C 2
  let f := s.fullFade lid
  let g := s.leaf lid
  if g.fsSent = some (v, f) then s
  else (s.setLeaf lid { g with fsSent := some (v, f) }).cmdOwn lid 0x02 (leBytes 2 v ++ leBytes 2 f)

/-! ### Shedding (R206) -/

/-- Lower every leaf under traffic or schedule, lantern or channel (11 R293), to level × C / L. -/
def shed (s : State) : State :=
  let c := s.seg.tally.cap
  let l := s.totalLoad
  let xs := s.allLeaves.filterMap (fun k =>
    let g := s.leaf k
    let v := g.sent * c / l
    if (g.source = 1 ∨ g.source = 2) ∧ v < g.sent then
      some (⟨k, v, s.fr.number + 2, min 65535 (s.leafHo k v g.sent), false, true, false⟩ : SegSend)
    else none)
  let s1 := s.sendLevels xs
  let s2 := xs.foldl (fun t x => t.setLeaf x.leaf { t.leaf x.leaf with shed := true }) s1
  let s3 : State := { s2 with seg := { s2.seg with overRun := 0 } }
  s3.setBit R.PWR_TALLY_STAT_SHEDDING true

/-! ### Reconciliation (R210, R211, 13 R339) -/

/-- A reading at a boundary. -/
def readingAt (rs : List (Nat × Nat)) (b : Nat) : Option Nat := (rs.find? (fun r => decide (r.1 = b))).map (fun r => r.2)

/-- The energy of feeder f's lanterns between two boundaries; none when one lacks its data. -/
def lanternEnergy (s : State) (f b0 b1 : Nat) : Option Nat :=
  ((commissioned s.fmem s.part.lanterns).filter (fun l => decide (recNat s.fmem l 3 1 % 8 = f + 1))).foldl (fun acc l =>
    let g := s.leaf l
    match acc, readingAt g.latched b0, readingAt g.latched b1 with
    | some e, some x, some y => some (e + (y + 2 ^ 32 - x) % 2 ^ 32)
    | _, _, _ => none) (some 0)

/-- E_MET of feeder f in 0.1 Wh. -/
def meterEnergy (s : State) (f b0 b1 : Nat) : Option Nat :=
  let at_ (b : Nat) : Option Nat := ((s.met.bounds.find? (fun r => decide (r.1 = b))).bind (fun r => r.2[f]?))
  match at_ b0, at_ b1 with
  | some x, some y =>
    some ((y + 2 ^ 32 - x) % 2 ^ 32 * s.fld R.MET_FEEDER_RATIO_PRI f / ((if s.bit R.MET_FEEDER_RATIO_SEC f then 1 else 5) * 10))
  | _, _ => none

/-- The period of feeder f that ended at boundary b1. An INCOMPLETE one leaves HIGH and NEG and the runs of complete periods as they are; one
that is LOW ends the runs (DEDUCED, log entry 176). -/
def reconFeeder (s : State) (b0 b1 f : Nat) : State :=
  let x : Recon := SMap.find {} s.seg.recon f
  let put (t : State) (y : Recon) : State := { t with seg := { t.seg with recon := SMap.set {} t.seg.recon f y } }
  let flags (t : State) (high neg inc low : Bool) : State :=
    (((t.setBit R.SEG_RECON_FLAGS_HIGH high f).setBit R.SEG_RECON_FLAGS_NEG neg f).setBit R.SEG_RECON_FLAGS_INCOMPLETE inc f).setBit
      R.SEG_RECON_FLAGS_LOW low f
  let open_ (t : State) (low : Bool) : State := flags t (s.bit R.SEG_RECON_FLAGS_HIGH f) (s.bit R.SEG_RECON_FLAGS_NEG f) true low
  match s.meterEnergy f b0 b1, s.lanternEnergy f b0 b1 with
  | some m, some l =>
    let loss : Int := if m = 0 then Config.lossOfZero l else Int.tdiv (((m : Int) - l) * 65536) m
    let s1 := ((s.setFld R.SEG_RECON_MET_E m f).setFld R.SEG_RECON_LANT_E l f).setFldI R.SEG_RECON_LOSS_LOSS
      (clampI loss (-(2 ^ 31)) (2 ^ 31 - 1)) f
    if m < 1000 then flags (put s1 {}) false false false true
    else
      let th : Int := s.fld R.SEG_RECON_CFG_THRESH
      let y : Recon := ⟨if th < loss then x.highRun + 1 else 0, if loss < -th then x.lowRun + 1 else 0⟩
      let high := decide (2 ≤ y.highRun)
      let neg := decide (2 ≤ y.lowRun)
      let s2 := flags (put s1 y) high neg false false
      if (high ∧ !s.bit R.SEG_RECON_FLAGS_HIGH f) ∨ (neg ∧ !s.bit R.SEG_RECON_FLAGS_NEG f) then
        (s2.setFld R.SEG_RECON_EVT_FLAG (s2.fld R.SEG_RECON_EVT_FLAG ||| 2 ^ f)).report 0 0x05 .reconFlag [f] [m, l]
      else s2
  | some m, none => open_ (s.setFld R.SEG_RECON_MET_E m f) (decide (m < 1000))
  | none, some l => open_ (s.setFld R.SEG_RECON_LANT_E l f) false
  | none, none => open_ s false

/-! ### Fault summary (R209) -/

/-- The entries of a period: LID, code, kind of change, flaps; a cluster of a feeder replaces its members' raises. -/
def summaryEntries (s : State) : List (List Nat) :=
  let cl (n : FaultNote) : Bool := decide (n.kind = 1) && (decide (n.code = 0x05) || decide (n.code = 0x41))
  let big := (List.range 6).filter (fun f => s.seg.feeders.testBit f &&
    decide (s.fld R.SEG_FAULT_CFG_CLUSTER ≤
      (sortNat ((s.seg.notes.filter (fun n => cl n && decide (s.leafFeeder n.lid = f + 1))).map (fun n => n.lid))).length))
  let kept := s.seg.notes.filter (fun n => !(cl n && big.any (fun f => decide (s.leafFeeder n.lid = f + 1))))
  kept.map (fun n => [n.lid, n.code, n.kind, n.flaps]) ++
    big.map (fun f => [0xFFFF, 0x42, f + 1,
      (sortNat ((s.seg.notes.filter (fun n => cl n && decide (s.leafFeeder n.lid = f + 1))).map (fun n => n.lid))).length])

/-- Lists of at most n. -/
def chunksOf (n : Nat) : Nat → List (List Nat) → List (List (List Nat))
  | 0, _ => []
  | k + 1, xs => if xs.isEmpty then [] else xs.take n :: chunksOf n k (xs.drop n)

/-- FAULT_SUMMARY to every subscribed session; GSP 3 gets no LID above 4,095 (19 R422). -/
def faultSummary (s : State) : State :=
  let es := s.summaryEntries
  let clusters := (es.filter (fun e => decide (e[1]? = some 0x42))).length
  let s1 := (List.range 8).foldl (fun t i =>
    if t.sessState i = 2 ∧ (t.sess i).topics.testBit 0 then
      let mine := if t.sessVersion i < 4 then es.filter (fun e => decide (e.headD 0 ≤ 4095 ∨ e.headD 0 = 0xFFFF)) else es
      (chunksOf 512 (mine.length + 1) mine).foldl (fun u c => u.emit (.notify i 0 c.flatten)) t
    else t) s
  ({ s1 with seg := { s1.seg with notes := [] } }).addSat R.SEG_FAULT_CNT_RAISED clusters 11

/-! ### Firmware campaigns (R212, R213) -/

def campState (s : State) : Nat := s.fld R.SEG_FW_STAT_STATE

/-- A change of the campaign's state. -/
def campGo (s : State) (st : Nat) : State :=
  (({ s with seg := { s.seg with camp := { s.seg.camp with actNs := s.nowNs } } }).setFld R.SEG_FW_STAT_STATE st).assertSrc 73

def setTargets (s : State) (ts : List CampTarget) : State :=
  ({ s with seg := { s.seg with camp := { s.seg.camp with targets := ts } } }).setFld R.SEG_FW_COUNT_FAILED
    (ts.filter (fun (t : CampTarget) => t.failed)).length

/-- Octets of a block, and blocks of a bitmap, of a LAP version (R177). -/
def blockSize (lap : Nat) : Nat := if lap = 2 then 64 else 128
def mapBlocks (lap : Nat) : Nat := if lap = 2 then 256 else 1024

/-- The bitmaps of an image of n octets. -/
def mapsOf (lap n : Nat) : List Nat := List.range (ceilDiv (ceilDiv n (blockSize lap)) (mapBlocks lap))

/-- Queue a class 3 message once per first hop of the targets that speak a LAP version. -/
def bulkHops (s : State) (lap code block : Nat) (payload : List Byte) (due : Nat) : State :=
  let hops := sortNat ((s.seg.camp.targets.filter (fun t => decide (t.lap = lap) && !t.failed)).map (fun t => (s.firstHop t.lid).getD t.lid))
  hops.foldl (fun t h => t.enqueue ⟨3, false, h, .bulk code block payload, lapOctets (3 + payload.length), due, false⟩) s

/-- Campaign messages of a code still wait to be launched. -/
def bulkWaits (s : State) (code : Nat) : Bool :=
  let is_ (i : DownItem) : Bool := match i.msg with
    | .bulk c _ _ => decide (c = code)
    | _ => false
  s.links.queue.any is_ || (s.tlqOf 0 ++ s.tlqOf 1).any (fun e => is_ e.item)

/-- The carried image at an index, in the running set (18 R404). -/
def carried (s : State) (i : Nat) : Option UpdPart := s.carriedParts.find? (fun p => decide (p.kind = 6 ∧ p.index = i))

/-- START. -/
def campStart (s : State) (i : Nat) : Status × State :=
  if s.campState ≠ 0 then (.refusedState, s)
  else match s.carried i with
    | none => (.invalid, s)
    | some p =>
      if !s.ready 11 then (.notReady, s)
      else
        let ts := ((commissioned s.fmem s.part.lanterns).filter (fun l =>
            decide ((s.leaf l).hw = p.hw) && (s.leaf l).joined && decide (s.lan l 0x56 2 < p.version))).map
          (fun l => (⟨l, if s.lan l 2 1 = 2 then 2 else 3, [], [], false, false⟩ : CampTarget))
        let s1 := { s with seg := { s.seg with camp := { image := i, version := p.version, bytes := p.bytes, targets := ts } } }
        let s2 := ((s1.setFld R.SEG_FW_STAT_ROUND 0).setFld R.SEG_FW_COUNT_TARGETS ts.length).setFld R.SEG_FW_COUNT_FAILED 0
        let body := leBytes 2 p.hw ++ leBytes 4 p.version ++ leBytes 4 p.bytes.length ++ p.digest
        let s3 := ([0, 1, 2] : List Nat).foldl (fun t k =>
          (t.bulkHops 2 0x30 0 body (t.nowNs + k * 1200000000)).bulkHops 3 0x30 0 body (t.nowNs + k * 1200000000)) s2
        (.ok, s3.campGo 1)

/-- Send a pass: every block, or the missing ones, of each LAP version that some target speaks. -/
def campPass (s : State) (want : Nat → Nat → Bool) : State :=
  let s1 := ([2, 3] : List Nat).foldl (fun t lap =>
    let n := ceilDiv t.seg.camp.bytes.length (blockSize lap)
    (List.range n).foldl (fun u b =>
      if want lap b then u.bulkHops lap 0x31 b ((u.seg.camp.bytes.drop (b * blockSize lap)).take (blockSize lap)) 0 else u) t) s
  s1.campGo 2

/-- A list of polls or checks begins. -/
def campAsk (s : State) (xs : List (Nat × Nat × Nat)) : State :=
  ({ s with seg := { s.seg with camp := { s.seg.camp with todo := xs, asked := [] } } } : State).campFill

/-- POLL: READ_BITMAP for every bitmap of every target still in the campaign (R177). -/
def campPoll (s : State) : State :=
  let n := s.seg.camp.bytes.length
  let ts := s.seg.camp.targets.map (fun t => { t with maps := mapsOf t.lap n, missing := [] })
  let xs := (ts.filter (fun t => !t.failed)).flatMap (fun t => t.maps.map (fun k => (t.lid, 0x32, k)))
  ((s.setTargets ts).campAsk xs).campGo 3

/-- A target has answered every bitmap and misses no block. -/
def CampTarget.complete (t : CampTarget) : Bool := t.maps.isEmpty && t.missing.isEmpty

/-- VERIFY: the complete targets check; `mark`: those that are not have failed. -/
def campVerify (s : State) (mark : Bool) : State :=
  let ts := s.seg.camp.targets.map (fun t => { t with failed := t.failed || (mark && !CampTarget.complete t), checked := false })
  let xs := (ts.filter (fun t => !t.failed && CampTarget.complete t)).map (fun t => (t.lid, 0x33, 0))
  ((s.setTargets ts).campAsk xs).campGo 4

/-- The end of a poll: what is still unanswered has timed out, and no longer counts as outstanding (09 R264). -/
def campPollEnd (s : State) : State :=
  let ts := s.seg.camp.targets.filter (fun t => !t.failed)
  let miss (lap b : Nat) : Bool := ts.any (fun t => decide (t.lap = lap) && t.missing.contains b)
  let s0 : State := { s with seg := { s.seg with camp := { s.seg.camp with todo := [], asked := [] } } }
  if ts.all (fun t => t.missing.isEmpty) then s0.campVerify false
  else if s0.fld R.SEG_FW_STAT_ROUND < s0.fld R.SEG_FW_CFG_ROUNDS then
    (s0.setFld R.SEG_FW_STAT_ROUND (s0.fld R.SEG_FW_STAT_ROUND + 1)).campPass miss
  else s0.campVerify true

/-- ABORT, or the carried image replaced. -/
def campAbort (s : State) : Status × State :=
  if s.campState = 0 then (.refusedState, s)
  else
    let keep (i : DownItem) : Bool := match i.msg with
      | .bulk _ _ _ => false
      | _ => true
    let s1 := { s with links := { s.links with queue := s.links.queue.filter keep }, seg := { s.seg with camp := {} } }
    (.ok, s1.campGo 0)

/-- ACTIVATE. -/
def campActivate (s : State) : Status × State :=
  let f := s.fld R.SEG_FW_ACT_FRAME
  let ahead := (f + 2 ^ 32 - s.fr.number % 2 ^ 32) % 2 ^ 32
  if s.campState ≠ 5 then (.refusedState, s)
  else if ahead < 50 ∨ 2 ^ 31 ≤ ahead then (.late, s)
  else
    let s1 := s.seg.camp.targets.foldl (fun u t => if t.failed then u else u.bulkTo t.lid 0x34 (leBytes 4 f)) s
    (.ok, ({ s1 with seg := { s1.seg with camp := { s1.seg.camp with actFrame := s1.fr.number + ahead } } }).campGo 6)

/-- SEG_FW_CTRL. -/
def writeFwCtrl (s : State) (v : Word) : Status × State :=
  match getBits v 8 2 with
  | 1 => s.campStart (getBits v 0 4)
  | 2 => s.campActivate
  | 3 => s.campAbort
  | _ => (.invalid, s)

/-- A target's answer to a poll or a check. The answer to READ_BITMAP names its bitmap in its first byte. -/
def campAnswer (s : State) (lid : Nat) (a : CmdAnswer) : State :=
  let k := if a.code = 0x32 then leNat (a.data.take 1) else 0
  let upd (f : CampTarget → CampTarget) : State :=
    let s1 := s.setTargets (s.seg.camp.targets.map (fun t => if t.lid = lid ∧ !t.failed then f t else t))
    ({ s1 with seg := { s1.seg with camp := { s1.seg.camp with
      asked := s1.seg.camp.asked.filter (fun x => decide (x ≠ (lid, a.code, k))) } } } : State).ownFill.campFill
  if !s.seg.camp.asked.contains (lid, a.code, k) then s
  else if a.code = 0x32 ∧ s.campState = 3 then
    upd (fun t => { t with
      maps := t.maps.filter (fun x => decide (x ≠ k))
      missing := t.missing ++ a.missing.filter (fun b => decide (b / mapBlocks t.lap = k)) })
  else if a.code = 0x33 ∧ s.campState = 4 then
    upd (fun t => { t with checked := true, failed := decide (a.st ≠ Status.ok) })
  else s

/-- Every complete target has reported its check. -/
def campChecked (s : State) : Bool := s.seg.camp.targets.all (fun t => t.failed || t.checked || !CampTarget.complete t)

/-- A lantern's answer as a result: OK, or its own refusal as INVALID or REFUSED_STATE (R193). -/
def answerStatus (st : Status) : Status := if st = .ok then .ok else if st = .refusedState then .refusedState else .invalid

/-- Views of R216: the selected enrol entry and the selected lantern. -/
def segView (s : State) (a : Nat) (w : Word) : Word :=
  let lid := s.fld R.SEG_LSEL_LID
  let g := s.leaf lid
  let node := s.seg.enrol[s.fld R.SEG_ENROL_SEL_INDEX]?
  let lvl (v : Option Nat) : Word := BitVec.ofNat 32 (match v with
    | some x => x % 65536 + 65536
    | none => 0)
  if a = R.SEG_ENROL_EUI_LO_EUI.addr then BitVec.ofNat 32 ((node.map (fun q => q.eui)).getD 0)
  else if a = R.SEG_ENROL_EUI_HI_EUI.addr then BitVec.ofNat 32 ((node.map (fun q => q.eui)).getD 0 / 2 ^ 32)
  else if a = R.SEG_ENROL_INFO_FW.addr then
    (match node with
     | some q => BitVec.ofNat 32 (q.fw % 65536 + (if q.lap2 then 2 ^ 16 else 0) + (if q.lap3 then 2 ^ 17 else 0) + (if q.gen2 then 2 ^ 18 else 0))
     | none => 0)
  else if a = R.SEG_LSTATE_SOURCE.addr then BitVec.ofNat 32 (g.source + (if g.traf.isSome ∧ s.fr.number < g.hold then 8 else 0))
  else if a = R.SEG_LSCHED_LEVEL.addr then lvl g.sched
  else if a = R.SEG_LTRAF_LEVEL.addr then lvl g.traf
  else if a = R.SEG_LHOLD_FRAME.addr then BitVec.ofNat 32 g.hold
  else w

end State

/-! ### Commands -/

def execJoinReq (us : Fin 20000) (q : JoinReq) (s : State) : Out :=
  let t := s.atUs us
  .next (if s.poweredOn then { t with seg := { t.seg with joins := t.seg.joins ++ [⟨q, t.nowNs, none⟩] } } else s)

def execSetFailsafe (lid : Fin 16384) (s : State) : Out :=
  .next (if s.framesRun ∧ recComm s.fmem lid ∧ lid < s.part.lanterns ∧ (s.leaf lid).joined then s.sendFailsafe lid else s)

/-- `n` is the lantern's record number (09 R256). -/
def execStatusReport (lid : Fin 16384) (us : Fin 20000) (n : Nat) (r : StatusReport) (s : State) : Out :=
  .next (s.lapRecord lid n (fun t0 =>
    let t := t0.atUs us
    { t with seg := { t.seg with reports := t.seg.reports ++ [(lid.val, t.nowNs, t.fr.number, r)] } }))

def execStaleTimeout (lid : Fin 16384) (s : State) : Out :=
  .next (match (s.leaf lid).reportNs with
    | some t => s.whenDue (t + 3 * s.reportPeriod lid) (fun u => u.setLeaf lid { u.leaf lid with stale := true })
    | none => if (s.leaf lid).known.isNone then s
        else s.whenDue ((s.leaf lid).sinceNs + 3 * s.reportPeriod lid) (fun u => u.setLeaf lid { u.leaf lid with stale := true }))

/-- Class, direction and speed as the lantern gives them; `timeNs`: its time-stamp (06 R160). -/
def execDetectionReport (lid : Fin 16384) (us : Fin 20000) (n cls dir speed timeNs : Nat) (s : State) : Out :=
  .next (s.lapRecord lid n (fun t0 =>
    let t := (t0.atUs us).setLeaf lid { t0.leaf lid with detects := (t0.leaf lid).detects + 1 }
    { t with flow := { t.flow with dets := t.flow.dets ++ [⟨t.nowNs, timeNs, lid, cls, dir, speed⟩] } }))

def execLanternFaultReport (lid : Fin 16384) (us : Fin 20000) (n : Nat) (code : Fin 256) (raised : Bool) (s : State) : Out :=
  .next (s.lapRecord lid n (fun t0 =>
    let t := t0.atUs us
    if raised then t.raiseCode lid code true else t.clearCode lid code))

def execUnreachableTimeout (lid : Fin 16384) (s : State) : Out :=
  .next (match (s.leaf lid).badNs with
    | some t => s.whenDue (t + s.fld R.SEG_REPORT_UNREACH * 1000000000) (fun u => u.raiseCode lid 0x41 false)
    | none => s)

def execFaultSummary (s : State) : Out :=
  let p := s.fld R.SEG_FAULT_CFG_AGG * 1000000000
  .next (if s.poweredOn then
      s.whenDue (s.seg.aggNs + p) (fun t =>
        let t1 := if t.seg.notes.isEmpty then t else t.faultSummary
        { t1 with seg := { t1.seg with aggNs := t.seg.aggNs + (t.nowNs - t.seg.aggNs) / p * p } })
    else s)

/-- An answer counts for the command in flight with its code and transaction ID; READ_STATUS and READ_ENERGY update the record. -/
def execCmdResponse (lid : Fin 16384) (us : Fin 20000) (a : CmdAnswer) (s : State) : Out :=
  let t := s.atUs us
  let t1 := match a.report with
    | some r => { t with seg := { t.seg with reports := t.seg.reports ++ [(lid.val, t.nowNs, t.fr.number, r)] } }
    | none => t
  .next (if !s.poweredOn then s
    else if a.code = 0x32 ∨ a.code = 0x33 then t.campAnswer lid a
    else match (s.leaf lid).cmds.head? with
      | some c => if c.code = a.code ∧ c.txn = a.txn then t1.cmdFinish lid (State.answerStatus a.st) a.cached (a.data.take 8) else s
      | none => s)

def execCmdRetry (lid : Fin 16384) (s : State) : Out :=
  .next (match (s.leaf lid).cmds.head? with
    | some c =>
      if c.sends ≠ 0 ∧ c.sends < 3 ∧ s.poweredOn then
        s.whenDue (c.sentNs + s.fld R.SEG_TIMING_CMD_TIMEOUT * 1000000000 / 3) (fun t => t.cmdSend lid)
      else s
    | none => s)

def execCmdTimeout (lid : Fin 16384) (s : State) : Out :=
  .next (match (s.leaf lid).cmds.head? with
    | some c =>
      if c.sends ≠ 0 ∧ s.poweredOn then
        s.whenDue (c.firstNs + s.fld R.SEG_TIMING_CMD_TIMEOUT * 1000000000) (fun t => t.cmdFinish lid .timeout false [])
      else s
    | none => s)

/-- A leaf's traffic hold has ended: in this EMIT the schedule takes over under hand-over. `l` is a LID, or 16,384 + c. -/
def execTrafficHoldEnd (l : Fin 16408) (s : State) : Out :=
  .next (if s.fr.phase = .emit ∧ (s.leaf l).traf.isSome ∧ (s.leaf l).hold ≤ s.fr.number ∧ s.allLeaves.contains l then (s.segHandover [l.val]).offerNow else s)

/-- The UNTIL frame of entry k is over: in this EMIT the next source takes over. -/
def execSafetyExpire (k : Fin 16) (s : State) : Out :=
  .next (if s.fr.phase = .emit ∧ s.bit R.SEG_SAFE_KIND k ∧ !s.safeInForce k s.fr.number then (s.segHandover s.allLeaves).offerNow else s)

def execLoadShed (s : State) : Out :=
  .next (if s.fr.phase = .emit ∧ s.seg.tally.shed ∧ s.seg.tally.delay ≤ s.seg.overRun ∧ s.seg.tally.cap < s.totalLoad then s.shed.offerNow else s)

/-- A third of a period after a boundary, when its data have come or are missing. -/
def execReconPeriodEnd (s : State) : Out :=
  let p := s.fld R.SEG_RECON_CFG_PERIOD * 60
  let b := s.utcMs / 1000 / p * p
  .next (if s.part.meter ∧ s.ready 13 ∧ s.poweredOn ∧ s.seg.reconDone < b ∧ b * 1000 + p * 1000 / 3 ≤ s.utcMs then
      let t := (List.range 6).foldl (fun u f => u.reconFeeder (b - p) b f) s
      { t with seg := { t.seg with reconDone := b } }
    else s)

def execCampaignAnnounceDone (us : Fin 20000) (s : State) : Out :=
  let t := s.atUs us
  .next (if s.campState = 1 ∧ s.seg.camp.actNs + 2400000000 ≤ t.nowNs ∧ !s.bulkWaits 0x30 then t.campPass (fun _ _ => true) else s)

def execCampaignPassSent (us : Fin 20000) (s : State) : Out :=
  let t := s.atUs us
  .next (if s.campState = 2 ∧ !s.bulkWaits 0x31 then t.campPoll else s)

def execCampaignPollEnd (us : Fin 20000) (s : State) : Out :=
  let t := s.atUs us
  let all := s.seg.camp.targets.all (fun x => x.failed || x.maps.isEmpty)
  .next (if s.campState = 3 ∧ (all ∨ s.seg.camp.actNs + 2 * s.fld R.SEG_TIMING_CMD_TIMEOUT * 1000000000 ≤ t.nowNs) then t.campPollEnd else s)

def execCampaignVerifyEnd (us : Fin 20000) (s : State) : Out :=
  let t := s.atUs us
  .next (if s.campState = 4 ∧ s.campChecked then t.campGo 5 else s)

/-- 600 s after the apply edge. -/
def execCampaignActivateEnd (s : State) : Out :=
  .next (if s.campState = 6 then
      s.whenDue (s.seg.camp.actFrame * State.frameNs + 600000000000) (fun t =>
        (t.setTargets (t.seg.camp.targets.map (fun x => { x with failed := x.failed || decide (t.lan x.lid 0x56 2 ≠ t.seg.camp.version % 65536) }))).campGo 0)
    else s)

end Sys2Proof.Machine
end

