-- ==== Sys2Proof/Machine/Meter.lean ====
section
/-! DEFINITION. The meter island and its link (13_meter_island.md): the die's side, and the island itself. -/

namespace Sys2Proof.Machine

namespace State

/-! ### The two directions of the link (R335, R338) -/

/-- A frame of the die. -/
def toIsland (s : State) (typ : Nat) (payload : List Byte) : State :=
  ({ s with met := { s.met with counter := (s.met.counter + 1) % 65536 } }).emit (.toIsland (linkFrame typ s.met.counter payload))

/-- A frame of the island. -/
def fromIsland (s : State) (typ : Nat) (payload : List Byte) : State :=
  ({ s with isl := { s.isl with counter := (s.isl.counter + 1) % 65536 } }).emit (.fromIsland (linkFrame typ s.isl.counter payload))

/-- What the island holds of a request: of kind 0 the kept MEAS records, oldest first, of kind 1 the log records; as TYPE and payload. -/
def islHeld (s : State) (kind first count : Nat) : List (Nat × List Byte) :=
  if kind = 0 then
    (s.isl.kept.reverse.filter (fun m => decide ((m.seq + 2 ^ 32 - first) % 2 ^ 32 < count))).map (fun m => (0x10, measBytes m))
  else ((s.isl.log.zipIdx.drop first).take count).map (fun p => (0x11, islRecBytes p.2 p.1))

/-- READ_REQ: the running island resends what it holds of it, back to back. -/
def readReq (s : State) (kind first count : Nat) : State :=
  let s1 := s.toIsland 0x20 (leBytes 1 kind ++ leBytes 4 first ++ leBytes 2 count)
  if s1.isl.run then (s1.islHeld kind first count).foldl (fun t p => t.fromIsland p.1 p.2) s1 else s1

/-! ### The die's side -/

/-- The island is fitted and the die powered. -/
def metRuns (s : State) : Bool := s.part.meter && s.poweredOn

/-- The link session ends (R336): MET clears; with a phase alive it is a LINK fault (21 R448). -/
def metEnd (s : State) : State :=
  let s1 : State := { s with met := { s.met with sess := false, next := none, waiting := none, want := none }, isl := { s.isl with acked := false } }
  let s2 := match s.met.waiting with
    | some (i, id) => s1.respond i id .notReady []
    | none => s1
  let s3 := ((((s2.clearReady 13).setBit R.MET_ALARM_LINK_LOST true).setBit R.MET_STAT_FW_BUSY false).setFld R.MET_STAT_VERSION 0).report 0 0x0A .meterLink [] []
  if s.fld R.WCH_IN_VALUE 1 ≠ 0 then s3.fltRaise clsLink 1 [13] else s3

/-- Island log records below `n` that the mirror lacks, as runs of index and length. -/
def metLacks (s : State) (n : Nat) : List (Nat × Nat) :=
  let r := s.evr.met.recs.reverse.foldl (fun (acc : List (Nat × Nat) × Nat) x =>
    (if acc.2 < x.seq then acc.1 ++ [(acc.2, x.seq - acc.2)] else acc.1, max acc.2 (x.seq + 1))) ([], 0)
  if r.2 < n then r.1 ++ [(r.2, n - r.2)] else r.1

/-- `a` is newer than `b` in serial-number order. -/
def newerSeq (a b : Nat) : Bool := decide (0 < (a + 2 ^ 32 - b) % 2 ^ 32 ∧ (a + 2 ^ 32 - b) % 2 ^ 32 < 2 ^ 31)

/-- Ask for `n` MEAS records from a SEQ on: for the last 900 of them at most, since no others are kept. -/
def metWant (s : State) (first n : Nat) : State :=
  ({ s with met := { s.met with want := some (first, n) } } : State).readReq 0 ((first + (n - 900)) % 2 ^ 32) (min n 900)

/-- After HELLO: ask for the MEAS records after the newest held, as far as the island still keeps any, and for the log records the mirror
lacks. -/
def metAsk (s : State) (newest logs : Nat) : State :=
  let s1 := match s.met.last with
    | some q => if newerSeq newest q then s.metWant ((q + 1) % 2 ^ 32) ((newest + 2 ^ 32 - q) % 2 ^ 32) else s
    | none => s.readReq 0 ((newest + 2 ^ 32 - 899) % 2 ^ 32) 900
  (s1.metLacks logs).foldl (fun t p => t.readReq 1 p.1 p.2) s1

def metHello (s : State) (p : List Byte) : State :=
  let vmin := leAt p 0 1
  let vmax := leAt p 1 1
  let s1 := if s.met.sess then s.metEnd else s
  if vmin ≤ 2 ∧ 2 ≤ vmax then
    let s2 := (s1.toIsland 0x02 [2, 0]).setFld R.MET_STAT_VERSION 2
    let s3 : State := { s2 with met := { s2.met with sess := true, heardNs := s2.nowNs, serial := leAt p 6 8 }, isl := { s2.isl with acked := true } }
    s3.metAsk (leAt p 14 4) (leAt p 18 2)
  else
    ((s1.toIsland 0x02 [0, BitVec.ofNat 8 Status.version.code]).setBit R.MET_ALARM_VERSION true).report 0 0x0A .meterLink [vmin, vmax] []

/-- Records that the island no longer holds (R338): counted, with one EVR record for the gap. -/
def metGap (s : State) (n : Nat) : State :=
  if n = 0 then s else (s.addSat R.MET_LINK_CNT_GAP n).report 0 0x0A .meterGap [] [n]

/-- Of the records asked for, resent in their order, this one shows which are no longer held: those before it; all that are left, once the
island goes on beyond them. -/
def metHeard (s : State) (seq : Nat) : State :=
  match s.met.want with
  | none => s
  | some (first, n) =>
    let d := (seq + 2 ^ 32 - first) % 2 ^ 32
    let left : Option (Nat × Nat) := if d + 1 < n then some ((seq + 1) % 2 ^ 32, n - d - 1) else none
    if d < n then ({ s with met := { s.met with want := left } } : State).metGap d
    else if d < 2 ^ 31 then ({ s with met := { s.met with want := none } } : State).metGap n
    else s

/-- A valid MEAS record arrives (R336, R338); those missing between the newest and it are asked for. -/
def metMeas (s : State) (m : Meas) : State :=
  let s1 := if s.ready 13 then s else s.setReady 13
  let p := s1.fld R.SEG_RECON_CFG_PERIOD * 60
  let s2 := if p ≠ 0 ∧ m.secs % p = 0 then
      { s1 with met := { s1.met with bounds := ((m.secs, m.feeders.map (fun f => f.1)) :: s1.met.bounds).take 8 } }
    else s1
  let asked := s2.met.want.any (fun w => decide ((m.seq + 2 ^ 32 - w.1) % 2 ^ 32 < w.2))
  let s3 := s2.metHeard m.seq
  let show_ (t : State) : State := { t with met := { t.met with last := some m.seq, next := some (t.nowNs, m) } }
  match s3.met.last with
  | some q =>
    if newerSeq m.seq q then
      let gap := (m.seq + 2 ^ 32 - q) % 2 ^ 32 - 1
      let s4 := show_ s3
      if gap = 0 ∨ asked then s4 else s4.metWant ((q + 1) % 2 ^ 32) gap
    else s3
  | none => show_ s3

/-- The incomer CT ratio that the newest CT_CHANGE record of the log mirror names: no field of MEAS holds it (R337, R342; log entry
136). -/
def metCt (s : State) : Option (Nat × Nat) :=
  (s.evr.met.recs.find? (fun r => decide (r.key = [0x0021]))).map (fun r => (r.data.getD 4 5 + 256 * r.data.getD 5 0, r.data.getD 6 5))

/-- Show that ratio. -/
def metCtShow (s : State) : State :=
  match s.metCt with
  | some (pri, sec) => (s.setFld R.MET_CT_RATIO_PRI pri).setBit R.MET_CT_RATIO_SEC (decide (sec = 1))
  | none => s

/-- Show a record (R338, R344): alarms join MET_ALARM, and a new alarm or a change of the seal is a SEC record. -/
def metShow (s : State) (m : Meas) : State :=
  let was := s.rd R.MET_ALARM_OPENED.addr
  let wasOpen := s.bit R.MET_STAT_OPEN
  let s1 := ((s.setBit R.MET_STAT_OPEN (m.status.testBit 0)).setBit R.MET_STAT_TIME_VALID (m.status.testBit 1)).setBit
    R.MET_STAT_SLEWING (m.status.testBit 2)
  let al := was ||| BitVec.ofNat 32 (m.alarm % 512)
  let s2 := s1.wr R.MET_ALARM_OPENED.addr al
  let s3 := ((s2.setFld R.MET_SEQ_SEQ m.seq).setFld R.MET_TIME_LO_S m.secs).setFld R.MET_TIME_HI_S (m.secs / 2 ^ 32)
  let s4 := m.energy.zipIdx.foldl (fun t p =>
    (t.setFld R.MET_ENERGY_LO_E p.1 p.2).setFld R.MET_ENERGY_HI_E (p.1 / 2 ^ 32) p.2) s3
  let s5 := (((s4.setFld R.MET_DEMAND_LAST_W m.demLast).setFld R.MET_DEMAND_MAX_W m.demMax).setFld R.MET_DEMAND_MAX_PER_PERIOD
    m.demPer).setFld R.MET_DEMAND_PREV_W m.demPrev
  let s6 := (((s5.setBit R.MET_DEMAND_FLAGS_ADJ (m.demFlags.testBit 0)).setBit R.MET_DEMAND_FLAGS_INT (m.demFlags.testBit 1)).setFld
    R.MET_FREQ_F m.freq).setFld R.MET_LOG_COUNT_USED m.used
  let s7 := (s6.setFld R.MET_LOG_COUNT_UNLOGGED m.unlogged).metCtShow
  let s8 := (List.range 3).foldl (fun t k =>
    (t.setFld R.MET_SAG_COUNT (m.events.getD k 0) k).setFld R.MET_SWELL_COUNT (m.events.getD (k + 3) 0) k) s7
  let s9 := m.phases.zipIdx.foldl (fun t p =>
    let v (i : Nat) : Nat := p.1.getD i 0
    ((((t.setFld R.MET_PH_V_V (v 0) p.2).setFld R.MET_PH_V_PF (v 1) p.2).setFld R.MET_PH_I_MA (v 2) p.2).setFld R.MET_PH_P_W (v 3)
      p.2).setFld R.MET_PH_Q_VAR (v 4) p.2) s8
  let s10 := m.feeders.zipIdx.foldl (fun t p => (t.setFld R.MET_FEEDER_E_E p.1.1 p.2).setFld R.MET_FEEDER_P_P p.1.2 p.2) s9
  if al ≠ was ∨ wasOpen ≠ m.status.testBit 0 then
    s10.report 1 0x0A .meterAlarm [] [al.toNat, if m.status.testBit 0 then 1 else 0]
  else s10

/-- The MET part of SNAP. -/
def metSnap (s : State) (edge : Nat) : State :=
  match s.met.next with
  | some (ns, m) => if ns < edge then ({ s with met := { s.met with next := none } }).metShow m else s
  | none => s

/-- An island log record becomes a METLOG record (16 R378, R383). -/
def metLog (s : State) (index : Nat) (r : IslRec) : State :=
  let x : Rec :=
    { seq := index, epoch := 0, boot := 0, gen := 2, source := 0x12, event := .islandLog, repeats := 0, firstMs := r.secs * 1000
      lastMs := 0, monoUs := 0, key := [r.code], data := (fitBytes 20 r.data).map (fun b => b.toNat) }
  if s.ready 7 then s.evrMirror x else s.evrHold 2 x

/-- IDENT_REQ. -/
def metIdent (s : State) : State := (s.toIsland 0x23 []).setBit R.MET_STAT_FW_BUSY true

/-- TSYNC_REQ with module UTC (R335). -/
def metTsync (s : State) : State :=
  s.toIsland 0x21 (leBytes 6 (s.utcMs / 1000) ++ leBytes 4 (s.nowNs % 1000000000))

/-- The MET registers whose writes are not plain. -/
def metWrite (s : State) (a : Nat) (v : Word) : Option (Status × State) :=
  if a = R.MET_FW_REQ_REQ.addr then some (.ok, if v.getLsbD 0 then s.metIdent else s)
  else if a = R.MET_TSYNC_CTRL_REQ.addr then
    some (if !v.getLsbD 0 then (.ok, s) else if s.ntuState = 2 then (.ok, s.metTsync) else (.refusedState, s))
  else none

/-! ### The island (R325 to R343) -/

def setIsl (s : State) (x : Island) : State := { s with isl := x }

/-- Log records free. -/
def islFree (s : State) : Nat := 8192 - s.isl.log.length

/-- The MEAS record as it stands. -/
def islMeas (s : State) : Meas :=
  let x := s.isl
  { seq := x.seq, secs := x.secs
    status := (if x.isOpen then 1 else 0) + (if x.timeValid then 2 else 0) + (if x.slew ≠ 0 then 4 else 0) + (if x.testReactive then 8 else 0)
    energy := x.energy, demLast := x.demLast, demMax := x.demMax, demPer := x.demPer, demPrev := x.demPrev, demFlags := x.demFlags
    freq := x.freq, phases := x.phases, feeders := x.feeders, events := x.events, used := x.log.length, unlogged := x.unlogged
    alarm := x.alarm }

/-- Send a MEAS record. -/
def islSend (s : State) : State :=
  let m := s.islMeas
  ({ s with isl := { s.isl with seq := (s.isl.seq + 1) % 2 ^ 32, alarm := 0, kept := (m :: s.isl.kept).take 900 } }).fromIsland 0x10 (measBytes m)

/-- Append a log record; conditions (`b`) stop at 7,936 records and are then only counted (R342). A LOGREC and a MEAS follow. -/
def islLog (s : State) (code : Nat) (b : Bool) (data : List Byte) : State :=
  let n := s.isl.log.length
  if b ∧ 7936 ≤ n then { s with isl := { s.isl with unlogged := min 65535 (s.isl.unlogged + 1) } }
  else if 8192 ≤ n then s
  else
    let r : IslRec := ⟨code, s.isl.secs, data⟩
    let al := s.isl.alarm ||| (if n + 1 = 7936 then 4 else 0) ||| (if n + 1 = 8192 then 8 else 0)
    (({ s with isl := { s.isl with log := s.isl.log ++ [r], alarm := al } }).fromIsland 0x11 (islRecBytes n r)).islSend

/-- A fresh nonce. -/
def islChallenge (s : State) : State :=
  let (n, s1) := s.draw
  ({ s1 with isl := { s1.isl with nonce := n % 2 ^ 128 } }).fromIsland 0x30 (leBytes 16 n)

/-- The island's answer to a signed message, and the next nonce. -/
def islAnswer (s : State) (st : Status) : State := (s.fromIsland 0x31 (leBytes 1 st.code)).islChallenge

/-- A signed message (R330): `f` gives the outcome of a valid one. -/
def islSigned (s : State) (m : SignedMsg) (f : State → Status × State) : State :=
  if !s.part.meter ∨ !s.isl.run then s
  else if m.formed ∧ m.serial = s.isl.serial ∧ m.nonce = s.isl.nonce ∧ Config.sigValid s.isl.mkey m.body m.sig then
    let (st, t) := f s
    (if st = Status.ok then { t with isl := { t.isl with openSecs := 0 } } else t).islAnswer st
  else ({ s with isl := { s.isl with refused := s.isl.refused + 1 } }).islAnswer .auth

/-- A signed message that OPEN accepts with two log records free: one stays free for SEAL_CLOSE (R331). -/
def islOpen (s : State) (m : SignedMsg) (f : State → Status × State) : State :=
  s.islSigned m (fun t => if !t.isl.isOpen then (.refusedState, t) else if t.islFree < 2 then (.noSpace, t) else f t)

/-- The seal closes. -/
def islClose (s : State) (cause : Nat) : State :=
  let calm := s.isl.params.filter (fun p => match p with
    | .test _ => false
    | _ => true)
  ({ s with isl := { s.isl with isOpen := false, testReactive := false, params := calm } }).islLog 0x0011 false (leBytes 1 cause)

/-- Close the running demand period (R328). -/
def islPeriod (s : State) : State :=
  let x := s.isl
  match x.perStart with
  | none => { s with isl := { x with perStart := some x.secs, perBase := x.energy.getD 3 0, perFlags := 0, perMark := x.secs } }
  | some st =>
    let w := (x.energy.getD 3 0 - x.perBase) * 4 / 100
    let up := decide (x.demMax < w)
    { s with isl := { x with
      demLast := w, demFlags := x.perFlags, demMax := if up then w else x.demMax, demPer := if up then st / 900 else x.demPer
      perStart := some x.secs, perBase := x.energy.getD 3 0, perFlags := 0, perMark := x.secs } }

/-- The UTC month of a time in seconds. -/
def monthOf (secs : Nat) : Int :=
  let (y, m, _) := civilOf (secs / 86400 : Nat)
  y * 12 + m

/-- DEMAND_MAX becomes DEMAND_PREV when the next month has begun; from an older month it is no value of the previous one (R327, R328). -/
def islMonth (s : State) : State :=
  let m := monthOf s.isl.secs
  if s.isl.month < m then
    { s with isl := { s.isl with
      demPrev := if s.isl.month + 1 = m then s.isl.demMax else 0, demMax := 0, demPer := 0, month := m } }
  else s

/-- The budget left in the present UTC day of its clock, µs (R340). A clock that goes back into a day finds what it has spent there. -/
def islBudget (s : State) : Nat :=
  10000000 - ((s.isl.spent.find? (fun p => decide (p.1 = s.isl.secs / 86400))).map (fun p => p.2)).getD 0

/-- Budget spent by a movement while SEALED. -/
def islSpend (s : State) (us : Nat) : State :=
  let d := s.isl.secs / 86400
  let was := ((s.isl.spent.find? (fun p => decide (p.1 = d))).map (fun p => p.2)).getD 0
  if s.isl.isOpen ∨ us = 0 then s
  else { s with isl := { s.isl with spent := ((d, was + us) :: s.isl.spent.filter (fun p => decide (p.1 ≠ d))).take 3 } }

/-- The clock is moved by µs; `frac` is the µs of its present second. Demand periods follow (R328). -/
def islMove (s : State) (frac : Nat) (us : Int) : State :=
  let t : Int := (s.isl.secs : Int) * 1000000 + frac + us
  let new := (Int.fdiv t 1000000).toNat
  let old := s.isl.secs
  let s1 := { s with isl := { s.isl with perFlags := s.isl.perFlags ||| 1 } }
  if old < new ∧ old / 900 < new / 900 then
    { (s1.islPeriod) with isl := { s1.islPeriod.isl with secs := new, perStart := some new, perMark := new } }
  else if new < old then { s1 with isl := { s1.isl with secs := new, perMark := new } }
  else { s1 with isl := { s1.isl with secs := new } }

/-- The answer to TSYNC_REQ: status, kind, applied ms, budget left in ms. -/
def tsyncRsp (s : State) (st : Status) (kind : Nat) (us : Int) : State :=
  s.fromIsland 0x22 (leBytes 1 st.code ++ leBytes 1 kind ++ leSigned (Int.tdiv us 1000) ++ leBytes 2 (s.islBudget / 1000))

/-- The clock is set in full by a request of module UTC in ns, from a time without a valid clock: TIME_INIT, where a log record is free
beside the one that OPEN keeps. -/
def islInit (s : State) (utcNs : Nat) (d : Int) : State :=
  let before := s.isl.secs
  let new := utcNs / 1000000000
  let s1 : State := { s with isl := { s.isl with
    secs := new, timeValid := true, perStart := none, perMark := 0, slew := 0
    month := if s.isl.month = 0 then monthOf new else s.isl.month } }
  let s2 := s1.islMonth
  let ms := leSigned (Int.tdiv d 1000)
  (if s2.islFree < (if s2.isl.isOpen then 2 else 1) then s2 else s2.islLog 0x0041 false (ms ++ ms ++ leBytes 6 before)).tsyncRsp .ok 3 d

/-- A TSYNC_REQ with module UTC in ns at the island's time of `frac` µs into its second (R340). -/
def islTsync (s : State) (utcNs frac : Nat) : State :=
  let d : Int := (utcNs / 1000 : Nat) + 20 - ((s.isl.secs : Int) * 1000000 + frac)
  if !s.isl.timeValid then s.islInit utcNs d
  else
    let cap : Nat := if s.isl.isOpen then d.natAbs else s.islBudget
    if cap = 0 ∧ d ≠ 0 then
      ({ s with isl := { s.isl with alarm := s.isl.alarm ||| 256 } }).tsyncRsp .refusedState 0 0
    else if d.natAbs < 1000000 then
      ({ s with isl := { s.isl with slew := d } }).tsyncRsp .ok 1 d
    else if s.islFree < (if s.isl.isOpen then 2 else 1) then s.tsyncRsp .noSpace 0 0
    else
      let n : Nat := min d.natAbs cap
      let a : Int := if 0 < d then (n : Int) else -(n : Int)
      let before := s.isl.secs
      let s0 : State := { s with isl := { s.isl with slew := 0 } }
      let s1 := ((s0.islSpend n).islMove frac a).islLog 0x0040 false
        (leSigned (Int.tdiv d 1000) ++ leSigned (Int.tdiv a 1000) ++ leBytes 6 before)
      s1.tsyncRsp .ok 2 a

/-- Energy of 10 nWh at the CT secondary as parts of a register's 0.01 Wh of primary energy, 5,000,000 of them, through the incomer CT
ratio. -/
def islPrimary (x : Island) (e : Nat) : Nat := e * x.ctPri * (if x.ctSec1 then 5 else 1)

/-- A register takes parts: its whole units, and the rest. -/
def islCount (x : Island) (r : Nat) (parts : Nat) : Island :=
  let n := x.energyRest.getD r 0 + parts
  { x with
    energy := (List.range 12).map (fun k => if k = r then x.energy.getD k 0 + n / 5000000 else x.energy.getD k 0)
    energyRest := (List.range 12).map (fun k => if k = r then n % 5000000 else x.energyRest.getD k 0) }

/-- The quadrant of the three-phase totals: Q1 P and Q import, Q2 P export, Q3 both export, Q4 Q export (log entry 185). -/
def quadrant (p q : Int) : Nat := if 0 ≤ q then (if 0 ≤ p then 0 else 1) else (if 0 ≤ p then 3 else 2)

/-- The energy of a second enters the registers (R327): per phase import or export, the totals their sums, and the quadrant by the signs of
the totals. -/
def islEnergy (x : Island) (q : IslandIn) : Island :=
  let x1 := (List.range 3).foldl (fun y k =>
    let e := q.active.getD k 0
    islCount y (if 0 ≤ e then k else 4 + k) (islPrimary y e.natAbs)) x
  let x2 := islCount x1 (8 + quadrant q.active.sum q.reactive.sum) (islPrimary x1 q.reactive.sum.natAbs)
  let sum (i : Nat) : Nat := x2.energy.getD i 0 + x2.energy.getD (i + 1) 0 + x2.energy.getD (i + 2) 0
  { x2 with energy := (List.range 12).map (fun k => if k = 3 then sum 0 else if k = 7 then sum 4 else x2.energy.getD k 0) }

/-- The pulses of a second: one for 0.1 Wh, or varh, at the CT secondary (R343). -/
def islPulses (x : Island) (q : IslandIn) : Island :=
  let a := x.pulseRest.1 + (q.active.map Int.natAbs).sum
  let r := x.pulseRest.2 + q.reactive.sum.natAbs
  if x.testReactive then { x with pulses := x.pulses + r / 10000000, pulseRest := (x.pulseRest.1, r % 10000000) }
  else { x with pulses := x.pulses + a / 10000000, pulseRest := (a % 10000000, x.pulseRest.2) }

/-- A parameter message applies (R331). -/
def islSet (x : Island) : IslParam → Island
  | .cal ch consts => { x with cal := SMap.set [] x.cal ch consts }
  | .ct pri sec1 => { x with ctPri := pri, ctSec1 := sec1 }
  | .test reactive => { x with testReactive := reactive }
  | .mkey key => { x with mkey := key }

/-- The parameters as they stand once those accepted have applied. -/
def islSoon (x : Island) : Island := { x.params.foldl islSet x with params := [] }

/-- A parameter message is accepted: it applies from the next second, and is recorded (R331). -/
def islParam (s : State) (m : SignedMsg) (code : Nat) (data : Island → List Byte) (p : IslParam) : State :=
  s.islOpen m (fun t => (.ok, ({ t with isl := { t.isl with params := t.isl.params ++ [p] } } : State).islLog code false (data (islSoon t.isl))))

/-- HELLO: the island has no acknowledged session (R335, R336). -/
def islHello (s : State) : State :=
  s.fromIsland 0x01 ([2, 2] ++ leBytes 4 s.isl.fwid ++ leBytes 8 s.isl.serial ++ leBytes 4 ((s.isl.seq + 2 ^ 32 - 1) % 2 ^ 32) ++
    leBytes 2 s.isl.log.length)

/-- One second of the island's clock has passed (R327, R337, R343): what was measured in it, the slew in it, its ten HELLOs while no session
is acknowledged, the parameters that apply from now on, and the MEAS record. -/
def islSecond (s0 : State) (q : IslandIn) : State :=
  let x0 : Island := { islPulses (islEnergy s0.isl q) q with
    secs := s0.isl.secs + 1, freq := q.freq, phases := q.phases
    feeders := s0.isl.feeders.zipIdx.map (fun (p : (Nat × Nat) × Nat) =>
      ((p.1.1 + (q.feeders.getD p.2 (0, 0)).1) % 2 ^ 32, (q.feeders.getD p.2 (0, 0)).2))
    openSecs := s0.isl.openSecs + 1 }
  let s : State := { s0 with isl := islSoon x0 }
  let x := s.isl
  let lim : Nat := if x.isOpen then 100 else min 100 s.islBudget
  let n : Nat := min x.slew.natAbs lim
  let left : Int := if lim = 0 then 0 else if 0 < x.slew then x.slew - n else x.slew + n
  let v (p : List Nat) : Bool := decide (8000 ≤ p.getD 0 0)
  let loss := q.phases.any v && q.phases.any (fun p => !v p)
  let rev := q.active.any (fun e => decide (e < 0))
  let s1 := ({ s with isl := { x with slew := left, alarm := x.alarm ||| (if loss then 32 else 0) ||| (if rev then 64 else 0) } } : State).islSpend n
  (if s1.isl.acked then s1 else (List.range 10).foldl (fun t _ => t.islHello) s1).islSend

/-- The demand period after an outage: one whose end has passed closes, and the one running now is INT too (R328). -/
def islResume (s : State) (was : Nat) : State :=
  if !s.isl.timeValid then { s with isl := { s.isl with perStart := none } }
  else if s.isl.perStart.isSome ∧ was / 900 < s.isl.secs / 900 then
    { s.islPeriod with isl := { s.islPeriod.isl with perFlags := 2 } }
  else s

/-- The island runs again (R325, R331): its clock has run on through an outage of 72 h at most, and through a longer one if `clock`. -/
def islStart (s : State) (outage : Nat) (clock : Bool) : State :=
  let x := s.isl
  let on := clock || decide (outage ≤ 259200)
  let s1 := ({ s with isl := { x with
    run := true, acked := false, lasting := List.replicate 6 false, secs := if on then x.secs + outage else x.secs, timeValid := x.timeValid && on
    alarm := if x.timeValid ∧ !on then x.alarm ||| 16 else x.alarm } }).islResume x.secs
  let s2 := s1.islLog 0x0002 true (leBytes 4 outage)
  let s3 := if x.timeValid ∧ !on then s2.islLog 0x0005 true [] else s2
  let s4 := if x.isOpen then s3.islClose 3 else s3
  s4.islChallenge.islHello

end State

/-! ### Commands: the die's side -/

/-- Bytes arrive on the link, and the valid frames of one TYPE among them act; others are their own commands'. -/
def State.metReceive (s : State) (us typ : Nat) (bytes : List Byte) (f : State → List Byte → State) : State :=
  if s.metRuns then
    let r := linkPayloads typ bytes
    r.1.foldl f ((s.atUs us).addSat R.MET_LINK_CNT_ERR r.2)
  else s

/-- In a session; any such frame keeps it alive. -/
def State.metFrame (s : State) (us typ : Nat) (bytes : List Byte) (f : State → List Byte → State) : State :=
  s.metReceive us typ bytes (fun t p => if t.met.sess then f { t with met := { t.met with heardNs := t.nowNs } } p else t)

def execMeterHello (us : Fin 20000) (bytes : List Byte) (s : State) : Out := .next (s.metReceive us 0x01 bytes State.metHello)

def execMeterMeas (us : Fin 20000) (bytes : List Byte) (s : State) : Out :=
  .next (s.metFrame us 0x10 bytes (fun t p => t.metMeas (measOf p)))

def execMeterLogrec (us : Fin 20000) (bytes : List Byte) (s : State) : Out :=
  .next (s.metFrame us 0x11 bytes (fun t p => t.metLog (islRecOf p).1 (islRecOf p).2))

def execMeterIdentRsp (us : Fin 20000) (bytes : List Byte) (s : State) : Out :=
  .next (s.metFrame us 0x24 bytes (fun t p =>
    let t1 := ((t.setFld R.MET_FWID_FWID (leAt p 0 4)).setFld R.MET_FWCRC_CRC (leAt p 4 4)).setBit R.MET_STAT_FW_BUSY false
    { t1 with met := { t1.met with identNs := some t1.nowNs, serial := leAt p 8 8 } }))

def execMeterTsyncRsp (us : Fin 20000) (bytes : List Byte) (s : State) : Out :=
  .next (s.metFrame us 0x22 bytes (fun t p =>
    (((t.setFld R.MET_TSYNC_RES_STATUS (leAt p 0 1)).setFld R.MET_TSYNC_RES_KIND (leAt p 1 1)).setFldI R.MET_TSYNC_APPLIED_MS
      (signedAt p 2)).setFld R.MET_TSYNC_BUDGET_MS (leAt p 6 2)))

def execMeterChallenge (us : Fin 20000) (bytes : List Byte) (s : State) : Out :=
  .next (s.metFrame us 0x30 bytes (fun t p => { t with met := { t.met with nonce := leNat p } }))

/-- The island's answer goes back to the session that asked. -/
def execMeterSealedMsg (us : Fin 20000) (bytes : List Byte) (s : State) : Out :=
  .next (s.metFrame us 0x31 bytes (fun t answer =>
    match t.met.waiting with
    | some (i, id) => ({ t with met := { t.met with waiting := none } }).respond i id .ok (answer.map (fun (b : Byte) => (b.toNat : Int)))
    | none => t))

def execMeterLinkTimeout (s : State) : Out :=
  .next (if s.metRuns ∧ s.met.sess then s.whenDue (s.met.heardNs + 3000000000) (fun t => t.metEnd) else s)

/-- 05:00 past an hour of module UTC, in LOCKED with AUTO set: once an hour (R341). -/
def execTsyncAuto (us : Fin 20000) (s : State) : Out :=
  let t := s.atUs us
  let hour := t.utcMs / 3600000
  .next (if s.metRuns ∧ s.ready 13 ∧ s.ntuState = 2 ∧ s.bit R.MET_TSYNC_CFG_AUTO ∧ t.utcMs / 1000 % 3600 = 300 ∧ s.met.autoHour ≠ hour then
      { t with met := { t.met with autoHour := hour } }.metTsync
    else s)

/-- A SERVICE session's signed message (R330, 19 R424). -/
def execSealedMsg (i : Fin 8) (id : Nat) (msg : List Byte) (s : State) : Out :=
  .next (s.request i id 4 false (fun t =>
    if !t.part.meter then t.respond i id .invalid []
    else if !t.ready 13 then t.respond i id .notReady []
    else if t.met.waiting.isSome then t.respond i id .busy []
    else ({ t with met := { t.met with waiting := some (i.val, id) } }).toIsland 0x31 msg))

/-! ### Commands: the island's side -/

/-- An event of the running island. -/
def State.island (s : State) (f : State → State) : State := if s.part.meter ∧ s.isl.run then f s else s

/-- The frames of one TYPE that arrive at the running island. -/
def State.islReceive (s : State) (typ : Nat) (bytes : List Byte) (f : State → List Byte → State) : State :=
  s.island (fun t => (linkPayloads typ bytes).1.foldl f t)

/-- TSYNC_REQ arrives, at the island's µs of its present second. -/
def execIslandTsync (bytes : List Byte) (frac : Fin 1000000) (s : State) : Out :=
  .next (s.islReceive 0x21 bytes (fun t p => t.islTsync (leAt p 0 6 * 1000000000 + leAt p 6 4) frac))

/-- IDENT_REQ arrives: the checksum is computed over the code as it stands (R333). -/
def execIslandIdent (bytes : List Byte) (s : State) : Out :=
  .next (s.islReceive 0x23 bytes (fun t _ =>
    t.fromIsland 0x24 (leBytes 4 t.isl.fwid ++ leBytes 4 (crc32ieee t.isl.code).toNat ++ leBytes 8 t.isl.serial)))

def execIslandSecond (q : IslandIn) (s : State) : Out := .next (s.island (fun t => t.islSecond q))

def execDemandPeriodEnd (s : State) : Out :=
  .next (s.island (fun t => if t.isl.timeValid ∧ t.isl.secs % 900 = 0 ∧ t.isl.perMark ≠ t.isl.secs then t.islPeriod else t))

def execDemandMonthEnd (s : State) : Out := .next (s.island (fun t => if t.isl.timeValid then t.islMonth else t))

/-- The half-cycle RMS voltage of phase k has stayed on one side of `v`, in 0.1 V, for `ms`: a sag (`swell` false: at most v to begin it, above
v to end it) or a swell (at least v to begin it, below v to end it) begins or ends (R329). -/
def execSagSwell (k : Fin 3) (swell : Bool) (v ms : Nat) (s : State) : Out :=
  .next (s.island (fun t =>
    let i := k.val + (if swell then 3 else 0)
    let on := t.isl.lasting.getD i false
    let begins := !on && decide (10 ≤ ms) && (if swell then decide (2530 < v) else decide (v < 2070))
    let ends := on && (if swell then decide (v < 2507) else decide (2093 < v))
    { t with isl := { t.isl with
      lasting := (List.range 6).map (fun j => if j = i then (on || begins) && !ends else t.isl.lasting.getD j false)
      events := (List.range 6).map (fun j =>
        if j = i ∧ begins then (t.isl.events.getD j 0 + 1) % 2 ^ 32 else t.isl.events.getD j 0) } }))

/-- `jumper`: fitted as the island senses it; found absent, it has been removed (R331). -/
def execSealOpen (m : SignedMsg) (jumper : Bool) (s : State) : Out :=
  .next (s.islSigned m (fun t0 =>
    let t := if jumper then t0 else { t0 with isl := { t0.isl with reseat := false } }
    if t.isl.isOpen ∨ !jumper ∨ t.isl.reseat then (.refusedState, t)
    else if t.islFree < 2 then (.noSpace, t)
    else
      let t1 := { t with isl := { t.isl with isOpen := true, openSecs := 0, alarm := t.isl.alarm ||| 1 } }
      (.ok, t1.islLog 0x0010 false (leBytes 8 (Config.keyId t.isl.mkey)))))

def execSealClose (m : SignedMsg) (s : State) : Out :=
  .next (s.islSigned m (fun t => if t.isl.isOpen then (.ok, t.islClose 0) else (.refusedState, t)))

/-- Gain and phase constants of a channel, in the island's own format. -/
def execSetCal (m : SignedMsg) (ch : Fin 12) (consts : List Byte) (s : State) : Out :=
  .next (s.islParam m 0x0020 (fun x => leBytes 1 ch ++ SMap.find [] x.cal ch ++ consts) (.cal ch consts))

/-- The incomer CT ratio; its record gives 0 as the channel, which it has none of. -/
def execSetCt (m : SignedMsg) (pri : Fin 65536) (sec1 : Bool) (s : State) : Out :=
  let ratio (p : Nat) (one : Bool) : List Byte := leBytes 2 p ++ [if one then 1 else 5]
  .next (s.islParam m 0x0021 (fun x => 0 :: ratio x.ctPri x.ctSec1 ++ ratio pri sec1) (.ct pri sec1))

def execTestMode (m : SignedMsg) (mode : Nat) (s : State) : Out :=
  .next (s.islParam m 0x0022 (fun _ => leBytes 2 mode) (.test (decide (mode ≠ 0))))

/-- The image is kept until FW_ACTIVATE; loading changes nothing that R342 records. -/
def execFwLoad (m : SignedMsg) (fwid : Nat) (code sig : List Byte) (s : State) : Out :=
  .next (s.islOpen m (fun t => (.ok, { t with isl := { t.isl with loaded := some (fwid, code, sig) } })))

/-- The island restarts into the loaded image when its signature verifies, its registers kept (R332), and opens the link anew (R336). -/
def execFwActivate (m : SignedMsg) (s : State) : Out :=
  .next (s.islOpen m (fun t => match t.isl.loaded with
    | some (fwid, code, sig) =>
      if Config.sigValid t.isl.fwKey code sig then
        let t1 : State := { t with isl := { t.isl with fwid := fwid, code := code, loaded := none, acked := false } }
        (.ok, (t1.islLog 0x0030 false (leBytes 4 t.isl.fwid ++ leBytes 4 fwid ++ leBytes 4 (crc32ieee code).toNat)).islHello)
      else (.integrity, t)
    | none => (.refusedState, t)))

def execSetMkey (m : SignedMsg) (key : List Byte) (s : State) : Out :=
  .next (s.islParam m 0x0031 (fun x => leBytes 8 (Config.keyId x.mkey) ++ leBytes 8 (Config.keyId key)) (.mkey key))

def execSealJumperRemoved (s : State) : Out :=
  .next (s.island (fun t =>
    let t1 := { t with isl := { t.isl with reseat := false } }
    if t.isl.isOpen then t1.islClose 1 else t1))

/-- 4 h without an accepted signed message. -/
def execSealOpenTimeout (s : State) : Out :=
  .next (s.island (fun t =>
    if t.isl.isOpen ∧ 14400 ≤ t.isl.openSecs then { t with isl := { t.isl with reseat := true } }.islClose 2 else t))

/-- All phases fall below 80 V: registers are in non-volatile memory, and the running period is marked (R325, R328). -/
def execIslandStop (s : State) : Out :=
  .next (s.island (fun t =>
    let t1 := t.islLog 0x0001 true []
    { t1 with isl := { t1.isl with run := false, perFlags := t1.isl.perFlags ||| 2 } }))

/-- A phase reaches 80 V: seconds of outage, and whether the clock has run on. -/
def execIslandStart (outage : Nat) (clock : Bool) (s : State) : Out :=
  .next (if s.part.meter ∧ !s.isl.run then s.islStart outage clock else s)

/-- The island's cover is removed or refitted (R342). -/
def execIslandCoverChange (removed : Bool) (s : State) : Out :=
  .next (s.island (fun t =>
    if t.isl.cover = removed then t
    else
      let t1 := { t with isl := { t.isl with cover := removed, alarm := if removed then t.isl.alarm ||| 2 else t.isl.alarm } }
      t1.islLog (if removed then 0x0003 else 0x0004) true []))

end Sys2Proof.Machine
end

