-- ==== Sys2Proof/Machine/Upd.lean ====
section
/-! DEFINITION. Field update (18_update.md): manifests, parts, forward sealing, activation with its control pause, the trial and
rollback; and the end of a session, which ends what it was staging (19_host_protocol.md R426). -/

namespace Sys2Proof.Machine

namespace State

/-! ### Slots (R404, R417) -/

/-- The copy of the selector record that the boot ROM follows: the valid one with the higher sequence number (R404). -/
def selected (u : Upd) : SelCopy :=
  if !u.selA.good then u.selB else if !u.selB.good ∨ u.selB.seq ≤ u.selA.seq then u.selA else u.selB

/-- Write both copies of the selector record, and show it. -/
def writeSelector (s : State) (slot : Nat) (trial : Bool) : State :=
  let c : SelCopy := { seq := (selected s.upd).seq + 1, slot := slot, trial := trial, good := true }
  ({ s with upd := { s.upd with selA := c, selB := c } }.setFld R.UPD_SLOT_ACTIVE slot).setBit R.UPD_SLOT_TRIAL trial

/-- The boot ROM starts the slot that the selector names. -/
def bootSelect (s : State) : State :=
  (s.setFld R.UPD_SLOT_ACTIVE (selected s.upd).slot).setBit R.UPD_SLOT_TRIAL (selected s.upd).trial

/-! ### Checks (R408) -/

/-- Lighting hours. -/
def lightingHours (s : State) : Bool :=
  (List.range 6).any (fun f => s.bit R.DRV_FEEDER_STAT_CLOSED f) || s.chansOn.any (fun c => decide (s.chanOut c s.nowNs ≠ 0))

/-- Checks 4 to 10: reason of the first that fails. -/
def updChecks (s : State) : Option Nat :=
  if s.bit R.UPD_LOCK_LOCK then some 1
  else if s.lightingHours ∧ !s.bit R.UPD_POLICY_ALLOW_NIGHT then some 2
  else if !s.poweredOn ∨ !s.pwr.vaux then some 3
  else if s.fld R.PWR_STORE_PCT < 80 then some 4
  else if s.part.meter ∧ s.bit R.MET_STAT_OPEN then some 5
  else if s.switchPos ≠ 0 then some 6
  else if s.updState = 4 ∨ s.updState = 5 then some 7
  else none

/-- Largest size of a part (R407); an unknown kind has no limit, and fails check 11. -/
def partLimit (kind : Nat) : Nat :=
  ([2 ^ 32, 48 * 2 ^ 20, 16 * 2 ^ 20, 4 * 2 ^ 20, 2 ^ 20, 2 ^ 16, 2 ^ 19] : List Nat).getD kind (2 ^ 32)

def partFormed (p : ManifestPart) : Bool :=
  decide (p.version < 2 ^ 32 ∧ p.least < 2 ^ 32 ∧ 1 ≤ p.size ∧ p.size ≤ partLimit p.kind ∧ p.digest.length = 32) &&
    (match p.kind with
     | 3 => decide (p.index ≤ 1)
     | 6 => decide (p.index ≤ 15)
     | _ => decide (p.index = 0))

/-- The structure follows R405 and R406. -/
def manifestFormed (m : Manifest) : Bool :=
  m.formed && decide (1 ≤ m.parts.length ∧ m.parts.length ≤ 22 ∧ m.bmr.length = 32) && m.parts.all partFormed &&
    m.parts.all (fun p => decide ((m.parts.filter (fun q => decide (q.kind = p.kind ∧ q.index = p.index))).length = 1))

/-- Both signatures verify under the halves of KEY[1], in one order or the other; without an owner half none does. -/
def manifestSigned (k : List Byte) (m : Manifest) : Bool :=
  match m.sigs with
  | [a, b] =>
    let by_ (x y : List Byte × List Byte) : Bool := Config.sigValid (k.take 64) x.1 x.2 && Config.sigValid (k.drop 64) y.1 y.2
    decide (64 < k.length) && (by_ a b || by_ b a)
  | _ => false

/-- Check 11. -/
def manifestServes (s : State) (m : Manifest) : Bool :=
  m.sizes.testBit s.part.sizeCode && decide (m.dieRev ≤ 0xB1) && m.parts.all (fun p => decide (1 ≤ p.kind ∧ p.kind ≤ 6))

/-- Check 12. -/
def manifestRange (s : State) (m : Manifest) : Bool :=
  let act := s.activeParts
  decide (s.fld R.UPD_SEQ_CONFIRMED < m.seq) && m.parts.all (fun p =>
    decide (versionOf act p.kind p.index ≤ p.version ∧ p.least ≤ versionOf act p.kind p.index) &&
      (decide (p.kind ≠ 3) || decide (p.index < s.part.trxs)))

/-- A manifest of another format is recorded (01 R25). -/
def manifestNote (s : State) (st : Status) (m : Manifest) : State :=
  if st = .version then s.report 0 0x0E .manifestVersion [m.format] [st.code] else s

/-- Checks 1 to 3. -/
def manifestShape (s : State) (m : Manifest) : Status :=
  if s.updState = 1 ∨ s.updState = 3 then .busy
  else if m.format ≠ 1 then .version
  else if !manifestFormed m then .invalid
  else .ok

/-- Checks 4 to 12: status and reason. -/
def manifestFit (s : State) (m : Manifest) : Status × Nat :=
  match s.updChecks with
  | some r => (.refusedState, r)
  | none =>
    if !s.manifestServes m then (.invalid, 0)
    else if !s.manifestRange m then (.range, 0)
    else (.ok, 0)

/-- The answer to a manifest once the engine has had KEY[1]: status and reason. -/
def manifestStatus (s : State) (m : Manifest) (u : Status × List Byte) : Status × Nat :=
  match s.manifestShape m with
  | .ok => if u.1 ≠ .ok then (u.1, 0) else if !manifestSigned u.2 m then (.auth, 0) else s.manifestFit m
  | st => (st, 0)

/-- A manifest is refused: shown, recorded and answered. -/
def manifestRefuse (s : State) (who : Option (Nat × Nat)) (m : Manifest) (st : Status) (r : Nat) : State :=
  ((s.manifestNote st m).updRefuse st r).keyAnswer who st [(r : Int)]

/-! ### Staging (R409, R410) -/

/-- A manifest is accepted. -/
def manifestAccept (s : State) (m : Manifest) : State :=
  let s1 := s.eraseStaged
  ((({ s1 with upd := { s1.upd with manifest := some m, got := 0 } }).setUpdState 1).setFld R.UPD_SEQ_STAGED_SEQ m.seq).updParts.updStage 0 [m.seq]

/-- Unlisted module parts are copied from the active slot. -/
def copyUnlisted (s : State) (m : Manifest) : State :=
  let ina := s.slotParts (1 - s.activeSlot)
  let more := s.activeParts.filter (fun p => decide (p.kind ≤ 5) && !m.parts.any (fun q => decide (q.kind = p.kind ∧ q.index = p.index)))
  (s.setSlotParts (1 - s.activeSlot) (ina ++ more)).updParts

/-- A part has come whole: its answer, and the state. -/
def partDone (s : State) (bytes : List Byte) : Status × State :=
  match s.updState, s.upd.manifest with
  | 1, some m =>
    match m.parts[s.upd.got]? with
    | some p =>
      if bytes.length ≠ p.size ∨ Config.sha256 bytes ≠ p.digest then (.integrity, s.stagingEnd .integrity)
      else
        let x : UpdPart := ⟨p.kind, p.index, p.version, p.digest, p.hw, bytes⟩
        let s1 := (s.setSlotParts (1 - s.activeSlot) (s.slotParts (1 - s.activeSlot) ++ [x]))
        let s2 := ({ s1 with upd := { s1.upd with got := s1.upd.got + 1 } }).updStage 1 [p.kind, p.index]
        if s2.upd.got < m.parts.length then (.ok, s2.updParts)
        else
          let s3 := s2.copyUnlisted m
          if bmrOf (s3.stagesOf (s3.slotParts (1 - s3.activeSlot))) = m.bmr then (.ok, s3) else (.invalid, s3.stagingEnd .invalid)
    | none => (.refusedState, s)
  | _, _ => (.refusedState, s)

/-- The key that slot k will hold under another BMR, along its whole parent chain. -/
def predictedKey (s : State) (bmr : List Byte) : Nat → Nat → Option (List Byte)
  | 0, _ => none
  | n + 1, k =>
    match s.keyActive k with
    | some x =>
      if x.derived then (predictedKey s bmr n x.parent).map (fun p => derivedKey p bmr x.label k x.gen)
      else some x.mat
    | none => none

/-- A blob sealed again under the predicted key; none when it fails to unseal. -/
def sealForward (s : State) (bmr : List Byte) (b : Nat × List Byte × List Byte) : Option (Nat × List Byte × List Byte) :=
  match s.keyLent b.1 5, s.predictedKey bmr 33 b.1 with
  | some k, some p =>
    (Config.decrypt k b.2.1 b.2.2).map (fun d => (b.1, (s.keySlot b.1).iv b.1, Config.encrypt p ((s.keySlot b.1).iv b.1) d))
  | _, _ => none

/-- Forward sealing of one blob: one that fails to unseal is copied unchanged and counted. -/
def forwardOne (t : State) (bmr : List Byte) (b : Nat × List Byte × List Byte) : State :=
  match t.sealForward bmr b with
  | some c =>
    let t1 := t.setKeySlot b.1 (t.keySlot b.1).tick
    { t1 with upd := { t1.upd with fwdBlobs := t1.upd.fwdBlobs ++ [c] } }
  | none => ({ t with upd := { t.upd with fwdBlobs := t.upd.fwdBlobs ++ [b] } }).addSat R.UPD_STAT_SEAL_FAIL 1

/-- Forward sealing of the whole sealed-data area. -/
def forwardSeal (s : State) (bmr : List Byte) : State := s.upd.blobs.foldl (fun t b => t.forwardOne bmr b) s

/-! ### The end of a session (19 R426) -/

/-- An open stream is discarded. -/
def streamDrop (s : State) (i : Nat) (x : HostStream) : State :=
  if x.op = 0x30 then
    (match s.imgOfRequest i x.id with
     | some k => s.clearSlot k
     | none => s)
  else if x.op = 0x32 then s.stagingAbort
  else s

/-- A slot is closed: what still runs for its session answers nobody. -/
def sessClear (s : State) (i : Nat) : State :=
  let jobs := s.key.queue.map (fun j => if j.who.map (fun w => w.1) = some i then { j with who := none } else j)
  let cmds (g : Leafing) : Leafing := { g with cmds := g.cmds.map (fun c => if c.session = some i then { c with session := some 8 } else c) }
  let leaves := s.seg.leaves.foldl (fun (m : SMap Leafing) (e : Nat × Leafing) => SMap.set {} m e.1 (cmds e.2)) s.seg.leaves
  let images := s.images.foldl (fun (m : SMap Image) (e : Nat × Image) =>
    SMap.set {} m e.1 (if e.2.session = i ∧ s.imgState e.1 = 2 then { e.2 with session := 8 } else e.2)) s.images
  let t := { s with
    key := { s.key with queue := jobs }, seg := { s.seg with leaves := leaves }, images := images
    bar := { s.bar with host := s.bar.host.map (fun (h : HostWr) => if h.session = i then { h with txn := none } else h) }
    host := { s.host with
      sessions := SMap.set {} s.host.sessions i {}
      own := s.host.own.filter (fun (e : Requester × Nat × Word) => decide (e.1 ≠ Requester.gsp i)) } }
  (t.wr (R.HOST_SESS_STATE.at i 0) 0).wr (R.HOST_SESS_REQ_ID.at i 0) 0

/-- A session ends; a network session not closed by its client stays RESUMABLE. -/
def sessEnd (s : State) (i : Nat) (resumable : Bool) : State :=
  if s.sessState i ≠ 1 ∧ s.sessState i ≠ 2 then s
  else
    let s1 := (s.sess i).streams.foldl (fun t x => t.streamDrop i x) s
    let s2 := s1.txnDrop i
    let s3 := match s2.met.waiting with
      | some (j, _) => if j = i then { s2 with met := { s2.met with waiting := none } } else s2
      | none => s2
    let x := s3.sess i
    let s4 :=
      if resumable ∧ i ≠ 7 ∧ s3.sessState i = 2 then
        (s3.setSess i { x with
          running := x.running.filter (fun n => !x.streams.any (fun y => decide (y.id = n))), streams := [], topics := 0, endNs := s3.nowNs }).setFld R.HOST_SESS_STATE 3 i
      else s3.sessClear i
    s4.syncSessions

/-- Every peer link goes DOWN. -/
def peersDown (s : State) : State :=
  ((List.range 8).foldl (fun t p => t.setFld R.HOST_PEER_STAT_STATE 0 p) s).setFld R.HOST_STAT_PEERS_UP 0

/-- Sessions and peer links close. -/
def hostClose (s : State) : State := ((List.range 8).foldl (fun t i => t.sessEnd i true) s).peersDown

/-! ### Class A and class B (R415, R416) -/

/-- A byte of F that class A covers. -/
def classAByte (a : Nat) : Bool := decide (a < 0x20D000) && (decide (0x200000 ≤ a) || decide (a % 128 < 0x40))

/-- A register that class A covers: the image slots and DRV's calibration. -/
def classAReg (a : Nat) : Bool :=
  decide (0x51000 ≤ a ∧ a < 0x51400) || decide (0x8000C ≤ a ∧ a < 0x80020) ||
    (decide (0x80100 ≤ a ∧ a < 0x80400) && (decide (a % 32 = 0) || decide (a % 32 = 8)))

def freeze (s : State) : Frozen :=
  ⟨s.fmem.filter (fun e => classAByte e.1), s.regs.filter (fun e => classAReg e.1), s.images⟩

/-- Put the frozen copies back, in NAND too. -/
def thaw (s : State) (z : Frozen) : State :=
  let f := z.f.foldl (fun m e => SMap.set (fDflt e.1) m e.1 e.2) (s.fmem.filter (fun e => !classAByte e.1))
  let t := z.f.foldl (fun m e => SMap.set (fDflt e.1) m e.1 e.2) (s.ftwin.filter (fun e => !classAByte e.1))
  let n := z.f.foldl (fun m e => SMap.set (fDflt e.1) m e.1 e.2) (s.nand.f.filter (fun e => !classAByte e.1))
  let s1 := { s with
    fmem := f, ftwin := t, images := z.images, regs := s.regs.filter (fun e => !classAReg e.1), nand := { s.nand with f := n } }
  z.regs.foldl (fun u e => u.wr e.1 e.2) s1

/-- Class B data goes back to its defaults. -/
def classBReset (s : State) : State :=
  let cells := s.flow.cells.foldl (fun (m : SMap FlowCell) (e : Nat × FlowCell) =>
    SMap.set {} m e.1 { (e.2 : FlowCell) with vel := linkVfree s.flow.links (e.1 / 64) }) s.flow.cells
  let s1 := { s with
    flow := { s.flow with cells := cells, tfl := [], cnt := [] }
    links := { s.links with failed := [] }
    nand := { s.nand with tfl := [] } }
  let s2 := (commissioned s1.fmem s1.part.lanterns).foldl (fun t l => t.setLan l 0x54 1 0) s1
  let dflt (t : State) (a : Nat) : State := t.wr a (regReset t.part a)
  (dflt (dflt s2 R.SEG_MISMATCH_LEVELS.addr) R.SEG_FAULT_CFG_CLUSTER.addr).setFld R.SEG_REPORT_UNREACH
    (getBits (regReset s.part R.SEG_REPORT_UNREACH.addr) R.SEG_REPORT_UNREACH.lo R.SEG_REPORT_UNREACH.width)

/-! ### The pause (R412) -/

/-- Every bead leaves its slot and every source of a program is unbound. -/
def allOut (s : State) : State :=
  s.images.foldl (fun (t : State) (e : Nat × Image) =>
    let t1 := e.2.placed.foldl (fun u q => u.unloadBead q.2) t
    let t2 := e.2.mpi.subs.foldl (fun u x => u.unbind x.source) t1
    (t2.setImage e.1 { t2.image e.1 with placed := [], unloading := false }).dropLeft e.1) s

/-- The first entry of class 0 or 1 whose sequence would end before `lim`. -/
def pauseEntry (s : State) (x lim : Nat) : Option TlqEntry :=
  (s.tlqOf x).find? (fun e => decide (e.cls ≤ 1 ∧ (s.launchPlan x e).1 + s.leadNs e < lim))

/-- Entries of class 0 and 1 due before `lim` are launched, past the others. -/
def pauseLaunch (s : State) (x lim : Nat) : Nat → State
  | 0 => s
  | n + 1 =>
    match s.pauseEntry x lim with
    | some e =>
      if s.trxReady x then
        let (b, e1) := s.launchPlan x e
        let t := s.setTlq x (e :: (s.tlqOf x).erase e)
        (t.launchSend x e1 (b + s.leadNs e)).pauseLaunch x lim n
      else s
    | none => s

/-- The new stages are measured, and the derived keys come from the new BMR. -/
def remeasure (s : State) : State :=
  let s1 := s.bootMeasure
  let s2 := { s1 with key := { s1.key with done := s.key.done } }
  let s3 := (List.range 32).foldl (fun t k =>
    if ((t.keyActive k).map (fun x => x.derived)).getD false then t.setKeySlot k { t.keySlot k with mat := none } else t) s2
  s3.deriveAll

/-- The selector names the other slot; `trial`: with TRIAL = 1. -/
def selectorTo (s : State) (k : Nat) (trial : Bool) : State :=
  ((s.writeSelector k trial).updParts).remeasure

/-- Back to the old slot: class A as frozen, class B at its defaults, the forward-sealed blobs dropped (R416). -/
def rollbackSwitch (s : State) : State :=
  let s1 := if s.bit R.UPD_SLOT_TRIAL then s.selectorTo (1 - s.activeSlot) false else s
  let s2 := match s1.upd.frozen with
    | some z => s1.allOut.thaw z
    | none => s1
  ({ s2 with upd := { s2.upd with frozen := none, fwdBlobs := [], switched := false, trialFmt := s2.upd.fmt } }).classBReset

/-- A rollback begins. -/
def rollbackBegin (s : State) (cause : Nat) : State := ({ s with upd := { s.upd with rollCause := cause } }).setUpdState 5

/-- Frames resume in the old slot. -/
def rollbackEnd (s : State) : State :=
  let seq := s.fld R.UPD_SEQ_STAGED_SEQ
  let s1 := ((s.setUpdState 0).setFld R.UPD_LAST_OUTCOME 2).setFld R.UPD_LAST_CAUSE s.upd.rollCause
  let s2 := ({ s1 with upd := { s1.upd with manifest := none } }).setFld R.UPD_SEQ_STAGED_SEQ 0
  ((s2.setFld R.UPD_REMAIN_S 0).updParts.updEvt R.UPD_EVT_ROLLED_BACK).updRecord seq s.upd.rollCause

/-- Frames stop: every log is dropped, every current bead let go, and the pause is counted from here. -/
def pauseStop (s : State) : State :=
  let s1 : State := { s with fr := { s.fr with phase := .stopped } }
  let s2 : State := { s1 with pwr := { s1.pwr with paused := true } }
  let s3 : State := { s2 with upd := { s2.upd with pauseNs := s2.nowNs, switched := true } }
  (List.range 16).foldl (fun t r => t.setCur r none) s3.dropLogs.hostClose

/-- The store layout that the staged set brings. -/
def trialLayout (s : State) : Nat :=
  match s.upd.manifest with
  | some m => m.storeFmt
  | none => s.upd.fmt

/-- The selector goes to the staged slot with TRIAL = 1, class A frozen. -/
def trialSwitch (s : State) : State :=
  let t : State := { s with upd := { s.upd with frozen := some s.freeze, trialFmt := s.trialLayout } }
  (t.setFld R.UPD_STAT_TRIAL_WRITES 0).selectorTo (1 - t.activeSlot) true

def pauseSwitch (s : State) : State := if s.updState = 3 then s.trialSwitch else s.rollbackSwitch

/-- The control pause: frames stop at this edge; what is due is launched, sessions close, records go to NAND, the selector is written, and
the domain resets; the watch core skips one sample. -/
def pauseBegin (s0 : State) : State :=
  let s1 := (s0.tickEdge).takeLevels.pauseStop
  let s2 := (s1.pauseLaunch 0 (s1.nowNs + 60000000) 64).pauseLaunch 1 (s1.nowNs + 60000000) 64
  let s3 := if s2.ready 7 then s2.evrFlush else s2
  let s4 : State := { s3 with wch := { s3.wch with nextNs := max s3.wch.nextNs s3.nowNs + 100000000 } }
  ((s4.pauseSwitch.clearReady 11).clearReady 12).allOut

/-- The statuses of the checks of 05 R134; a check 6 of the new runtime is one of its fields, not of the variant. -/
def checkStatus (k : Nat) : Status :=
  ([.ok, .invalid, .invalid, .auth, .version, .refusedState, .invalid, .invalid, .invalid, .budget, .auth, .invalid, .auth, .noSpace,
    .noSpace, .noSpace, .locked, .noSpace, .budget, .budget] : List Status).getD k .invalid

/-- The first failing check of what the new runtime refuses, as slot and check, and of what the image itself fails, as status and check. -/
def firstFailing (new : Option (Nat × Nat)) (own : Option (Status × Nat)) : Option (Status × Nat) :=
  match new, own with
  | some (_, k), some (st, r) => if k < r then some (checkStatus k, k) else some (st, r)
  | some (_, k), none => some (checkStatus k, k)
  | none, o => o

/-- Active images are verified again and come back: ISTATE starts at zero, F keeps its contents. `bad`: those that the new
runtime refuses, with the check's number. -/
def imagesResume (s : State) (bad : List (Nat × Nat)) : State :=
  (s.imagesIn 5).foldl (fun t i =>
    let t0 := t.setFld R.LTAB_IMG_STATE 3 i
    let m := (t0.image i).mpi
    match firstFailing (bad.find? (fun b => decide (b.1 = i))) (t0.checkImage i true) with
    | some (st, r) => (t0.setImage i { t0.image i with wasActive := false }).imgResult i st r
    | none =>
      let t1 := if 0 < m.iSize then { t0 with imem := SMap.clear t0.imem m.iBase (m.iBase + m.iSize - 1) } else t0
      t1.activateChecked i false) s

/-- Frames resume in the trial set: the confirmation window opens. -/
def trialBegin (s : State) (edge : Nat) : State :=
  let seq := s.fld R.UPD_SEQ_STAGED_SEQ
  let win := s.fld R.UPD_CONFIRM_WINDOW_MIN * 60
  let s1 : State := { s with upd := { s.upd with endNs := edge + win * 1000000000 } }
  let s2 := s1.classBReset.setUpdState 4
  ((s2.setFld R.UPD_REMAIN_S win).updEvt R.UPD_EVT_TRIAL).updRecord seq 0

def pauseOver (s : State) : State :=
  let s1 : State := { s with fr := { s.fr with phase := .emit } }
  { s1 with pwr := { s1.pwr with paused := false } }

/-- Frames resume, at the edge that follows. -/
def resume' (s : State) (bad : List (Nat × Nat)) : State :=
  let s1 := s.pauseOver
  let edge := s1.fr.edgeNs + frameNs
  let s2 := (s1.imagesResume bad).setFld R.UPD_LAST_PAUSE ((edge - s1.upd.pauseNs) / 1000000)
  if s2.updState = 3 then s2.trialBegin edge else s2.rollbackEnd

/-- At each frame edge of a trial: seconds left. -/
def updEdge (s : State) : State :=
  if s.updState = 4 then s.setFld R.UPD_REMAIN_S (ceilDiv (s.upd.endNs - s.nowNs) 1000000000) else s

/-! ### UPD_CTRL (R411, R413, R414) -/

/-- Accepted in STAGED alone, and when checks 4 to 10 pass; the check that fails gives the reason, in every state. -/
def updActivate (s : State) : Status × State :=
  match s.updChecks with
  | some r => (.refusedState, s.updRefuse .refusedState r)
  | none =>
    if s.updState ≠ 2 then (.refusedState, s.updRefuse .refusedState 0)
    else (.ok, ({ s with upd := { s.upd with switched := false } }).setUpdState 3)

/-- The trial set is confirmed. -/
def updConfirm (s : State) : Status × State :=
  if s.updState ≠ 4 then (.refusedState, s.updRefuse .refusedState 0)
  else
    let seq := s.fld R.UPD_SEQ_STAGED_SEQ
    let policy := (s.upd.manifest.bind (fun m => m.parts.find? (fun p => decide (p.kind = 5)))).bind (fun _ => partOf s.activeParts 5 0)
    let old := (s.carried s.seg.camp.image).map (fun p => p.digest)
    let s1 := (s.writeSelector s.activeSlot false).setFld R.UPD_SEQ_CONFIRMED seq
    let s2 := if s1.campState ≠ 0 ∧ (s1.carried s1.seg.camp.image).map (fun p => p.digest) ≠ old then s1.campAbort.2 else s1
    let s3 := match policy, s2.keyActive 1 with
      | some p, some h => s2.keyReplace 1 { h with mat := h.mat.take 64 ++ Config.policyOwner p.bytes }
      | _, _ => s2
    let s4 := { s3 with upd := { s3.upd with
      blobs := s3.upd.fwdBlobs, fwdBlobs := [], frozen := none, manifest := none, fmt := s3.upd.trialFmt, switched := false } }
    let s5 := (((s4.setUpdState 0).setFld R.UPD_LAST_OUTCOME 1).setFld R.UPD_LAST_CAUSE 0).setFld R.UPD_SEQ_STAGED_SEQ 0
    (.ok, (((s5.setFld R.UPD_REMAIN_S 0).updParts).updEvt R.UPD_EVT_CONFIRMED).updRecord seq 0)

def updRollback (s : State) : Status × State :=
  if s.updState ≠ 4 then (.refusedState, s.updRefuse .refusedState 0) else (.ok, s.rollbackBegin 1)

def updAbort (s : State) : Status × State :=
  if s.updState = 1 then (.ok, s.stagingAbort)
  else if s.updState = 2 then (.ok, (((s.eraseStaged.setUpdState 0).setFld R.UPD_LAST_OUTCOME 3).setFld R.UPD_LAST_CAUSE 6).updStage 4 [])
  else (.refusedState, s.updRefuse .refusedState 0)

/-- UPD_CTRL with one action bit. -/
def writeUpdCtrl (s : State) (v : Word) : Status × State :=
  match getBits v 0 4 with
  | 0 => (.ok, s)
  | 1 => s.updActivate
  | 2 => s.updConfirm
  | 4 => s.updRollback
  | 8 => s.updAbort
  | _ => (.invalid, s)

/-! ### Ends from outside (R413, 21 R455) -/

/-- VAUX is lost. -/
def updVauxLost (s : State) : State := s.stagingAbort

/-- GARNET resets the application domain: an activation that fails before the selector write records REFUSED_STATE (log entry 188). -/
def updGarnet (s : State) : State :=
  match s.updState with
  | 1 => s.stagingAbort
  | 3 => if s.upd.switched then (s.rollbackBegin 4).rollbackSwitch else ((s.setUpdState 2).updRefuse .refusedState 0).updEvt R.UPD_EVT_FAILED
  | 4 => (s.rollbackBegin 3).rollbackSwitch
  | _ => s

/-- A start, first part: ACTIVATING and TRIAL roll back as part of it (R413). -/
def updStart (s : State) : State :=
  if s.updState = 3 ∨ s.updState = 4 then (s.rollbackBegin 4).rollbackSwitch
  else if s.updState = 5 then s.rollbackSwitch
  else s

end State

/-! ### Commands -/

/-- A whole MANIFEST stream. Its signatures are checked in the engine's turn, and what follows them then. -/
def execManifest (i : Fin 8) (id : Nat) (bs : List Byte) (txn : Bool) (s : State) : Out :=
  let m := readManifest bs
  .next (s.request i id 3 false (fun t =>
    if !t.sessFeature i 0 then t.respond i id .version []
    else if txn then t.txnRefused i id
    else if !t.ready 10 then t.respond i id .notReady []
    else match t.manifestShape m with
      | .ok =>
        if t.keyFull then (t.keyBusy.updRefuse .busy 0).respond i id .busy [0]
        else t.keyQueue { use := some (1, 1), slots := [1], who := some (i.val, id), work := .manifest m }
      | st => t.manifestRefuse (some (i.val, id)) m st 0))

/-- `data`: what the segments that follow at once bring, of `len` bytes in all. -/
def execPart (i : Fin 8) (id len : Nat) (data : List Byte) (txn : Bool) (s : State) : Out :=
  .next (s.request i id 3 false (fun t =>
    if !t.sessFeature i 0 then t.respond i id .version []
    else if txn then t.txnRefused i id
    else if !t.ready 10 then t.respond i id .notReady []
    else if t.updState ≠ 1 then t.respond i id .refusedState []
    else if data.length < len then t.openStream i id 0x32 len data
    else if data.length = len then
      let (st, t1) := t.partDone data
      t1.respond i id st []
    else t.respond i id .invalid []))

def execForwardSealComplete (us : Fin 20000) (s : State) : Out :=
  .next (match s.upd.manifest with
    | some m =>
      if s.updState = 1 ∧ s.upd.got = m.parts.length ∧ s.poweredOn then
        ((((s.atUs us).forwardSeal m.bmr).setUpdState 2).updEvt R.UPD_EVT_STAGED).updStage 2 [m.seq]
      else s
    | none => s)

/-- The frame edge after an activation, or a rollback, was accepted. -/
def execControlPause (s : State) : Out :=
  .next (if s.fr.phase = .emit ∧ s.flt.step = 0 ∧ (s.updState = 3 ∨ s.updState = 5) then s.pauseBegin else s)

/-- `bad`: images that the new runtime's verifier refuses, with the check. -/
def execUpdateResume (bad : List (Fin 64 × Fin 20)) (s : State) : Out :=
  .next (if s.pwr.paused ∧ s.poweredOn then s.resume' (bad.map (fun b => (b.1.val, b.2.val))) else s)

/-- 1.2 s after the start of the pause of an activation. -/
def execUpdateNoResume (s : State) : Out :=
  .next (if s.pwr.paused ∧ s.updState = 3 then
      s.whenDue (s.upd.pauseNs + 1200000000) (fun t => (t.rollbackBegin 5).rollbackSwitch)
    else s)

def execConfirmWindowExpire (s : State) : Out :=
  .next (if s.updState = 4 then s.whenDue s.upd.endNs (fun t => (t.setFld R.UPD_REMAIN_S 0).rollbackBegin 2) else s)

end Sys2Proof.Machine
end

