-- ==== Sys2Proof/Machine/KeyEngine.lean ====
section
/-! DEFINITION. The cryptographic engine's operations as they end (17_keys_and_attestation.md R400): loads, attestations, RETIRE, the
signatures of a manifest (18_update.md R408), and SEAL and UNSEAL for the supervisor (R396). -/

namespace Sys2Proof.Machine

namespace State

/-- A load ends: steps 2 to 4 of R393. `half`: the new half fails its read-back or its test operation. -/
def loadDone (s : State) (j : KeyJob) (q : KeyLoad) (u : Status × List Byte) (half : Bool) : State :=
  match loadKey q j.use.isSome u with
  | (.ok, _) =>
    if half then (s.keyErase q.slot).keyAnswer j.who .integrity []
    else match s.loadShape q with
      | .ok =>
        let s1 := s.keyCommit q.slot
        (if q.slot = 2 ∧ s1.fld R.KEY_LIFECYCLE_STATE = 1 then s1.setFld R.KEY_LIFECYCLE_STATE 2 else s1).keyAnswer j.who .ok []
      | st => (s.keyErase q.slot).keyAnswer j.who st []
  | (st, _) => s.keyAnswer j.who st []

/-- RETIRE under a good signature: KEY[2] to KEY[31] are erased (R402). -/
def retired (s : State) (who : Option (Nat × Nat)) : State :=
  let t1 := (List.range 30).foldl (fun u j =>
    (((u.setKeySlot (j + 2) {}).wr (R.KEY_SLOT_CFG_TYPE.at (j + 2) 0) 0).wr (R.KEY_SLOT_STAT_STATE.at (j + 2) 0) 0).wr
      (R.KEY_SLOT_SEQ_SEQ.at (j + 2) 0) 0) s
  let t2 := (t1.failJobs ((List.range 30).map (fun j => j + 2))).setFld R.KEY_LIFECYCLE_STATE 3
  (t2.report 1 0x0C .retired [] []).keyAnswer who .ok []

/-- The signatures of a manifest are checked, and what R408 asks after them. -/
def manifestDone (s : State) (who : Option (Nat × Nat)) (m : Manifest) (u : Status × List Byte) : State :=
  match s.manifestStatus m u with
  | (.ok, _) => (s.manifestAccept m).keyAnswer who .ok []
  | (st, r) => s.manifestRefuse who m st r

/-- A blob goes into the sealed-data area of the running set: in a trial that is the new slot's, whose area takes the old one's place at
confirmation (18 R410, R414). -/
def addBlob (s : State) (b : Nat × List Byte × List Byte) : State :=
  if s.bit R.UPD_SLOT_TRIAL then { s with upd := { s.upd with fwdBlobs := s.upd.fwdBlobs ++ [b] } }
  else { s with upd := { s.upd with blobs := s.upd.blobs ++ [b] } }

/-- SEAL under slot k (R396); while a set is STAGED the blob is forward-sealed too (18 R410). -/
def sealData (s : State) (k : Nat) (key data : List Byte) : State :=
  let x := s.keySlot k
  let b := (k, x.iv k, Config.encrypt key (x.iv k) data)
  let s1 := (s.setKeySlot k x.tick).addBlob b
  let s2 := match s1.upd.manifest with
    | some m => if s1.updState = 2 then s1.forwardOne m.bmr b else s1
    | none => s1
  s2.emit (.sealed k .ok ((if s.bit R.UPD_SLOT_TRIAL then s.upd.fwdBlobs else s.upd.blobs).length))

/-- UNSEAL: INTEGRITY and no data when the tag does not hold. -/
def unsealData (s : State) (k : Nat) (key iv c : List Byte) : State :=
  match Config.decrypt key iv c with
  | some d => s.emit (.unsealed k .ok d)
  | none => s.emit (.unsealed k .integrity [])

/-- What an operation does when it ends well, or with its new half bad; `u`: what its slot gave when it began. -/
def workDone (s : State) (j : KeyJob) (u : Status × List Byte) (half : Bool) : State :=
  let k := (j.use.map (fun p => p.1)).getD 0
  match j.work, u with
  | .load q, _ => s.loadDone j q u half
  | .manifest m, _ => s.manifestDone j.who m u
  | .attest nonce, (.ok, key) => s.keyAnswer j.who .ok (s.token nonce key)
  | .retire body sig, (.ok, ca) => if Config.sigValid ca body sig then s.retired j.who else s.keyAnswer j.who .auth []
  | .seal data, (.ok, key) => s.sealData k key data
  | .unseal iv c, (.ok, key) => s.unsealData k key iv c
  | _, (st, _) => s.keyFail j st

/-- The active half of the slot that an operation used fails its integrity check (R392): the operation ends with INTEGRITY, and a half that
it was writing is erased. -/
def workBroken (s : State) (j : KeyJob) (k : Nat) : State :=
  let s1 := match j.work with
    | .load q => s.keyErase q.slot
    | _ => s
  (s1.keyBroken k).keyFail j .integrity

/-- The operation at the head of the queue ends, and the engine takes the next. -/
def keyDone (s : State) (e : KeyEnd) : State :=
  match s.key.queue with
  | [] => s
  | j :: js =>
    let s1 := { s with key := { s.key with queue := js } }
    let u := j.key.getD (Status.ok, [])
    (match e, j.use with
      | .slot, some (k, _) => if u.1 = Status.ok then s1.workBroken j k else s1.workDone j u false
      | .half, _ => s1.workDone j u true
      | _, _ => s1.workDone j u false).keyStart

/-- The supervisor asks for a SEAL or an UNSEAL: it is queued, or turned away with BUSY (R400). -/
def keyAsk (s : State) (a : SealAsk) : State :=
  let (k, w) := match a with
    | .seal k data => (k.val, KeyWork.seal data)
    | .unseal k iv c => (k.val, KeyWork.unseal iv c)
  let j : KeyJob := { use := some (k, 5), slots := [k], who := none, work := w }
  if s.keyFull then s.keyBusy.keyFail j .busy else s.keyQueue j

end State

/-! ### Commands -/

/-- The operation that runs ends; `asks`: what the supervisor asks for since the last such command (log entry 187). -/
def execKeyOperationComplete (us : Fin 20000) (e : KeyEnd) (asks : List SealAsk) (s : State) : Out :=
  .next (if s.poweredOn ∧ s.ready 5 then asks.foldl State.keyAsk ((s.atUs us).keyDone e) else s)

end Sys2Proof.Machine
end

