-- ==== Sys2Proof/Machine/Host.lean ====
section
/-! DEFINITION. Sessions and peer links of the host protocol (19_host_protocol.md R418 to R421, R426, R432, R433): handshakes,
HELLO, resumption, ends, notifications of log heads, and the peer links' own traffic. -/

namespace Sys2Proof.Machine

namespace State

/-! ### Authentication (R419) -/

/-- The certificate chains to the key of a slot of a type that permits VERIFY. -/
def chainsTo (s : State) (typ k : Nat) (cert sig : List Byte) : Bool :=
  decide (s.fld R.KEY_SLOT_CFG_TYPE k = typ ∧ s.keyVerify k cert sig = .ok)

/-- The certificate of a role chains as R419 asks: READER, OPERATOR and OWNER to KEY[2], SERVICE to a SERVICE slot and only on the
service interface. -/
def certOk (s : State) (service : Bool) (role : Nat) (cert sig : List Byte) : Bool :=
  if role = 4 then service && (List.range 32).any (fun k => s.chainsTo 7 k cert sig)
  else if 1 ≤ role ∧ role ≤ 3 then !service && s.chainsTo 2 2 cert sig
  else false

/-- The lifecycle state is UNOWNED (17 R402). -/
def unownedModule (s : State) : Bool := decide (s.fld R.KEY_LIFECYCLE_STATE = 1)

/-- The transport is offered on the interface (R418). -/
def offered (s : State) (service dtls : Bool) : Bool :=
  if service then !dtls else if dtls then s.bit R.HOST_CTRL_UDP_EN else s.bit R.HOST_CTRL_TCP_EN

/-- A refused authentication: counted, HOST_EVT.REFUSED, and one SEC record. -/
def authFail (s : State) (data : List Nat) : State :=
  ((s.addSat R.HOST_CNT_AUTH 1).setBit R.HOST_EVT_REFUSED true).report 1 0x11 .authRefused data []

/-- A connection waits for its HELLO. -/
def hostConnAdd (s : State) (c : HostConn) : State :=
  { s with host := { s.host with conns := s.host.conns.filter (fun x => decide (x.conn ≠ c.conn)) ++ [c] } }

def hostConnDrop (s : State) (c : Nat) : State :=
  { s with host := { s.host with conns := s.host.conns.filter (fun x => decide (x.conn ≠ c)) } }

/-- The cipher suite and the key exchange that the module offers (R418): AES-GCM with secp256r1. -/
def cipherOk (suite : TlsSuite) (p256 : Bool) : Bool := decide (suite ≠ .other) && p256

/-- A handshake completes, or is refused. -/
def handshake (s : State) (c : Nat) (service dtls : Bool) (suite : TlsSuite) (p256 : Bool) (subject role : Nat) (cert sig : List Byte) :
    State :=
  if !s.hostRuns ∨ !s.offered service dtls then s
  else if !cipherOk suite p256 then (s.authFail [c, subject, role]).emit (.refusedConn c .auth)
  else if s.keySigns ∧ service ∧ s.unownedModule then s.hostConnAdd ⟨c, service, dtls, 0, 4, true, s.nowNs⟩
  else if s.keySigns ∧ s.certOk service role cert sig then s.hostConnAdd ⟨c, service, dtls, subject, role, false, s.nowNs⟩
  else (s.authFail [c, subject, role]).emit (.refusedConn c .auth)

/-! ### HELLO (R25, R421) -/

/-- The version chosen from an offered range. -/
def helloVersion (lo hi : Nat) : Option Nat :=
  if lo ≤ 4 ∧ 4 ≤ hi then some 4 else if lo ≤ 3 ∧ 3 ≤ hi then some 3 else none

/-- The feature bits a version permits. -/
def versionFeatures (v : Nat) : Nat := if v = 4 then 63 else 7

/-- Put a session's registers. -/
def showSess (s : State) (i st role : Nat) (dtls : Bool) (version features : Nat) : State :=
  ((((s.setFld R.HOST_SESS_STATE st i).setFld R.HOST_SESS_ROLE role i).setBit R.HOST_SESS_DTLS dtls i).setFld R.HOST_SESS_VERSION
    version i).setFld R.HOST_SESS_FEATURES features i

/-- The session opens: its HELLO_ACK leaves, and one SEC record says so. -/
def sessOpen (s : State) (i : Nat) : State :=
  let s1 := (s.setFld R.HOST_SESS_STATE 2 i).syncSessions
  (s1.emit (.helloAck i .ok (s1.sessVersion i) (s1.fld R.HOST_SESS_FEATURES i) (s1.sess i).token (s1.fld R.HOST_WINDOW_KIB))).report 1
    0x11 .sessionOpen [i, s1.sessRole i] []

/-- A new token. -/
def newToken (s : State) (i : Nat) : State :=
  let (n, s1) := s.draw
  s1.setSess i { s1.sess i with token := Config.sessionToken n }

/-- The display turns on and shows a page. -/
def showPage (s : State) (p : Nat) : State :=
  let s1 := (s.setBit R.FP_STAT_DISPLAY true).setFld R.FP_STAT_PAGE p
  { s1 with fp := { s1.fp with quiet := 0 } }

/-- The PIN prompt of a service session (20 R444). -/
def pinPrompt (s : State) (refNs : Nat) : State :=
  let s1 := s.showPage 6
  { s1 with fp := { s1.fp with
    digits := List.replicate 6 0, pos := 0, wrong := 0, entry := some refNs, submitted := false, held := none, offered := false } }

/-- The slot that takes a network session: the lowest that is closed. -/
def freeSess (s : State) : Option Nat := (List.range 7).find? (fun i => decide (s.sessState i = 0))

/-- A RESUMABLE slot that a token of the same subject takes back; service sessions are never resumable (R426). -/
def resumeSlot (s : State) (c : HostConn) (token : Option Nat) : Option Nat :=
  match if c.service then none else token with
  | some t => (List.range 7).find? (fun i => decide (s.sessState i = 3 ∧ (s.sess i).token = t ∧ (s.sess i).subject = c.subject ∧
      s.nowNs < (s.sess i).endNs + 60000000000))
  | none => none

/-- A HELLO opens a new session in slot i. -/
def helloNew (s : State) (c : HostConn) (i v features window : Nat) : State :=
  let x : Session := { subject := c.subject, service := c.service, window := window * 1024, heardNs := s.nowNs, unowned := c.unowned }
  let s1 := ((s.setSess i x).newToken i).showSess i 1 (if c.service then 0 else c.role) c.dtls v (features &&& versionFeatures v)
  if c.service then (s1.syncSessions).pinPrompt c.atNs else s1.sessOpen i

/-- A HELLO that resumes slot i. -/
def helloResume (s : State) (c : HostConn) (i window : Nat) : State :=
  let s1 := s.setSess i { s.sess i with window := window * 1024, heardNs := s.nowNs, endNs := 0 }
  ((s1.newToken i).setBit R.HOST_SESS_DTLS c.dtls i).sessOpen i

/-- HELLO on a connection: it resumes a session, opens one, or is refused. -/
def hello (s : State) (c : HostConn) (lo hi features window : Nat) (token : Option Nat) : State :=
  let s0 := s.hostConnDrop c.conn
  if c.service ∧ s.fp.lockNs.isSome then s0.emit (.refusedConn c.conn .refusedState)
  else if window < 16 ∨ 256 < window then s0.emit (.refusedConn c.conn .invalid)
  else match s0.resumeSlot c token, helloVersion lo hi with
    | some i, _ => s0.helloResume c i window
    | none, none => (s0.emit (.refusedConn c.conn .version)).report 0 0x11 .helloVersion [c.conn, lo, hi] []
    | none, some v =>
      match (if c.service then (if s0.sessState 7 = 0 then some 7 else none) else s0.freeSess) with
      | some i => s0.helloNew c i v features window
      | none => (s0.setBit R.HOST_EVT_REFUSED true).emit (.refusedConn c.conn .noSpace)

/-! ### Peer links (R433) -/

/-- HOST_PEER_ID[p]. -/
def peerSerial (s : State) (p : Nat) : Nat := s.fld R.HOST_PEER_ID_LO_SERIAL p + s.fld R.HOST_PEER_ID_HI_SERIAL p * 2 ^ 32

/-- This side initiates: its serial number is the lower. -/
def peerInitiator (s : State) (p : Nat) : Bool := decide (Config.serial < s.peerSerial p)

def peerState (s : State) (p : Nat) : Nat := s.fld R.HOST_PEER_STAT_STATE p

/-- Peer p takes a link state; PEERS_UP follows. -/
def setPeer (s : State) (p st : Nat) : State :=
  let s1 := s.setFld R.HOST_PEER_STAT_STATE st p
  s1.setFld R.HOST_STAT_PEERS_UP (((List.range 8).filter (fun q => decide (s1.peerState q = 2))).length)

/-- A handshake with peer p has ended: the certificate's serial number and whether both sides' certificates verify. -/
def peerShake (s : State) (p serial : Nat) (good : Bool) : State :=
  if !s.peerEn p then s
  else if serial ≠ s.peerSerial p then (s.setPeer p 0).setBit R.HOST_EVT_PEER_ID true
  else if !good ∨ !s.keySigns then s.setPeer p 0
  else (s.setPeer p 2).peerHeard p

/-- This side's KEEPALIVE leaves, 1 s after the one before. -/
def peerAlive (s : State) (p : Nat) : State :=
  if s.nowNs < (s.hostPeer p).aliveNs + 1000000000 then s
  else (s.setHostPeer p { s.hostPeer p with aliveNs := s.nowNs }).emit (.peerAlive p)

/-- The HOST registers as read: which side initiates, and the age of a peer's last datagram in frames. -/
def hostView (s : State) (a : Nat) (w : Word) : Word :=
  if 0x110400 ≤ a ∧ a < 0x110500 ∧ a % 32 = 0x1C then
    let p := (a - 0x110400) / 32
    putBits (putBits w 2 1 (if s.peerInitiator p then 1 else 0)) 16 16 (if (s.hostPeer p).heardNs = 0 then 0 else min 65535 ((s.nowNs - (s.hostPeer p).heardNs) / frameNs))
  else w

end State

/-! ### Commands -/

/-- A TLS or DTLS handshake on connection `conn` ends: the interface, the transport, the cipher suite and whether the key exchange is on
secp256r1, the certificate's subject and the role that it
names (0 none or another name), what is signed and its signature. -/
def execSessionHandshake (conn : Nat) (service dtls : Bool) (suite : TlsSuite) (p256 : Bool) (subject : Nat) (role : Fin 5) (cert sig : List Byte)
    (us : Fin 20000) (s : State) : Out :=
  .next ((s.atUs us).handshake conn service dtls suite p256 subject role cert sig)

/-- The first message of a connection. -/
def execHello (conn lo hi features window : Nat) (token : Option Nat) (us : Fin 20000) (s : State) : Out :=
  let t := s.atUs us
  .next (match s.host.conns.find? (fun c => decide (c.conn = conn)) with
    | some c => if t.hostRuns then t.hello c lo hi features window token else t
    | none => t)

/-- SUBSCRIBE needs the feature NOTIFY. -/
def execSubscribe (i : Fin 8) (id mask : Nat) (s : State) : Out :=
  .next (s.request i id 1 false (fun t =>
    if !t.sessFeature i 2 then t.respond i id .version []
    else (t.setSess i { t.sess i with topics := mask % 16 }).respond i id .ok []))

/-- A KEEPALIVE of the client. -/
def execKeepalive (i : Fin 8) (us : Fin 20000) (s : State) : Out :=
  .next (if s.sessState i = 1 ∨ s.sessState i = 2 then (s.atUs us).sessHeard i else s)

def execSessionIdleTimeout (i : Fin 8) (s : State) : Out :=
  .next (if s.sessState i = 1 ∨ s.sessState i = 2 then
      s.whenDue ((s.sess i).heardNs + s.fld R.HOST_CTRL_IDLE * 1000000000) (fun t => t.sessEnd i true)
    else s)

/-- A close by the client, a fatal alert, or bytes that are no message: the module then closes the session itself. -/
def execSessionClose (i : Fin 8) (how : SessLeave) (us : Fin 20000) (s : State) : Out :=
  .next (if s.sessState i = 1 ∨ s.sessState i = 2 then
      match how with
      | .client => (s.atUs us).sessEnd i false
      | .alert => (s.atUs us).sessEnd i true
      | .message bs =>
        if (readGsp (s.bit R.HOST_SESS_DTLS i) bs).isSome then (s.atUs us).sessHeard i
        else ((s.atUs us).sessEnd i true).emit (.closed i .invalid)
    else s)

def execResumableExpire (i : Fin 8) (s : State) : Out :=
  .next (if s.sessState i = 3 then s.whenDue ((s.sess i).endNs + 60000000000) (fun t => t.sessClear i) else s)

/-- Once per second while the OPS or SEC head has moved. -/
def execEvrHeadNotify (s : State) : Out :=
  let now := (s.evr.ops.head, s.evr.sec.head)
  .next (if s.hostRuns ∧ now ≠ s.host.headSeen then
      s.whenDue (s.host.headNs + 1000000000) (fun t =>
        ({ t with host := { t.host with headSeen := now, headNs := t.nowNs } }).notifyAll 3 [now.1, now.2])
    else s)

/-- A peer link's handshake ends. -/
def execPeerHandshake (p : Fin 8) (serial : Nat) (good : Bool) (us : Fin 20000) (s : State) : Out :=
  .next (if s.hostRuns then (s.atUs us).peerShake p serial good else s)

/-- `from_`: a KEEPALIVE of the peer arrives; else this side's leaves, every second. -/
def execPeerKeepalive (p : Fin 8) (from_ : Bool) (us : Fin 20000) (s : State) : Out :=
  .next (if s.peerEn p ∧ s.peerState p = 2 then
      (if from_ then (s.atUs us).peerHeard p else (s.atUs us).peerAlive p)
    else s)

/-- No datagram for 5 s. -/
def execPeerLinkDown (p : Fin 8) (s : State) : Out :=
  .next (if s.peerState p = 2 then
      s.whenDue ((s.hostPeer p).heardNs + 5000000000) (fun t =>
        let t1 := (t.setPeer p 0).setBit R.HOST_EVT_PEER_DOWN true
        t1.setHostPeer p { t1.hostPeer p with tryNs := t1.nowNs })
    else s)

/-- The initiator tries a DOWN link of a configured peer again every 10 s. -/
def execPeerRetry (p : Fin 8) (s : State) : Out :=
  .next (if s.hostRuns ∧ s.peerEn p ∧ s.peerState p ≠ 2 ∧ s.peerInitiator p then
      s.whenDue ((s.hostPeer p).tryNs + 10000000000) (fun t =>
        ((t.setHostPeer p { t.hostPeer p with tryNs := t.nowNs }).setPeer p 1).emit (.peerOpen p))
    else s)

end Sys2Proof.Machine
end

