-- ==== Sys2Proof/Machine/Panel.lean ====
section
/-! DEFINITION. The front panel (20_panel_and_inputs.md): input filters, key events and pages, the hold pad and its actions, PIN
entry and lockout, the LEDs, the display, and the service cable. -/

namespace Sys2Proof.Machine

/-! ### One input (R436) -/

/-- A new sample through the raw history: the last 1,000 samples and transitions, with their counts. -/
def FpInput.push (x : FpInput) (raw : Bool) : FpInput :=
  let move := raw != x.raw
  let b (p : Bool) : Nat := if p then 1 else 0
  { x with
    raw := raw
    hist := (2 * x.hist + b raw) % 2 ^ 1000
    trans := (2 * x.trans + b move) % 2 ^ 1000
    ones := x.ones + b raw - b (x.hist.testBit 999)
    moves := x.moves + b move - b (x.trans.testBit 999)
    stable := if move then 0 else min 1000 (x.stable + 1) }

/-- The samples for which the transition count has been calm. -/
def FpInput.settle (x : FpInput) : FpInput := { x with calm := if 10 < x.moves then 0 else min 1000 (x.calm + 1) }

/-- CHATTER after this sample. -/
def FpInput.chatters (x : FpInput) (was : Bool) : Bool := if 10 < x.moves then true else was && decide (x.calm < 1000)

/-- The reported state after this sample: the majority while CHATTER holds, else the raw value once stable for 20 ms. -/
def FpInput.reported (x : FpInput) (chatter was : Bool) : Bool :=
  if chatter then (if x.ones = 500 then was else decide (500 < x.ones))
  else if 20 ≤ x.stable then x.raw else was

/-- The shown states of an LED. -/
inductive Led where
  | off | on | blink | fast | pulses
  deriving DecidableEq, Repr

namespace State

def fpInput (s : State) (k : Nat) : FpInput := SMap.find {} s.fp.inputs k

def setFpInput (s : State) (k : Nat) (x : FpInput) : State :=
  { s with fp := { s.fp with inputs := SMap.set {} s.fp.inputs k x } }

def setFp (s : State) (x : Fp) : State := { s with fp := x }

/-- Bit k of a register. -/
def regBit (s : State) (f : Fld) (k : Nat) : Bool := (s.fld f).testBit k

def setRegBit (s : State) (f : Fld) (k : Nat) (v : Bool) : State := s.wr f.addr (putBits (s.rd f.addr) (f.lo + k) 1 (if v then 1 else 0))

/-- The panel works. -/
def fpRuns (s : State) : Bool := s.poweredOn && s.ready 6

/-! ### Filtering (R436 to R439) -/

/-- CHATTER of input k changes. -/
def chatterNote (s : State) (k : Nat) (was now_ : Bool) : State :=
  let s1 := s.setRegBit R.FP_CHATTER_CHATTER k now_
  if now_ ∧ !was then (s1.setBit R.FP_EVT_CHATTER true).report 0 0x0F .chatter [k] [] else s1

/-- The display is on; page 5 is thereby displayed when it was off (R441, R442). -/
def displayOn (s : State) : State :=
  let s1 := s.setBit R.FP_STAT_DISPLAY true
  if !s.bit R.FP_STAT_DISPLAY ∧ s.fld R.FP_STAT_PAGE = 5 ∧ s.part.meter then s1.metIdent else s1

/-- The reported state of input k changes. -/
def inputNote (s : State) (k : Nat) (v : Bool) : State :=
  let s1 := s.setRegBit R.FP_INPUT_STATE k v
  if 11 ≤ k then s1.setBit R.FP_EVT_DIN true
  else if k = 7 ∧ v then s1.displayOn.setFp { s1.displayOn.fp with quiet := 0 }
  else s1

/-- Input k takes a raw sample. -/
def inputSample (s : State) (k : Nat) (raw : Bool) : State :=
  let x := ((s.fpInput k).push raw).settle
  let wasC := s.regBit R.FP_CHATTER_CHATTER k
  let was := s.regBit R.FP_INPUT_STATE k
  let c := x.chatters wasC
  let v := x.reported c was
  let s1 := s.setFpInput k { x with active := if v then min 30000 (x.active + 1) else 0 }
  let s2 := s1.chatterNote k wasC c
  let s3 := if v ≠ was then s2.inputNote k v else s2
  if !v ∧ k < 7 then s3.setRegBit R.FP_STUCK_STUCK k false else s3

/-- The position and the fault of the override switch as the panel reports them (R438). -/
def syncSwitch (s : State) : State :=
  let on := s.regBit R.FP_INPUT_STATE 9
  let off := s.regBit R.FP_INPUT_STATE 10
  (s.setFld R.FP_STAT_SWITCH (if on then 1 else if off then 2 else 0)).setBit R.FP_STAT_SW_FAULT (on && off)

/-! ### The hold pad (R440) -/

/-- The baseline after a sample: it moves 1/10,000 of the distance to the reading in each of the 10,000 samples of its time constant,
with a free rounding. -/
def padFollow (base count : Nat) : Nat :=
  let x := count * 65536
  let d := (x - base) + (base - x)
  let k := min d (max (d / 10001) (min (d / 9999 + 1) (Config.padTrack base count)))
  if base ≤ x then base + k else base - k

/-- The pad's reading: the baseline follows it while untouched; whether it is touched. -/
def padSample (s : State) (count : Nat) : State :=
  let th := s.fld R.FP_PAD_CFG_THRESH
  let base := if s.fp.started then s.fp.base else count * 65536
  let t := decide (base + th * 65536 < count * 65536)
  let s1 := s.setFld R.FP_PAD_RAW_COUNT count
  s1.setFp { s1.fp with base := if t then base else padFollow base count, touched := t, started := true }

/-- An action that needs a hold is offered: the lamp test on page 3, the FAULT acknowledgement on page 4. -/
def actionOffered (s : State) : Bool := decide (s.fld R.FP_STAT_PAGE = 3 ∨ s.fld R.FP_STAT_PAGE = 4)

/-- The hold goes on, starts or is cancelled; `was`: the pad's reported state before this sample, `offered`: the action stood offered
before it. -/
def holdSample (s : State) (was offered : Bool) : State :=
  let t := s.regBit R.FP_INPUT_STATE 6 && !s.regBit R.FP_STUCK_STUCK 6
  let held : Option Nat :=
    if !t ∨ !s.actionOffered then none
    else match s.fp.held with
      | some n => some (min 60000 (n + 1))
      | none => if !was ∧ offered then some 0 else none
  s.setFp { s.fp with held := held, offered := s.actionOffered }

/-! ### PIN entry (R444, R445) -/

/-- The PIN that the digits form. -/
def typedPin (s : State) : Nat := s.fp.digits.foldl (fun n d => 10 * n + d) 0

/-- A PIN is the one in force: the label's in UNOWNED, else the one set, or the label's if none has been. -/
def pinGood (s : State) (unowned : Bool) (pin : Nat) : Bool :=
  if unowned ∨ s.fp.pinHash = [] then decide (pin = Config.factoryPin)
  else decide (Config.sha256 (s.fp.salt ++ Config.pinBytes pin) = s.fp.pinHash)

/-- Wrong PINs of the last 60 minutes, newest first. -/
def recentWrong (s : State) : List Nat := s.fp.wrongNs.filter (fun t => decide (s.nowNs < t + 3600000000000))

/-- The prompt starts again. -/
def pinAgain (s : State) : State := s.setFp { s.fp with digits := List.replicate 6 0, pos := 0, submitted := true }

/-- The service connection ends with a status. -/
def serviceEnd (s : State) (st : Status) : State :=
  let s1 := (s.sessEnd 7 false).emit (.closed 7 st)
  (s1.setFp { s1.fp with entry := none, submitted := false }).setFld R.FP_STAT_PAGE 0

/-- A correct PIN: the session opens with the role SERVICE, and one SEC record is written. -/
def pinAccept (s : State) : State :=
  let s1 := s.setFp { s.fp with entry := none, submitted := false }
  (s1.setFld R.HOST_SESS_ROLE 4 7).sessOpen 7

/-- PIN entry locks for 15 minutes. -/
def pinLock (s : State) : State :=
  let s1 := s.setFp { s.fp with lockNs := some (s.nowNs + 900000000000) }
  ((s1.setBit R.FP_USB_STAT_LOCKOUT true).setBit R.FP_EVT_PIN_LOCK true).report 1 0x0F .pinLock [] []

/-- A wrong PIN. -/
def pinWrong (s : State) : State :=
  let ts := (s.nowNs :: s.recentWrong).take 5
  let s1 := s.setFp { s.fp with wrongNs := ts, wrong := s.fp.wrong + 1 }
  let s2 := if 5 ≤ ts.length then s1.pinLock else s1
  if 3 ≤ s2.fp.wrong then (s2.authFail [7]).serviceEnd .auth else s2.pinAgain

/-- OK submits the digits; nothing happens during a lockout. -/
def pinSubmit (s : State) : State :=
  if s.fp.lockNs.isSome then s
  else if s.pinGood (s.sess 7).unowned s.typedPin then s.pinAccept
  else s.pinWrong

/-- The PIN is being asked for on the page shown. -/
def pinAsked (s : State) : Bool := s.fp.entry.isSome && decide (s.sessState 7 = 1) && decide (s.fld R.FP_STAT_PAGE = 6)

/-- UP and DOWN on a digit. -/
def digitUp (d : Nat) : Nat := if d < 9 then d + 1 else if Config.digitWraps then 0 else d
def digitDown (d : Nat) : Nat := if 0 < d then d - 1 else if Config.digitWraps then 9 else d

/-- A key while the PIN is asked for. -/
def pinKey (s : State) (k : Nat) : State :=
  let p := s.fp.pos
  match k with
  | 0 => s.setFp { s.fp with digits := s.fp.digits.modify p digitUp }
  | 1 => s.setFp { s.fp with digits := s.fp.digits.modify p digitDown }
  | 2 => s.setFp { s.fp with pos := if 0 < p then p - 1 else if Config.posWraps then 5 else p }
  | 3 => s.setFp { s.fp with pos := if p < 5 then p + 1 else if Config.posWraps then 0 else p }
  | 4 => s.pinSubmit
  | _ => s.setFld R.FP_STAT_PAGE 0

/-! ### Pages (R442) -/

/-- The pages of the part, in order. -/
def pages (s : State) : List Nat := if s.part.meter then [0, 1, 2, 3, 4, 5, 6] else [0, 1, 2, 3, 4, 6]

/-- The page that LEFT (`right` false) or RIGHT leads to. -/
def nextPage (s : State) (right : Bool) : Nat :=
  let p := s.fld R.FP_STAT_PAGE
  if right then (s.pages.find? (fun q => decide (p < q))).getD (if Config.pageWraps then 0 else p)
  else (s.pages.reverse.find? (fun q => decide (q < p))).getD (if Config.pageWraps then 6 else p)

/-- A page is shown; each display of page 5 asks the island for its identity (13 R333). -/
def toPage (s : State) (p : Nat) : State :=
  let s1 := s.setFld R.FP_STAT_PAGE p
  let s2 := s1.setFp { s1.fp with scroll := 0, held := none }
  if p = 5 ∧ s.fld R.FP_STAT_PAGE ≠ 5 ∧ s.part.meter then s2.metIdent else s2

/-- A key pressed outside PIN entry. -/
def pageKey (s : State) (k : Nat) : State :=
  match k with
  | 0 => s.setFp { s.fp with scroll := s.fp.scroll - 1 }
  | 1 => s.setFp { s.fp with scroll := s.fp.scroll + 1 }
  | 2 => s.toPage (s.nextPage false)
  | 3 => s.toPage (s.nextPage true)
  | 5 => s.toPage 0
  | _ => s

/-- A key event (R437): counted, and the display is on; a press acts. -/
def keyEvent (s : State) (k : Nat) (pressed : Bool) : State :=
  let s1 := (s.addSat R.FP_KEY_CNT_EVENTS 1).displayOn
  let s2 := s1.setFp { s1.fp with quiet := 0 }
  if !pressed then s2 else if s2.pinAsked then s2.pinKey k else s2.pageKey k

/-! ### One sample (R435) -/

/-- The raw bits: keys and contacts as sensed, the pad from its reading, DIN after FP_DIN_POL. -/
def rawBits (s : State) (raw : Nat) (pad : Bool) : Nat :=
  let keep := (raw % 2 ^ 15) &&& 0x7FBF
  (keep ||| (if pad then 64 else 0)) ^^^ (s.fld R.FP_DIN_POL_INVERT * 2048)

/-- A sample of all inputs and the pad, and the key events of that sample in ascending index. -/
def fpSample (s : State) (raw count : Nat) : State :=
  let s1 := s.padSample count
  let bits := s1.rawBits raw s1.fp.touched
  let before := s1.fld R.FP_INPUT_STATE
  let stuck := s1.fld R.FP_STUCK_STUCK
  let offered := s1.actionOffered
  let s2 := (List.range 15).foldl (fun t k => t.inputSample k (bits.testBit k)) (s1.setFld R.FP_RAW_RAW bits)
  let s3 := (s2.syncSwitch).setFp { s2.fp with quiet := min 4000000 (s2.fp.quiet + 1) }
  let after := s3.fld R.FP_INPUT_STATE
  let evs := (List.range 6).filter (fun k => decide (before.testBit k ≠ after.testBit k) && !stuck.testBit k)
  let s4 := evs.foldl (fun t k => t.keyEvent k (after.testBit k)) s3
  noteDrop 4 s (s4.holdSample (before.testBit 6) offered)

/-! ### LEDs (R443) -/

/-- A session is open. -/
def anySession (s : State) : Bool := (List.range 8).any (fun i => decide (s.sessState i = 2))

def ledPower (s : State) : Led :=
  if s.fp.lampEnd.isSome then .on
  else if s.pwr.mode ≠ .on then .off
  else if s.bit R.PWR_STAT_STATE then .blink
  else .on

def ledLink (s : State) : Led :=
  if s.fp.lampEnd.isSome then .on else if !s.anySession then .off else if s.ready 17 then .on else .blink

def ledFault (s : State) : Led :=
  if s.fp.lampEnd.isSome then .on
  else if s.bit R.ROD_FLT_STAT_GARNET ∨ s.bit R.ROD_FLT_STAT_UNACK then .fast
  else if s.bit R.SEG_FAULT_ACTIVE_LANTERNS ∨ s.rd R.DRV_EVT_OPEN.addr ≠ 0 ∨ s.bit R.FP_STUCK_STUCK ∨ s.bit R.FP_CHATTER_CHATTER then .on
  else .off

/-- METER is the island's (13 R343). -/
def ledMeter (s : State) : Led := if s.part.meter then .pulses else .off

/-! ### The PIN and the cable (R445, R446) -/

/-- FP_PIN_SET. -/
def setPin (s : State) (pin : Nat) : State :=
  let (n, s1) := s.draw
  let salt := leBytes 16 n
  s1.setFp { s1.fp with salt := salt, pinHash := Config.sha256 (salt ++ Config.pinBytes pin) }

/-- The service session ends at once: 0 VBUS lost, 1 bus reset, 2 deconfigured. -/
def cableEnd (s : State) (cause : Nat) : State :=
  let s1 := s.setBit R.FP_USB_STAT_CONFIGURED false
  let s2 := if cause = 0 then (s1.setBit R.FP_USB_STAT_VBUS false).setBit R.FP_EVT_USB true else s1
  let s3 := { s2 with host := { s2.host with conns := s2.host.conns.filter (fun c => !c.service) } }
  if s3.sessState 7 = 0 then s3
  else
    let s4 := (s3.sessEnd 7 false).report 1 0x0F .serviceEnd [] [cause]
    (s4.setFp { s4.fp with entry := none, submitted := false }).setFld R.FP_STAT_PAGE 0

/-- The FP registers as read: wrong PINs of the last 60 minutes. -/
def fpView (s : State) (a : Nat) (w : Word) : Word :=
  if a = R.FP_USB_STAT_FAILS.addr then putBits w R.FP_USB_STAT_FAILS.lo R.FP_USB_STAT_FAILS.width (min 5 s.recentWrong.length) else w

/-- The frame buffer of a page, for a draw. -/
def frameBuffer (p n : Nat) : List Byte := (List.range 1024).map (fun b => Config.pixelByte p n b)

end State

/-! ### Commands -/

/-- A sample, every 1 ms: the raw inputs by index, and the pad's reading. -/
def execFpSample (us : Fin 20000) (raw : Fin 32768) (pad : Fin 65536) (s : State) : Out :=
  .next (if s.fpRuns then (s.atUs us).fpSample raw pad else s)

/-- A key or the pad has been active for 30 s. -/
def execKeyStuck (k : Fin 7) (s : State) : Out :=
  .next (if s.fpRuns ∧ 30000 ≤ (s.fpInput k).active ∧ !s.regBit R.FP_STUCK_STUCK k then
      ((s.setRegBit R.FP_STUCK_STUCK k true).setBit R.FP_EVT_STUCK true).report 0 0x0F .stuck [k.val] []
    else s)

/-- The pad has been held for HOLD. -/
def execPadHoldComplete (s : State) : Out :=
  .next (match s.fp.held with
    | some n =>
      if s.fpRuns ∧ s.actionOffered ∧ s.fld R.FP_PAD_CFG_HOLD * 100 ≤ n then
        let t := s.setFp { s.fp with held := none }
        if s.fld R.FP_STAT_PAGE = 4 then t.fltAck else t.setFp { t.fp with lampEnd := some (t.nowNs + 10000000000) }
      else s
    | none => s)

def execLampTestEnd (s : State) : Out :=
  .next (match s.fp.lampEnd with
    | some t => s.whenDue t (fun q => q.setFp { q.fp with lampEnd := none })
    | none => s)

/-- The header byte and the frame buffer, 5 times per second (R441). -/
def execDisplayRefresh (us : Fin 20000) (s : State) : Out :=
  let q := s.atUs us
  .next (if s.fpRuns ∧ s.bit R.FP_STAT_DISPLAY ∧ s.fp.refreshNs + 200000000 ≤ q.nowNs then
      let (n, t) := q.draw
      (t.setFp { t.fp with refreshNs := t.nowNs }).emit (.display (0x5A#8 :: State.frameBuffer (t.fld R.FP_STAT_PAGE) n))
    else s)

def execDisplayBlank (s : State) : Out :=
  .next (if s.bit R.FP_STAT_DISPLAY ∧ s.fld R.FP_CFG_BLANK * 60000 ≤ s.fp.quiet then s.setBit R.FP_STAT_DISPLAY false else s)

def execPinLockoutEnd (s : State) : Out :=
  .next (match s.fp.lockNs with
    | some t => s.whenDue t (fun q => (q.setFp { q.fp with lockNs := none }).setBit R.FP_USB_STAT_LOCKOUT false)
    | none => s)

/-- `cause`: 0 VBUS lost, 1 bus reset, 2 deconfigured. -/
def execUsbDetach (cause : Fin 3) (us : Fin 20000) (s : State) : Out :=
  .next (if s.poweredOn then (s.atUs us).cableEnd cause else s)

/-- `configured`: the host has configured the interface. -/
def execUsbAttach (configured : Bool) (us : Fin 20000) (s : State) : Out :=
  .next (if s.poweredOn then
      let t := s.atUs us
      let t1 := if t.bit R.FP_USB_STAT_VBUS then t else (t.setBit R.FP_USB_STAT_VBUS true).setBit R.FP_EVT_USB true
      t1.setBit R.FP_USB_STAT_CONFIGURED configured
    else s)

/-- No PIN has been submitted within 60 s of the handshake. -/
def execPinEntryTimeout (s : State) : Out :=
  .next (match s.fp.entry with
    | some t => if s.sessState 7 = 1 ∧ !s.fp.submitted then s.whenDue (t + 60000000000) (fun q => q.serviceEnd .timeout) else s
    | none => s)

end Sys2Proof.Machine
end

