-- ==== Sys2Proof/Machine/Access.lean ====
section
/-! DEFINITION. Register access (00_scope.md R2, R3, R8, R9, R476; 01_architecture.md R12, R22, R26; 19_host_protocol.md R422, R430,
R431, and the register rule of each chapter): who may reach which register, what a read returns and does, what a write is answered
and does. -/

namespace Sys2Proof.Machine

/-! ### The address map (R2, R3, R26) -/

/-- The data window of the LTAB window. -/
def inDataWindow (a : Nat) : Bool := decide (0x58000 ≤ a ∧ a < 0x60000)

/-- Element i of the register array at `base` lies beyond the variant. -/
def beyond (p : Part) (base i : Nat) : Bool :=
  if 0x30100 ≤ base ∧ base < 0x30120 then decide (p.rods ≤ i)
  else if 0x31000 ≤ base ∧ base < 0x31020 then decide (p.beads ≤ i)
  else if 0x20400 ≤ base ∧ base < 0x20410 then !p.hasTarget i
  else if base = 0x50680 then decide (p.beads ≤ 32 * i)
  else if base = 0x60040 then decide (p.demods ≤ i)
  else if 0x60100 ≤ base ∧ base < 0x60140 then decide (p.trxs ≤ i)
  else if base = 0x68000 then decide (p.lanterns ≤ 16 * i)
  else if base = 0x80010 then decide (p.chans ≤ 8 * i)
  else if 0x80100 ≤ base ∧ base < 0x80120 then decide (p.chans ≤ i)
  else if base = 0xB0100 then decide (p.bkpWords ≤ i)
  else if 0xE0100 ≤ base ∧ base < 0xE0110 then decide (i = 3 ∧ p.trxs < 2)
  else false

/-- The registers of energy reconciliation, which belong to the meter island (07 R211, R216). -/
def reconReg (a : Nat) : Bool := decide (a = 0x5064C ∨ a = 0x50650 ∨ (0x50D00 ≤ a ∧ a < 0x50D60))

/-- What the fitted variant says to a register: INVALID for a function not fitted, RANGE for an index beyond it. -/
def fitStatus (p : Part) (a : Nat) : Status :=
  if ((0xA0000 ≤ a ∧ a < 0xB0000) ∨ reconReg a) ∧ !p.meter then .invalid
  else if 0xB0200 ≤ a ∧ a < 0xB0280 ∧ !p.evin then .invalid
  else if absentPort a then .range
  else match findReg a with
    | some (r, i, _) => if beyond p r.base i then .range else .ok
    | none => .ok

/-! ### Fields (R8, R9, R476) -/

/-- A field value lies in its stated range. -/
def Field.ok (f : Field) (v : Word) : Bool :=
  let x := getBits v f.lo f.width
  match f.legal with
  | .any => true
  | .span lo hi => decide (lo ≤ x ∧ x ≤ hi)
  | .signed lo hi => decide (lo ≤ sext f.width x ∧ sext f.width x ≤ hi)
  | .among vs => vs.contains x

/-- The field takes a written value. -/
def Field.takes (f : Field) : Bool := decide (f.acc = .rw ∨ f.acc = .wo)

/-- Every field written with a value of its own lies in its range. -/
def Reg.ok (r : Reg) (v : Word) : Bool := r.fields.all (fun f => !f.takes || f.ok v)

/-- A register's word after a write: RW set, W1C and W1S by their ones, the others as they were. -/
def Reg.write (r : Reg) (w v : Word) : Word :=
  r.fields.foldl (fun u f =>
    let x := getBits v f.lo f.width
    let y := getBits u f.lo f.width
    match f.acc with
    | .rw => putBits u f.lo f.width x
    | .w1c => putBits u f.lo f.width (y &&& (2 ^ f.width - 1 - x))
    | .w1s => putBits u f.lo f.width (y ||| x)
    | _ => u) w

/-- A register's word after its RCLR fields have been read. -/
def Reg.clear (r : Reg) (w : Word) : Word :=
  r.fields.foldl (fun u f => if f.acc = .rclr then putBits u f.lo f.width 0 else u) w

/-- A field of an access type. -/
def Reg.has (r : Reg) (k : Acc) : Bool := r.fields.any (fun f => decide (f.acc = k))

/-- The range of FLOW_TUNE[k] (06 R174). -/
def tuneOk (k : Nat) (v : Word) : Bool :=
  let x := v.toNat
  if k = 15 then
    let a := getBits v 0 16
    let b := getBits v 16 16
    decide (1 ≤ a ∧ a ≤ 2560 ∧ 1 ≤ b ∧ b ≤ 2560)
  else
    let lo := ([0, 0, 0, 0, 0, 0, 0, 1, 40, 0, 0, 1, 0, 50, 1] : List Nat).getD k 0
    let hi := ([65536, 4096, 65536, 65536, 65536, 65536, 65535, 16, 200, 1280, 10000, 65536, 65536, 30000, 1000] : List Nat).getD k 0
    decide (lo ≤ x ∧ x ≤ hi)

namespace State

/-- The function behind a register is ready (R22); the LTAB window by RESTORED (05 R152); the fault registers always, since HOLD keeps
the ROD bit clear until a write of RELEASE (21 R456). NTU_LOCK gates nothing. -/
def unitReady (s : State) (a : Nat) : Bool :=
  match a / 0x10000 with
  | 0x3 => s.ready 8 || decide (0x30040 ≤ a ∧ a < 0x30080)
  | 0x4 => s.ready 9
  | 0x5 => decide (a = R.LTAB_STAT_RESTORED.addr) || (s.bit R.LTAB_STAT_RESTORED && (!reconReg a || s.ready 13))
  | 0x6 => if 0x60140 ≤ a ∧ a < 0x60180 then s.ready 12 else s.ready 11
  | 0x8 => s.ready 3
  | 0x9 => s.ready 4
  | 0xA => s.ready 13
  | 0xB => if 0xB0100 ≤ a then s.ready 1 else s.ready 0
  | 0xC => s.ready 5
  | 0xD => s.ready 7
  | 0xE => s.ready 10
  | 0xF => s.ready 6
  | 0x10 => s.ready 2
  | 0x11 => s.ready 16
  | _ => true

/-! ### Registers that exist once for each requester (R430) -/

def ownReg (s : State) (who : Requester) (a : Nat) : Option Word :=
  (s.host.own.find? (fun e => decide (e.1 = who ∧ e.2.1 = a))).map (fun e => e.2.2)

def setOwn (s : State) (who : Requester) (a : Nat) (w : Word) : State :=
  { s with host := { s.host with own := (who, a, w) :: s.host.own.filter (fun e => !decide (e.1 = who ∧ e.2.1 = a)) } }

/-- LTAB_WIN_BASE and the selection of the EVR read window. -/
def perRequester (a : Nat) : Bool := decide (a = 0x50000 ∨ a = 0xD0200 ∨ a = 0xD0204 ∨ a = 0xD0208)

/-- The registers that a read of `a` latches for its requester (10 R287, 13 R344, 15 R364, 16 R386). -/
def latches (a : Nat) : List Nat :=
  if a = R.NTU_TIME_S_LO_S.addr then [R.NTU_TIME_S_HI_S.addr, R.NTU_TIME_NS_NS.addr, R.NTU_TIME_FRAC_FRAC.addr]
  else if a = R.RTC_DATE_DAY.addr then [R.RTC_TIME_SEC.addr, R.RTC_SUBSEC_COUNT.addr]
  else if a = R.MET_TIME_LO_S.addr then [R.MET_TIME_HI_S.addr]
  else if 0xA0100 ≤ a ∧ a < 0xA0160 ∧ a % 8 = 0 then [a + 4]
  else if 0xD0100 ≤ a ∧ a < 0xD0160 ∧ (a % 32 = 0 ∨ a % 32 = 8) then [a + 4]
  else if a = R.EVR_SEC_ACK_LO_SEQ.addr then [R.EVR_SEC_ACK_HI_SEQ.addr]
  else []

/-- A register whose value a read of another latches. -/
def latched (a : Nat) : Bool :=
  decide (a = R.NTU_TIME_S_HI_S.addr ∨ a = R.NTU_TIME_NS_NS.addr ∨ a = R.NTU_TIME_FRAC_FRAC.addr ∨ a = R.RTC_TIME_SEC.addr ∨
    a = R.RTC_SUBSEC_COUNT.addr ∨ a = R.MET_TIME_HI_S.addr ∨ a = R.EVR_SEC_ACK_HI_SEQ.addr) ||
    decide (0xA0100 ≤ a ∧ a < 0xA0160 ∧ a % 8 = 4) || decide (0xD0100 ≤ a ∧ a < 0xD0160 ∧ (a % 32 = 4 ∨ a % 32 = 12))

/-! ### The EVR read window (16 R379, R385, R386) -/

/-- CODE of a record: an island record carries the island's own (16 R383). -/
def recCode (r : Rec) : Nat := if r.event = .islandLog then r.key.headD 0 else (Config.eventCode r.event).toNat

/-- Bytes 0 to 7 are the key, the others the event's data; what the owning chapter does not define is 0. An island record carries the
island's own data (16 R379, R383; log entry 12). -/
def recPayload (r : Rec) : List Byte :=
  if r.event = .islandLog then fitBytes 28 (fitBytes 20 (r.data.map (fun n => BitVec.ofNat 8 n)))
  else fitBytes 8 (if r.key.isEmpty then [] else Config.recKey r.event r.key) ++ fitBytes 20 (if r.data.isEmpty then [] else Config.recData r.event r.data)

/-- The 64 bytes of a record. -/
def recBytes (r : Rec) : List Byte :=
  let head := leBytes 6 r.seq ++ leBytes 2 r.epoch ++ leBytes 2 r.boot ++ leBytes 1 r.gen ++ leBytes 1 r.source ++
    leBytes 2 (recCode r) ++ leBytes 2 r.repeats ++ leBytes 6 r.firstMs ++ leBytes 4 r.lastMs ++
    leBytes 6 r.monoUs
  let body := head ++ recPayload r
  body ++ leBytes 4 (crc32c body).toNat

/-- A record of a log. -/
def recOf (s : State) (l q : Nat) : Option Rec := (s.evrLog l).recs.find? (fun r => decide (r.seq = q))

/-- The number selected in a requester's window. -/
def rdSelected (s : State) (who : Requester) : Nat × Nat :=
  let g (a : Nat) : Nat := ((s.ownReg who a).getD 0).toNat
  (g 0xD0210, g 0xD0214 + g 0xD0218 % 2 ^ 16 * 2 ^ 32)

/-- Word k of the selected record, live, 0 where EVR_RD_STAT says RANGE and before any is selected: a newer record may stand in its place, and a number that a start skipped has none (log
entry 101). -/
def rdWord (s : State) (who : Requester) (k : Nat) : Word :=
  let (l, q) := s.rdSelected who
  if (s.ownReg who 0xD020C).getD 0 ≠ 0 ∨ q = 0 then 0
  else match (s.recOf l q).orElse (fun _ => s.recOf l (q + evrCap l)) with
  | some r => BitVec.ofNat 32 (leNat (((recBytes r).drop (4 * k)).take 4))
  | none => Config.evrHole l q k

/-- Tail and head of a log hold a number. -/
def seqHeld (s : State) (l q : Nat) : Bool :=
  let g := s.evrLog l
  (g.recs.getLast?.any (fun r => decide (r.seq ≤ q))) && decide (q ≤ g.head)

/-- A write of EVR_RD_SEQ_HI selects. -/
def rdSelect (s : State) (who : Requester) (hi : Word) : State :=
  let g (a : Nat) : Word := (s.ownReg who a).getD 0
  let q := (g 0xD0204).toNat + getBits hi 0 16 * 2 ^ 32
  let st : Word := if s.seqHeld (g 0xD0200).toNat q then 0 else 4
  ((((s.setOwn who 0xD0208 (hi &&& 0xFFFF)).setOwn who 0xD0210 (g 0xD0200)).setOwn who 0xD0214 (g 0xD0204)).setOwn who 0xD0218
    (hi &&& 0xFFFF)).setOwn who 0xD020C st

/-! ### Reads -/

/-- Views of the FLOW window (06 R176). -/
def flowView (s : State) (a : Nat) (w : Word) : Word :=
  let l := s.fld R.FLOW_LSEL_LINK
  let c := s.fld R.FLOW_LSEL_CELL
  let f := s.flow
  if 0x40040 ≤ a ∧ a < 0x40060 then SMap.find 0 f.shadow (8 * l + (a - 0x40040) / 4)
  else if 0x40060 ≤ a ∧ a < 0x40074 then
    if linkValid f.links l ∧ c < linkNcell f.links l then
      let x := SMap.find {} f.cells (64 * l + c)
      match (a - 0x40060) / 4 with
      | 0 => BitVec.ofNat 32 x.rho
      | 1 => BitVec.ofNat 32 (x.vel % 65536 + x.conf * 65536)
      | 2 => wordOf x.dw
      | 3 => wordOf x.s
      | _ => BitVec.ofNat 32 x.last
    else 0
  else if 0x40080 ≤ a ∧ a < 0x40090 then BitVec.ofNat 32 (f.tf l ((a - 0x40080) / 4))
  else if a = R.FLOW_STAT_CELLS.addr then
    putBits w R.FLOW_STAT_CELLS.lo R.FLOW_STAT_CELLS.width ((validLinks f.links).map (linkNcell f.links)).sum
  else w

/-- Views of the KEY window (17 R403). -/
def keyView (s : State) (a : Nat) (w : Word) : Word :=
  if 0xC0020 ≤ a ∧ a < 0xC0040 then BitVec.ofNat 32 (leNat ((s.key.bmr.drop (a - 0xC0020)).take 4))
  else if 0xC0060 ≤ a ∧ a < 0xC0080 then
    BitVec.ofNat 32 (leNat (((s.key.meas.getD (s.fld R.KEY_MEAS_SEL_STAGE) []).drop (a - 0xC0060)).take 4))
  else w

/-- The live value of a register. -/
def live (s : State) (a : Nat) : Word :=
  let w := s.rd a
  match a / 0x10000 with
  | 0x2 => s.icuView a w
  | 0x4 => s.flowView a w
  | 0x5 => s.segView a w
  | 0x6 => s.radView a w
  | 0x7 => s.ntuView a w
  | 0x8 => s.drvView a w
  | 0xB => s.rtcView a w
  | 0xC => s.keyView a w
  | 0xF => s.fpView a w
  | 0x11 => s.hostView a w
  | _ => w

/-- The F address that a requester's PAGE shows at a window address; a bead, which has no PAGE, sees page 0 (log entry 139). -/
def windowAddr (s : State) (who : Requester) (a : Nat) : Nat :=
  getBits ((s.ownReg who 0x50000).getD 0) 0 7 * 0x8000 + (a - 0x58000)

/-- F addresses without a byte behind them for GSP (05 R144). -/
def windowHole (fa : Nat) : Bool := decide (0x20D000 ≤ fa ∧ fa < 0x280000)

/-- What a requester sees at an address. -/
def regSeen (s : State) (who : Requester) (a : Nat) : Word :=
  if inDataWindow a then BitVec.ofNat 32 (memNat fDflt s.seenF (s.windowAddr who a) 4)
  else if perRequester a then (s.ownReg who a).getD 0
  else if a = 0xD020C then (s.ownReg who a).getD 0
  else if 0xD0240 ≤ a ∧ a < 0xD0280 then s.rdWord who ((a - 0xD0240) / 4)
  else if latched a then (s.ownReg who a).getD (s.live a)
  else s.live a

/-- The latches of a read. -/
def latchOf (s : State) (who : Requester) (a : Nat) : State :=
  (latches a).foldl (fun t b => t.setOwn who b (s.live b)) s

/-- RCLR fields clear on a GSP read only (03 R81). -/
def rclr (s : State) (who : Requester) (a : Nat) : State :=
  match who, findReg a with
  | .gsp _, some (r, _, _) => if r.has .rclr then s.wr a (r.clear (s.rd a)) else s
  | _, _ => s

/-- A GSP 3 session is refused (19 R422). -/
def gsp3 (s : State) (who : Requester) : Bool :=
  match who with
  | .gsp i => decide (s.sessVersion i = 3)
  | _ => false

/-- The FLOW window needs the feature FLOW, which version 3 does not offer (19 R421, R422). -/
def noFlow (s : State) (who : Requester) (a : Nat) : Bool :=
  match who with
  | .gsp i => decide (0x40000 ≤ a ∧ a < 0x50000) && !(s.fld R.HOST_SESS_FEATURES i).testBit 4
  | _ => false

/-- The status of a read before it takes place. -/
def readStatus (s : State) (who : Requester) (a : Nat) : Status :=
  if !isRegister a then .invalid
  else if s.noFlow who a then .version
  else if fitStatus s.part a ≠ .ok then fitStatus s.part a
  else if !s.unitReady a then .notReady
  else if inDataWindow a ∧ windowHole (s.windowAddr who a) then .invalid
  else .ok

/-- A read: its status and word, and the state after it. -/
def reqRead (s : State) (who : Requester) (a : Nat) : Status × Word × State :=
  match s.readStatus who a with
  | .ok => (.ok, s.regSeen who a, (s.latchOf who a).rclr who a)
  | st => (st, 0, s)

/-! ### Who may write (R430, R431 and the chapters) -/

/-- A role is one of a list: 1 READER, 2 OPERATOR, 3 OWNER, 4 SERVICE. -/
def roleIn (s : State) (i : Nat) (rs : List Nat) : Bool := rs.contains (s.sessRole i) && !(s.sess i).unowned

/-- The roles that may write a register. -/
def writeRoles (a : Nat) (winAddr : Nat) : List Nat :=
  match a / 0x10000 with
  | 0x0 => []
  | 0x1 =>
    if 0x11000 ≤ a then (if a = R.PWR_DR_PCT.addr ∨ a = R.PWR_DR_UNTIL_FRAME.addr then [2, 3] else [3])
    else if a = R.PWR_REQ_AGATE.addr then [2, 3, 4] else [3, 4]
  | 0x5 =>
    if a = R.LTAB_WIN_BASE_PAGE.addr then [1, 2, 3, 4]
    else if inDataWindow a then (if winAddr < 0x200000 ∧ classP (winAddr % 128) then [2, 3, 4] else [3, 4])
    else if 0x50700 ≤ a ∧ a < 0x50800 then [2, 3, 4]
    else [3, 4]
  | 0x7 => if a = R.NTU_JUMP_ACCEPT_ACCEPT.addr then [3] else [3, 4]
  | 0x8 => if 0x80400 ≤ a ∧ a < 0x80460 ∧ a % 16 = 0 then [2, 3, 4] else [3, 4]
  | 0xC => if 0xC0100 ≤ a then [3] else [3, 4]
  | 0xD => if 0xD0200 ≤ a then [1, 2, 3, 4] else [3, 4]
  | 0xE => if a = R.UPD_EVT_STAGED.addr then [3, 4] else [3]
  | 0xF => if a = R.FP_PIN_SET_PIN.addr then [3] else [3, 4]
  | _ => [3, 4]

/-- The requester may write the register with the value: sessions by role, programs where the chapters let them. -/
def mayWrite (s : State) (who : Requester) (a : Nat) (v : Word) : Bool :=
  match who with
  | .gsp i => s.roleIn i (writeRoles a (s.windowAddr who a)) && (decide (a ≠ 0xD0200 ∨ getBits v 0 2 ≠ 1) || s.roleIn i [3, 4])
  | .bead _ => programMayWrite a
  | _ => true

/-- KIND and ARG of the safety entry that a write of `v` at `a` touches, as the write leaves them. -/
def safeAfter (s : State) (a : Nat) (v : Word) : Nat × Word :=
  let k := (a - 0x50700) / 16
  (if a % 16 = 0 then getBits v 0 3 else s.fld R.SEG_SAFE_KIND k, if a % 16 = 4 then v else s.rd (R.SEG_SAFE_ARG_ARG.at k 0))

/-- A session's write beyond what its version and its features offer. -/
def versionRefused (s : State) (who : Requester) (a : Nat) (v : Word) : Bool :=
  s.noFlow who a || s.gsp3 who &&
    (decide (a = R.LTAB_WIN_BASE_PAGE.addr ∧ 16 ≤ getBits v 0 7 ∧ getBits v 0 7 < 64) ||
     decide ((a = R.SEG_LSEL_LID.addr ∨ a = R.RAD_LINK_SEL_LID.addr) ∧ 4096 ≤ getBits v 0 14) ||
     (decide (0x50700 ≤ a ∧ a < 0x50800) &&
       (let (kind, arg) := s.safeAfter a v
        let far (p : Nat → Bool) : Bool := (commissioned s.fmem s.part.lanterns).any (fun l => decide (4096 ≤ l) && p l)
        decide (kind = 1) && far (fun l => (groupsOf s.fmem l).contains (getBits arg 0 10)) ||
        decide (kind = 2) && far (fun l => let q := recNat s.fmem l 3 1 % 8
          decide (q ≠ 0 ∧ q ≤ 6) && (getBits arg 0 6).testBit (q - 1)) ||
        decide (kind = 3 ∧ (4096 ≤ getBits arg 0 14 ∨ 4096 ≤ getBits arg 16 14)) || decide (kind = 4 ∧ 4096 < s.part.lanterns))))

/-- A value beyond the variant, or beyond what a table shows, in a register whose range is not one of its fields'. -/
def valueRange (s : State) (a : Nat) (v : Word) : Bool :=
  if a = R.LTAB_WIN_BASE_PAGE.addr then decide (64 ≤ getBits v 0 7 ∨ getBits v 0 7 * 256 < s.part.lanterns)
  else if a = R.SEG_LSEL_LID.addr ∨ a = R.RAD_LINK_SEL_LID.addr then decide (getBits v 0 14 < s.part.lanterns)
  else if a = R.RAD_AGATE_DEMOD.addr then decide (getBits v 0 3 < s.part.demods)
  else if a = R.RAD_TXPWR_MAX.at 0 0 ∨ a = R.RAD_TXPWR_MAX.at 1 0 then
    let p := ((BitVec.ofNat 8 v.toNat).toInt : Int)
    decide (-20 ≤ p ∧ p ≤ s.maxPower)
  else if a = R.KEY_MEAS_SEL_STAGE.addr then decide (getBits v 0 4 < s.fld R.KEY_MEAS_CNT_STAGES)
  else if 0x40100 ≤ a ∧ a < 0x40140 then tuneOk ((a - 0x40100) / 4) v
  else if 0x50700 ≤ a ∧ a < 0x50800 then
    let (kind, arg) := s.safeAfter a v
    decide (kind ≠ 3 ∨ (getBits arg 0 14 < s.part.lanterns ∧ getBits arg 16 14 < s.part.lanterns))
  else true

/-- METLOG is the island's: a session's write of its registers, or of the data of one of its records (16 R383). -/
def metlogWrite (s : State) (who : Requester) (a : Nat) : Bool :=
  match who with
  | .gsp _ => decide (0xD0140 ≤ a ∧ a < 0xD0160) || (decide (0xD0240 ≤ a ∧ a < 0xD0280) && decide ((s.rdSelected who).1 = 2))
  | _ => false

/-- The status of a write by its address, role and range, before it is performed. Where several refusals apply the role comes before what
locks the register, for a class M byte too (05 R140), and LOCKED before the value's range (12 R319): DESIGN CHOICE, log entry 168. -/
def writeStatus (s : State) (who : Requester) (a : Nat) (v : Word) : Status :=
  if !isRegister a then .invalid
  else if s.versionRefused who a v then .version
  else if !s.mayWrite who a v then .auth
  else if fitStatus s.part a ≠ .ok then fitStatus s.part a
  else if !s.unitReady a then .notReady
  else if inDataWindow a then
    let fa := s.windowAddr who a
    if windowHole fa then .invalid
    else if fa < 0x200000 ∧ 0x40 ≤ fa % 128 then .locked
    else .ok
  else if s.metlogWrite who a ∨ s.loopLocked a then .locked
  else match findReg a with
    | some (r, _, _) => if r.ok v ∧ s.valueRange a v then .ok else .range
    | none => .invalid

/-! ### Writes whose effect is not only their fields -/

/-- ROD: the limit, the actions, the fault registers (02 R66, 21 R459). -/
def rodWrite (s : State) (a : Nat) (v : Word) : Option (Status × State) :=
  if a = R.ROD_ADMIT_LIMIT_LIMIT.addr then
    some (if (List.range 16).any (fun r => decide (7800000 * getBits v 0 7 / 100 < s.fld R.ROD_LOAD_CYCLES r)) then (.refusedState, s)
      else (.ok, s.setFld R.ROD_ADMIT_LIMIT_LIMIT v.toNat))
  else if a = R.ROD_FLT_CTRL_ACK.addr then
    some (if v.getLsbD 1 ∧ !s.bit R.ROD_FLT_STAT_HOLD then (.refusedState, s)
      else
        let s1 := if v.getLsbD 0 then s.fltAck else s
        (.ok, if v.getLsbD 1 then s1.setBit R.ROD_FLT_STAT_HOLD false else s1))
  else if 0x31000 ≤ a ∧ a < 0x39000 ∧ a % 32 = 0x14 then some (s.writeBeadCtrl ((a - 0x31000) / 32) v)
  else none

/-- FLOW_CTRL and the shadow (06 R155, R170, R176). -/
def flowWrite (s : State) (a : Nat) (v : Word) : Option (Status × State) :=
  if a = R.FLOW_CTRL_RUN.addr then
    let s1 := s.setBit R.FLOW_CTRL_RUN (v.getLsbD 0)
    let s2 := if v.getLsbD 1 then s1.setBit R.FLOW_STAT_PENDING true else s1
    some (.ok, if v.getLsbD 2 then { s2 with flow := { s2.flow with clearReq := true } } else s2)
  else if 0x40040 ≤ a ∧ a < 0x40060 then
    let k := 8 * s.fld R.FLOW_LSEL_LINK + (a - 0x40040) / 4
    some (.ok, { s with flow := { s.flow with shadow := SMap.set 0 s.flow.shadow k v } })
  else none

/-- LTAB: a requester's PAGE, the image actions, the firmware campaign, and the data window, whose words wait for the bar (05 R141,
R152). -/
def ltabWrite (s : State) (who : Requester) (a : Nat) (v : Word) : Option (Status × State) :=
  if a = R.LTAB_WIN_BASE_PAGE.addr then some (.ok, s.setOwn who a (v &&& 0x7F))
  else if a = R.LTAB_IMG_CTRL_INDEX.addr then some (s.writeImgCtrl v)
  else if a = R.SEG_FW_CTRL_IMAGE.addr then some (s.writeFwCtrl v)
  else if inDataWindow a then
    let i := match who with
      | .gsp k => k
      | _ => 8
    some (.ok, { s with bar := { s.bar with host := s.bar.host ++ [⟨i, none, [(0x10000000 + s.windowAddr who a, v)]⟩] } })
  else none

/-- EVR: a requester's read window (16 R386). -/
def evrWrite (s : State) (who : Requester) (a : Nat) (v : Word) : Option (Status × State) :=
  if a = 0xD0200 then some (.ok, s.setOwn who a (v &&& 3))
  else if a = 0xD0204 then some (.ok, s.setOwn who a v)
  else if a = 0xD0208 then some (.ok, s.rdSelect who v)
  else none

/-- KEY: revocation (17 R398). -/
def keyWrite (s : State) (a : Nat) (v : Word) : Option (Status × State) :=
  if 0xC0100 ≤ a ∧ a < 0xC0300 ∧ a % 16 = 12 then
    some (if v.getLsbD 0 then s.keyRevoke ((a - 0xC0100) / 16) else (.ok, s))
  else none

/-- HOST: a peer that is no longer configured loses its link (19 R433). -/
def hostWrite (s : State) (a : Nat) (v : Word) : Option (Status × State) :=
  if 0x110400 ≤ a ∧ a < 0x110500 ∧ a % 32 = 0 then
    let p := (a - 0x110400) / 32
    let s1 := (s.setBit R.HOST_PEER_CFG_EN (v.getLsbD 0) p).setBit R.HOST_PEER_CFG_FAMILY (v.getLsbD 1) p
    some (.ok, if v.getLsbD 0 then s1 else s1.setPeer p 0)
  else none

/-- The special effect of a write, if the register has one. -/
def unitWrite (s : State) (who : Requester) (a : Nat) (v : Word) : Option (Status × State) :=
  match a / 0x10000 with
  | 0x1 => if a = R.PWR_REQ_AGATE.addr then some (.ok, s.powerRequest (v.getLsbD 0)) else none
  | 0x2 => s.icuWrite who a v
  | 0x3 => s.rodWrite a v
  | 0x4 => s.flowWrite a v
  | 0x5 => s.ltabWrite who a v
  | 0x6 => s.radWrite a v
  | 0x7 => s.ntuWrite a v
  | 0x8 => s.drvWrite a v
  | 0x9 => s.lceWrite a v
  | 0xA => s.metWrite a v
  | 0xB => s.rtcWrite (decide (who = .sup)) a v
  | 0xC => s.keyWrite a v
  | 0xD => s.evrWrite who a v
  | 0xE => if a = R.UPD_CTRL_ACTIVATE.addr then some (s.writeUpdCtrl v) else none
  | 0xF => if a = R.FP_PIN_SET_PIN.addr then some (.ok, s.setPin (getBits v 0 20)) else none
  | 0x10 => s.wchWrite a v
  | 0x11 => s.hostWrite a v
  | _ => none

/-- The fields of the register take the write. -/
def plainWrite (s : State) (a : Nat) (v : Word) : State :=
  match findReg a with
  | some (r, _, _) => s.wr a (r.write (s.rd a) v)
  | none => s

/-- A write of the register at `a` has turned `s` into `t`: a claimed source whose condition it has ended is counted (04 R122). -/
def noteWrite (a : Nat) (s t : State) : State :=
  match regSource a with
  | some n => noteDrop n s t
  | none => t

/-- A write that its checks have passed is performed; class A changes of a trial are counted (18 R415). An action that its unit refuses
leaves only the record the unit makes of it (05 R135, 15 R366, 18 R408). -/
def performWrite (s : State) (who : Requester) (a : Nat) (v : Word) : Status × State :=
  let (st, s1) := (s.unitWrite who a v).getD (.ok, s.plainWrite a v)
  match st with
  | .ok => (.ok, noteWrite a s (if classAReg a then s1.trialWrite 1 else s1))
  | _ => (st, s1)

/-- A write: its status, and the state after it. -/
def reqWrite (s : State) (who : Requester) (a : Nat) (v : Word) : Status × State :=
  match s.writeStatus who a v with
  | .ok => s.performWrite who a v
  | st => (st, s)

/-- The requester can ask: a session that is open, or a part of the module. -/
def asks (s : State) (who : Requester) : Bool :=
  s.poweredOn && (match who with
    | .gsp i => s.hostRuns && decide (s.sessState i = 2)
    | _ => true)

/-- A write as a command: performed and answered. A refusal for want of the role is also one SEC record (16 R377). -/
def cmdWrite (s : State) (who : Requester) (us : Nat) (a : Nat) (v : Word) : State :=
  if !s.asks who then s
  else
    let (st, t) := (s.atUs us).reqWrite who a v
    match st, who with
    | .auth, .gsp i => (t.answer who .auth).report 1 0x11 .authRefused [i, a] []
    | _, _ => t.answer who st

/-- A read as a command. -/
def cmdRead (s : State) (who : Requester) (us : Nat) (a : Nat) : State :=
  if !s.asks who then s
  else match (s.atUs us).reqRead who a with
    | (.ok, w, t) => t.emit (.data who [w])
    | (st, _, t) => t.answer who st

end State

/-! ### Register commands

`who` asks, `us` µs into the frame. -/

def execPwrReqWrite (who : Requester) (us : Fin 20000) (agate : Bool) (s : State) : Out :=
  .next (s.cmdWrite who us R.PWR_REQ_AGATE.addr (if agate then 1 else 0))

def execBeadStart (who : Requester) (us : Fin 20000) (n : Fin 1024) (s : State) : Out :=
  .next (s.cmdWrite who us (R.ROD_BEAD_CTRL_START.at n 0) 1)

def execBeadStop (who : Requester) (us : Fin 20000) (n : Fin 1024) (s : State) : Out :=
  .next (s.cmdWrite who us (R.ROD_BEAD_CTRL_START.at n 0) 2)

def execBeadReset (who : Requester) (us : Fin 20000) (n : Fin 1024) (s : State) : Out :=
  .next (s.cmdWrite who us (R.ROD_BEAD_CTRL_START.at n 0) 4)

def execRodAdmitLimitWrite (who : Requester) (us : Fin 20000) (v : Word) (s : State) : Out :=
  .next (s.cmdWrite who us R.ROD_ADMIT_LIMIT_LIMIT.addr v)

/-- Any register. -/
def execRegisterWrite (who : Requester) (us : Fin 20000) (a : Nat) (v : Word) (s : State) : Out := .next (s.cmdWrite who us a v)

/-- A GSP read of a register with RCLR fields. -/
def execRclrRead (g : Fin 8) (us : Fin 20000) (a : Nat) (s : State) : Out := .next (s.cmdRead (.gsp g) us a)

/-- A read of a _LO register. -/
def execLoLatchRead (who : Requester) (us : Fin 20000) (a : Nat) (s : State) : Out := .next (s.cmdRead who us a)

def execNtuTimeRead (who : Requester) (us : Fin 20000) (s : State) : Out := .next (s.cmdRead who us R.NTU_TIME_S_LO_S.addr)

def execRtcDateRead (who : Requester) (us : Fin 20000) (s : State) : Out := .next (s.cmdRead who us R.RTC_DATE_DAY.addr)

def execIcuSwsetWrite (who : Requester) (us : Fin 20000) (k : Fin 2) (v : Word) (s : State) : Out :=
  .next (s.cmdWrite who us (0x20008 + 4 * k.val) v)

def execIcuSrcCfgWrite (who : Requester) (us : Fin 20000) (n : Fin 256) (v : Word) (s : State) : Out :=
  .next (s.cmdWrite who us (R.ICU_SRC_CFG_PRIO.at n 0) v)

def execImageActivate (who : Requester) (us : Fin 20000) (i : Fin 64) (s : State) : Out :=
  .next (s.cmdWrite who us R.LTAB_IMG_CTRL_INDEX.addr (BitVec.ofNat 32 (i.val + 0x100)))

def execImageDeactivate (who : Requester) (us : Fin 20000) (i : Fin 64) (s : State) : Out :=
  .next (s.cmdWrite who us R.LTAB_IMG_CTRL_INDEX.addr (BitVec.ofNat 32 (i.val + 0x200)))

def execImageUnload (who : Requester) (us : Fin 20000) (i : Fin 64) (s : State) : Out :=
  .next (s.cmdWrite who us R.LTAB_IMG_CTRL_INDEX.addr (BitVec.ofNat 32 (i.val + 0x300)))

/-- Word k of the data window. -/
def execLtabDataWrite (i : Fin 8) (us : Fin 20000) (k : Fin 8192) (v : Word) (s : State) : Out :=
  .next (s.cmdWrite (.gsp i) us (0x58000 + 4 * k.val) v)

def execFwCampaignStart (who : Requester) (us : Fin 20000) (image : Fin 16) (s : State) : Out :=
  .next (s.cmdWrite who us R.SEG_FW_CTRL_IMAGE.addr (BitVec.ofNat 32 (image.val + 0x100)))

def execFwCampaignActivate (who : Requester) (us : Fin 20000) (image : Fin 16) (s : State) : Out :=
  .next (s.cmdWrite who us R.SEG_FW_CTRL_IMAGE.addr (BitVec.ofNat 32 (image.val + 0x200)))

def execFwCampaignAbort (who : Requester) (us : Fin 20000) (image : Fin 16) (s : State) : Out :=
  .next (s.cmdWrite who us R.SEG_FW_CTRL_IMAGE.addr (BitVec.ofNat 32 (image.val + 0x300)))

def execRadDemodWrite (who : Requester) (us : Fin 20000) (d : Fin 8) (v : Word) (s : State) : Out :=
  .next (s.cmdWrite who us (0x60040 + 4 * d.val) v)

def execRadWinWrite (who : Requester) (us : Fin 20000) (x : Fin 2) (v : Word) (s : State) : Out :=
  .next (s.cmdWrite who us (0x60100 + 64 * x.val) v)

/-- RAD_HOP_CFG[h] for `k` below 4, and entry word k − 4 of the maps. -/
def execRadHopCfgWrite (who : Requester) (us : Fin 20000) (k : Fin 68) (v : Word) (s : State) : Out :=
  .next (s.cmdWrite who us (if k.val < 4 then 0x60800 + 4 * k.val else 0x60900 + 4 * (k.val - 4)) v)

def execRadRxpartWrite (who : Requester) (us : Fin 20000) (p : Fin 8) (v : Word) (s : State) : Out :=
  .next (s.cmdWrite who us (0x60080 + 4 * p.val) v)

def execRadLinkMapCommit (who : Requester) (us : Fin 20000) (v : Word) (s : State) : Out := .next (s.cmdWrite who us 0x60208 v)

def execNtuJumpAccept (who : Requester) (us : Fin 20000) (s : State) : Out :=
  .next (s.cmdWrite who us R.NTU_JUMP_ACCEPT_ACCEPT.addr 1)

/-- The other fields of NTU_CTRL keep their values. -/
def execNtuPtpDisable (who : Requester) (us : Fin 20000) (s : State) : Out :=
  .next (s.cmdWrite who us R.NTU_CTRL_PTP_EN.addr (s.rd R.NTU_CTRL_PTP_EN.addr &&& 0xFFFFFFFE))

def execDrvRestart (who : Requester) (us : Fin 20000) (s : State) : Out := .next (s.cmdWrite who us R.DRV_RESTART_RESTART.addr 1)

/-- EN and TEST. -/
def execDrvTest (who : Requester) (us : Fin 20000) (s : State) : Out := .next (s.cmdWrite who us R.DRV_CTRL_EN.addr 3)

def execDrvIsetWrite (who : Requester) (us : Fin 20000) (v : Word) (s : State) : Out :=
  .next (s.cmdWrite who us R.DRV_ISET_ISET.addr v)

def execDrvChanCfgWrite (who : Requester) (us : Fin 20000) (c : Fin 24) (v : Word) (s : State) : Out :=
  .next (s.cmdWrite who us (R.DRV_CHAN_CFG_TRIM.at c 0) v)

def execDrvFeederCmdWrite (who : Requester) (us : Fin 20000) (f : Fin 6) (close : Bool) (s : State) : Out :=
  .next (s.cmdWrite who us (R.DRV_FEEDER_CMD_CLOSE.at f 0) (if close then 1 else 0))

def execLoopClose (who : Requester) (us : Fin 20000) (l : Fin 4) (s : State) : Out :=
  .next (s.cmdWrite who us (R.LCE_CTRL_CLOSE.at l 0) 1)

def execLoopOpen (who : Requester) (us : Fin 20000) (l : Fin 4) (s : State) : Out :=
  .next (s.cmdWrite who us (R.LCE_CTRL_CLOSE.at l 0) 2)

def execLceAoutManWrite (who : Requester) (us : Fin 20000) (k : Fin 2) (v : Word) (s : State) : Out :=
  .next (s.cmdWrite who us (R.LCE_AOUT_MAN_CODE.at k 0) v)

def execLceSpWrite (who : Requester) (us : Fin 20000) (l : Fin 4) (v : Word) (s : State) : Out :=
  .next (s.cmdWrite who us (R.LCE_SP_SP.at l 0) v)

/-- The register at word k of loop l's block. -/
def execLceCfgWrite (who : Requester) (us : Fin 20000) (l : Fin 4) (k : Fin 64) (v : Word) (s : State) : Out :=
  .next (s.cmdWrite who us (R.LCE_CTRL_CLOSE.at l 0 + 4 * k.val) v)

def execMetFwReq (who : Requester) (us : Fin 20000) (s : State) : Out := .next (s.cmdWrite who us R.MET_FW_REQ_REQ.addr 1)

def execMetTsyncReq (who : Requester) (us : Fin 20000) (s : State) : Out := .next (s.cmdWrite who us R.MET_TSYNC_CTRL_REQ.addr 1)

def execRtcSet (who : Requester) (us : Fin 20000) (v : Word) (s : State) : Out := .next (s.cmdWrite who us R.RTC_SET_DATE.addr v)

def execRtcAlmCtrlWrite (who : Requester) (us : Fin 20000) (k : Fin 2) (v : Word) (s : State) : Out :=
  .next (s.cmdWrite who us (0xB0048 + 16 * k.val) v)

def execEvinPop (who : Requester) (us : Fin 20000) (i : Fin 4) (s : State) : Out :=
  .next (s.cmdWrite who us (0xB0214 + 32 * i.val) 1)

def execEvrRdSelect (who : Requester) (us : Fin 20000) (v : Word) (s : State) : Out := .next (s.cmdWrite who us 0xD0208 v)

def execKeyRevoke (who : Requester) (us : Fin 20000) (k : Fin 32) (s : State) : Out :=
  .next (s.cmdWrite who us (0xC010C + 16 * k.val) 1)

def execUpdActivate (who : Requester) (us : Fin 20000) (s : State) : Out := .next (s.cmdWrite who us R.UPD_CTRL_ACTIVATE.addr 1)

def execUpdConfirm (who : Requester) (us : Fin 20000) (s : State) : Out := .next (s.cmdWrite who us R.UPD_CTRL_ACTIVATE.addr 2)

def execUpdRollback (who : Requester) (us : Fin 20000) (s : State) : Out := .next (s.cmdWrite who us R.UPD_CTRL_ACTIVATE.addr 4)

def execUpdAbort (who : Requester) (us : Fin 20000) (s : State) : Out := .next (s.cmdWrite who us R.UPD_CTRL_ACTIVATE.addr 8)

def execFpPinSet (who : Requester) (us : Fin 20000) (v : Word) (s : State) : Out :=
  .next (s.cmdWrite who us R.FP_PIN_SET_PIN.addr v)

def execRodFltAck (who : Requester) (us : Fin 20000) (s : State) : Out := .next (s.cmdWrite who us R.ROD_FLT_CTRL_ACK.addr 1)

def execRodFltRelease (who : Requester) (us : Fin 20000) (s : State) : Out := .next (s.cmdWrite who us R.ROD_FLT_CTRL_ACK.addr 2)

/-! ### PORTRD and PORTWR (03 R80, R81) -/

/-- The EVR read window is forbidden to programs (16 R386). -/
def portForbidden (a : Nat) : Bool := decide (0xD0200 ≤ a ∧ a < 0xD0280)

def execPortrd (r : Fin 16) (d a : Fin 32) (imm : BitVec 14) (s : State) : Out :=
  issue r true 6 1 (fun s n x =>
    let ea := x.ea a imm
    let who : Requester := .bead n
    let free := decide (0x20000 ≤ ea ∧ ea < 0x40000)
    if !isRegister ea then .ok (s, (x.ws d 0).setSt .invalid)
    else if portForbidden ea ∨ !(free || (s.mpi x).port ea false) then .error (.auth, 0)
    else match s.readStatus who ea with
      | .ok => .ok (s.latchOf who ea, (x.ws d (s.regSeen who ea)).setSt .ok)
      | st => .ok (s, (x.ws d 0).setSt st)) s

def execPortwr (r : Fin 16) (d a : Fin 32) (imm : BitVec 14) (s : State) : Out :=
  issue r true 1 1 (fun s n x =>
    let ea := x.ea a imm
    if !isRegister ea then .ok (s, x.setSt .invalid)
    else if !programMayWrite ea ∨ !(s.mpi x).port ea true then .error (.auth, 0)
    else match s.writeStatus (.bead n) ea (x.rs d) with
      | .ok => .ok (s, (x.logOut (.portwr ea (x.rs d)) 1).setSt .ok)
      | st => .ok (s, x.setSt st)) s

end Sys2Proof.Machine
end

