-- ==== Sys2Proof/Machine/Gsp.lean ====
section
/-! DEFINITION. The requests of a session (19_host_protocol.md R424 to R431): register reads and writes, transactions, log reads,
lantern commands, and the segments and credits of streams. -/

namespace Sys2Proof.Machine

namespace State

/-! ### REG_READ (R424) -/

/-- Read `n` words from `a` in order up to the first that is not OK. -/
def readRun (who : Requester) : Nat → State → Nat → List Int → State × Status × List Int
  | 0, s, _, acc => (s, .ok, acc.reverse)
  | n + 1, s, a, acc =>
    match s.reqRead who a with
    | (.ok, w, t) => readRun who n t (a + 4) ((w.toNat : Int) :: acc)
    | (st, _, t) => (t, st, acc.reverse)

def regRead (s : State) (i id a n : Nat) : State :=
  if n = 0 ∨ 256 < n then s.respond i id .range []
  else
    let (t, st, ws) := readRun (.gsp i) n s a []
    t.respond i id st ws

/-! ### REG_WRITE (R424, R428) -/

/-- Perform writes in order, stopping at the first refusal: how many were performed, and the status. -/
def writeRun (who : Requester) : List Word → State → Nat → Nat → State × Status × Nat
  | [], s, _, k => (s, .ok, k)
  | w :: ws, s, a, k =>
    match s.reqWrite who a w with
    | (.ok, t) => writeRun who ws t (a + 4) (k + 1)
    | (st, t) => (t, st, k)

/-- A refusal for want of the role leaves one SEC record (16 R377). -/
def answerWrite (s : State) (i id : Nat) (st : Status) (res : List Int) : State :=
  let t := s.respond i id st res
  if st = .auth then t.report 1 0x11 .authRefused [i, id] [] else t

/-- A register with a WO field. -/
def hasWo (a : Nat) : Bool :=
  match findReg a with
  | some (r, _, _) => r.has .wo
  | none => false

/-- How a held write names its word: a register by its address, an F word by its address from 2^28 on. -/
def heldKey (s : State) (i a : Nat) : Nat := if inDataWindow a then 0x10000000 + s.windowAddr (.gsp i) a else a

/-- The safety entries as the transaction's held writes would leave them: a further write is tested against these (19 R422). -/
def heldView (s : State) (i : Nat) : State :=
  match (s.sess i).txn with
  | some x => (x.writes.filter (fun w => decide (0x50700 ≤ w.1 ∧ w.1 < 0x50800))).foldl (fun t w => t.plainWrite w.1 w.2) s
  | none => s

/-- Accept one write of a transaction: per-session registers are written at once, others held. -/
def holdWrite (s : State) (i a : Nat) (w : Word) : Status × State :=
  let h := s.heldView i
  if hasWo a ∧ h.versionRefused (.gsp i) a w = false then (.invalid, s)
  else match h.writeStatus (.gsp i) a w with
    | .ok =>
      if perRequester a then s.performWrite (.gsp i) a w
      else match (s.sess i).txn with
        | some x =>
          if 4096 ≤ x.writes.length then (.noSpace, s)
          else
            let s1 := s.setSess i { s.sess i with txn := some { x with writes := x.writes ++ [(s.heldKey i a, w)] } }
            (.ok, s1.setFld R.HOST_SESS_TXN_WORDS (x.writes.length + 1) i)
        | none => (.refusedState, s)
    | st => (st, s)

/-- Accept the writes of a request in order. -/
def holdRun (i : Nat) : List Word → State → Nat → Nat → State × Status × Nat
  | [], s, _, k => (s, .ok, k)
  | w :: ws, s, a, k =>
    match s.holdWrite i a w with
    | (.ok, t) => holdRun i ws t (a + 4) (k + 1)
    | (st, t) => (t, st, k)

/-- The transaction has had a request. -/
def txnTouch (s : State) (i : Nat) : State :=
  match (s.sess i).txn with
  | some x => s.setSess i { s.sess i with txn := some { x with lastNs := s.nowNs } }
  | none => s

/-- A REG_WRITE with TXN set: a refusal rolls the whole transaction back. -/
def regHold (s : State) (i id a : Nat) (ws : List Word) : State :=
  if !s.sessFeature i 1 then s.respond i id .version []
  else if (s.sess i).txn.isNone then s.respond i id .refusedState []
  else match holdRun i ws s a 0 with
    | (t, .ok, k) => t.txnTouch i |>.respond i id .ok [(k : Int)]
    | (t, st, k) => (t.txnDrop i).answerWrite i id st [(k : Int)]

def regWrite (s : State) (i id a : Nat) (ws : List Word) (txn : Bool) : State :=
  if ws.isEmpty ∨ 256 < ws.length then (if txn ∧ s.sessFeature i 1 then s.txnDrop i else s).respond i id .range []
  else if txn then s.regHold i id a ws
  else
    let (t, st, k) := writeRun (.gsp i) ws s a 0
    t.answerWrite i id st [(k : Int)]

/-! ### Transactions (R428) -/

def txnBegin (s : State) (i id : Nat) : State :=
  if !s.sessFeature i 1 then s.respond i id .version []
  else if (s.sess i).txn.isSome then s.respond i id .busy []
  else
    let n := s.host.txnNo + 1
    let s1 := { s with host := { s.host with txnNo := n } }
    let s2 := s1.setSess i { s1.sess i with txn := some ⟨n, [], s1.nowNs⟩ }
    ((s2.setBit R.HOST_SESS_TXN_OPEN true i).setFld R.HOST_SESS_TXN_WORDS 0 i).respond i id .ok [(n : Int)]

/-- TXN_COMMIT: the held writes go to the next bar, which answers. -/
def txnCommit (s : State) (i id : Nat) : State :=
  if !s.sessFeature i 1 then s.respond i id .version []
  else match (s.sess i).txn with
    | none => s.respond i id .refusedState []
    | some x =>
      let s1 := s.txnDrop i
      { s1 with bar := { s1.bar with host := s1.bar.host ++ [⟨i, some id, x.writes⟩] } }

def txnAbort (s : State) (i id : Nat) : State :=
  if !s.sessFeature i 1 then s.respond i id .version []
  else if (s.sess i).txn.isNone then s.respond i id .refusedState []
  else (s.txnDrop i).respond i id .ok []

/-! ### LOG_READ (16 R385) -/

/-- Records of a log from a number on, ascending. -/
def logRun (s : State) (l first n : Nat) : List Rec :=
  (((s.evrLog l).recs.filter (fun r => decide (first ≤ r.seq))).reverse).take n

/-- Head and tail of a log. -/
def logEnds (s : State) (l : Nat) : List Int :=
  [((s.evrLog l).head : Int), (((s.evrLog l).recs.getLast?.map (fun r => r.seq)).getD 0 : Nat)]

def logRead (s : State) (i id l first n : Nat) : State :=
  if !s.ready 7 then s.respond i id .notReady []
  else if 2 < l ∨ n = 0 ∨ 4096 < n then s.respond i id .range []
  else if l = 1 ∧ !s.roleIn i [3, 4] then s.respondAuth i id
  else
    let rs := s.logRun l first n
    s.respond i id .ok (s.logEnds l ++ s.logEnds l ++ rs.flatMap (fun r => (recBytes r).map (fun b => (b.toNat : Int))))

/-! ### LANTERN_CMD (R424) -/

/-- A refusal is also a result in the ring (07 R191). -/
def lanternCmd (s : State) (i id lid code : Nat) (payload : List Byte) (txn : Bool) : State :=
  if txn then s.txnRefused i id
  else if s.sessVersion i = 3 ∧ 4096 ≤ lid then s.respond i id .version []
  else if s.part.lanterns ≤ lid then s.respond i id .range []
  else if 56 < payload.length then s.respond i id .range []
  else if !recComm s.fmem lid then s.respond i id .invalid []
  else match s.cmdRequest id lid code payload (some i) with
    | (.ok, t) => t
    | (st, t) => (t.cmdResult id lid st false []).respond i id st []

/-! ### Streams (R427) -/

/-- What arrived ahead and now follows on. -/
def takeAhead : Nat → List Byte → List (Nat × List Byte) → List Byte × List (Nat × List Byte)
  | 0, bs, xs => (bs, xs)
  | n + 1, bs, xs =>
    match xs.find? (fun e => decide (e.1 ≤ bs.length ∧ bs.length < e.1 + e.2.length)) with
    | some e => takeAhead n (bs ++ e.2.drop (bs.length - e.1)) (xs.filter (fun y => decide (y ≠ e)))
    | none => (bs, xs.filter (fun y => decide (bs.length < y.1)))

/-- A stream's last byte has been consumed: the operation runs. -/
def streamRun (s : State) (i : Nat) (x : HostStream) (bs : List Byte) : State :=
  let t := s.closeStream i x.id
  if x.op = 0x30 then t.imgReceived i x.id bs
  else
    let (st, t1) := t.partDone bs
    t1.respond i x.id st []

/-- CREDIT once half the window has been consumed. -/
def streamCredit (s : State) (i : Nat) (x : HostStream) : State :=
  let w := s.fld R.HOST_WINDOW_KIB * 1024
  let c := x.bytes.length
  let due := decide (x.granted ≤ c + w / 2)
  let y := if due then { x with granted := c + w } else x
  let s1 := s.setSess i { s.sess i with streams := (s.sess i).streams.map (fun z => if z.id = x.id then y else z) }
  if due then s1.emit (.credit i x.id c w) else s1

/-- A segment of an open stream; `final`: its flag FINAL, which belongs to the segment that ends at the declared length alone (log entry
190). -/
def segment (s : State) (i : Nat) (x : HostStream) (off : Nat) (data : List Byte) (final : Bool) : State :=
  let most := if s.bit R.HOST_SESS_DTLS i then 1024 else 16384
  if x.len < off + data.length ∨ most < data.length ∨ (final ∧ off + data.length ≠ x.len) then ((s.closeStream i x.id).streamDrop i x).respond i x.id .invalid []
  else if x.granted < off + data.length then s
  else
    let (bs, ahead) := takeAhead (x.ahead.length + 1) x.bytes (x.ahead ++ [(off, data)])
    if bs.length = x.len then s.streamRun i x bs
    else s.streamCredit i { x with bytes := bs, ahead := ahead }

end State

/-! ### Commands

`i` is the session's slot, `id` the request's. -/

def execRegRead (i : Fin 8) (id a n : Nat) (us : Fin 20000) (s : State) : Out :=
  .next ((s.atUs us).request i id 1 true (fun t => t.regRead i id a n))

/-- `txn`: the request belongs to the open transaction. Each word's role is checked as R431 gives. -/
def execRegWrite (i : Fin 8) (id a : Nat) (ws : List Word) (txn : Bool) (us : Fin 20000) (s : State) : Out :=
  .next ((s.atUs us).request i id 1 true (fun t => t.regWrite i id a ws txn))

def execTxnBegin (i : Fin 8) (id : Nat) (us : Fin 20000) (s : State) : Out :=
  .next ((s.atUs us).request i id 2 false (fun t => t.txnBegin i id))

def execTxnCommit (i : Fin 8) (id : Nat) (us : Fin 20000) (s : State) : Out :=
  .next ((s.atUs us).request i id 2 false (fun t => t.txnCommit i id))

def execTxnAbort (i : Fin 8) (id : Nat) (us : Fin 20000) (s : State) : Out :=
  .next ((s.atUs us).request i id 2 false (fun t => t.txnAbort i id))

def execTxnIdleTimeout (i : Fin 8) (s : State) : Out :=
  .next (match (s.sess i).txn with
    | some x => s.whenDue (x.lastNs + 60000000000) (fun t => t.txnDrop i)
    | none => s)

def execLogRead (i : Fin 8) (id log first n : Nat) (us : Fin 20000) (s : State) : Out :=
  .next ((s.atUs us).request i id 1 false (fun t => t.logRead i id log first n))

def execLanternCmd (i : Fin 8) (id lid : Nat) (code : Fin 256) (payload : List Byte) (txn : Bool) (us : Fin 20000) (s : State) : Out :=
  .next ((s.atUs us).request i id 2 false (fun t => t.lanternCmd i id lid code payload txn))

/-- Data of stream `id` at an offset. -/
def execSegment (i : Fin 8) (id off : Nat) (data : List Byte) (final : Bool) (us : Fin 20000) (s : State) : Out :=
  let t := s.atUs us
  .next (if t.hostRuns ∧ t.sessState i = 2 then
      match (t.sess i).streams.find? (fun x => decide (x.id = id)) with
      | some x => (t.sessHeard i).segment i x off data final
      | none => t.sessHeard i
    else s)

/-- The client has received a stream of the module in order up to an offset, and grants a window. -/
def execCredit (i : Fin 8) (id off window : Nat) (us : Fin 20000) (s : State) : Out :=
  let t := s.atUs us
  .next (if t.hostRuns ∧ t.sessState i = 2 then
      let t1 := t.sessHeard i
      t1.setSess i { t1.sess i with sendLimit := SMap.set 0 (t1.sess i).sendLimit id (off + window) }
    else s)

end Sys2Proof.Machine
end

