-- ==== Sys2Proof/Machine/Power.lean ====
section
/-! DEFINITION. Supplies and power states (14_power_and_watch.md R345 to R356): the starts of the main domain, ready functions
(01_architecture.md R21 to R23), ONYX with its last tasks, and the saving of the configuration to NAND. -/

namespace Sys2Proof.Machine

/-! ### What is kept in NAND and in the units' own stores -/

/-- A byte of F that is saved: classes C and P of the lantern records, and the segment tables (05 R143). -/
def savedByte (a : Nat) : Bool := decide (a < 0x280000) && (decide (0x200000 ≤ a) || decide (a % 128 < 0x40))

/-- A register whose configuration is saved to NAND: RAD (08 R239), NTU (10 R287), LCE but for LOOP[0], set-points and manual codes
(12 R321), FP (20 R447), HOST (19 R434), FLOW_TUNE (06 R175), MET_FEEDER_RATIO (13 R344) and RTC_CAL (15 R368). -/
def savedReg (a : Nat) : Bool :=
  match findReg a with
  | none => false
  | some (r, _, _) =>
    r.has .rw && (match a / 0x10000 with
      | 0x4 => decide (r.base = 0x40100)
      | 0x6 => true
      | 0x7 => true
      | 0x9 => decide (r.base ≠ 0x90204 ∧ r.base ≠ 0x90208 ∧ r.base ≠ 0x9100C ∧ !(0x91000 ≤ a ∧ a < 0x91100))
      | 0xA => decide (r.base = 0xA0408)
      | 0xB => decide (r.base = 0xB0024)
      | 0xF => true
      | 0x11 => true
      | _ => false)

/-- Registers that a start leaves as they stand: the always-on domain's, LOOP[0]'s configuration (11 R290), the staged sequence;
at a warm start also the NTU's, the counters of entries into ONYX and GARNET, and the ready times of RTC, BKP and WCH (R356). -/
def keptReg (warm : Bool) (a : Nat) : Bool :=
  decide (a / 0x10000 = 0xB ∨ a / 0x10000 = 0x10 ∨ a = 0xE0020) || decide (0x91008 ≤ a ∧ a < 0x910A0) ||
    (warm && (decide (a / 0x10000 = 0x7 ∨ a = 0x10020 ∨ a = 0x30070 ∨ a = 0x30074) || decide (0x100 ≤ a ∧ a < 0x10C)))

/-- A unit with a store of its own, which keeps the fields marked stored. -/
def storeUnit (a : Nat) : Bool := ([0x1, 0x8, 0x9, 0xC, 0xD, 0xE] : List Nat).contains (a / 0x10000)

/-- A reset word with the stored fields of `w`. -/
def Reg.storedWord (r : Reg) (reset w : Word) : Word :=
  r.fields.foldl (fun u f => if f.stored then putBits u f.lo f.width (getBits w f.lo f.width) else u) reset

namespace State

/-- The registers as they are saved: RAD_WIN[0] as configured while AGATE has it recentred (08 R238). -/
def regsToSave (s : State) : SMap Word :=
  (match s.rad.savedWin with
    | some c => s.setFld R.RAD_WIN_CENTRE c 0
    | none => s).regs

/-- Everything committed is in NAND. -/
def saveAll (s : State) (tables : Bool) : State :=
  let n : Nand := { s.nand with
    regs := s.regsToSave.filter (fun e => savedReg e.1), links := s.flow.links, bnd := s.flow.bnd, tfl := s.flow.tfl }
  let s1 : State := { s with nand := if tables then { n with f := s.fmem.filter (fun e => savedByte e.1) } else n }
  if tables then s1.setBit R.LTAB_STAT_UNSAVED false else s1

/-- The saved configuration comes back. -/
def restoreRegs (s : State) : State :=
  s.nand.regs.foldl (fun t e =>
    if e.1 = 0xB0024 then t
    else match findReg e.1 with
      | some (r, _, _) => t.wr e.1 (r.write (t.rd e.1) e.2)
      | none => t) s

/-- The boundary table in force is shown again. -/
def restoreBnd (s : State) : State :=
  (List.range 64).foldl (fun t b => t.wr (R.FLOW_BND_CFG_VALID.at b 0) (SMap.find 0 t.nand.bnd b)) s

/-- The reckoner as restored: its configuration, and cleared cells (06 R170, R175). -/
def restoredFlow (s : State) : Flow :=
  let f : Flow := { shadow := s.nand.links, links := s.nand.links, bnd := s.nand.bnd, tfl := s.nand.tfl }
  f.clearAll

/-- F as restored: what NAND holds, class M as at bring-up (05 R143). -/
def restoreF (s : State) : State := { s with fmem := s.nand.f, ftwin := s.nand.f }

/-! ### The always-on domain -/

/-- A WCH register that stands for what the core has sampled and found, and not in DRV's store or the backup domain (14 R362): the
inputs, FIRED, LOGQ, the fallback's state and each rule's. -/
def wchVolatile (a : Nat) : Bool :=
  decide (0x100000 ≤ a ∧ a < 0x100040) || ([0x100044, 0x100048, 0x100058] : List Nat).contains a ||
    decide (0x100100 ≤ a ∧ a < 0x100300 ∧ a % 16 = 12)

/-- The watch core starts anew: it has stopped in BACKUP or OFF (R349). -/
def watchStart (s : State) : State := { s with regs := s.regs.filter (fun e => !wchVolatile e.1), wch := {} }

/-- The always-on domain starts from OFF: the RTC, its CAL until KEY is ready, the watch core, and the heads kept for the recorder. -/
def alwaysOnStart (s : State) : State :=
  let s1 := s.rtcCold
  let s2 := (s1.wr 0xB0024 (regReset s1.part 0xB0024)).watchStart
  let h (g : EvrLog) : EvrLog := { g with savedHead := none }
  { s2 with rtc := { s2.rtc with calLost := true }, evr := { s2.evr with ops := h s2.evr.ops, sec := h s2.evr.sec } }

/-! ### The event recorder at a start (16 R380) -/

/-- A log continues from what NAND and the backup domain hold, records that were open as NAND has them; where the backup domain's value
does not exist, as after OFF, 32,768 further on. METLOG (`isl`) has the island's numbers. -/
def EvrLogStart (isl : Bool) (g : EvrLog) : EvrLog :=
  let h := if isl then g.nandHead else match g.savedHead with
    | some q => max g.nandHead q
    | none => g.nandHead + 32768
  let kept (r : Rec) : Rec := (g.copies.find? (fun c => decide (c.seq = r.seq))).getD r
  { g with recs := (g.recs.filter (fun r => decide (r.seq ≤ g.nandHead))).map kept, head := h, flood := [], savedHead := none, copies := [] }

def evrStart (s : State) : State :=
  let s1 := s.setEvrLog 0 (EvrLogStart false s.evr.ops)
  let s2 := s1.setEvrLog 1 (EvrLogStart false s.evr.sec)
  let s3 := s2.setEvrLog 2 (EvrLogStart true s.evr.met)
  ({ s3 with evr := { s3.evr with early := [] } }).addWrap R.EVR_BOOT_BOOT 1

/-- The numbers that a log skipped at this start, as first and last. -/
def skipped (g : EvrLog) : List Nat := if g.nandHead < g.head then [g.nandHead + 1, g.head] else []

/-- The GAP record: the numbers skipped in OPS and SEC. It is the first of its boot, so it has the time of the first record that waits, if
one does, and FIRST does not decrease (R380, R381). -/
def gapRec (s : State) (early : List (Nat × Rec)) : Rec :=
  let at0 : Nat × Nat := match early.find? (fun x => decide (x.1 ≠ 2)) with
    | some e => (e.2.firstMs, e.2.monoUs)
    | none => (s.utcRecord, s.monoUs)
  { seq := 0, epoch := s.fld R.EVR_EPOCH_EPOCH, boot := s.fld R.EVR_BOOT_BOOT, gen := 0, source := 0x0D, event := .gap, repeats := 0
    firstMs := at0.1, lastMs := 0, monoUs := at0.2, key := []
    data := [s.evr.ops.nandHead + 1, s.evr.ops.head, s.evr.sec.nandHead + 1, s.evr.sec.head] }

/-- The EVR becomes ready: GAP comes first, then the records held, in creation order (R378, R380). -/
def evrReady (s : State) : State :=
  let gap := skipped s.evr.ops ++ skipped s.evr.sec
  let early := s.evr.early
  let s1 := ({ s with evr := { s.evr with early := [] } }).setReady 7
  let s2 := if gap.isEmpty then s1
    else (s1.evrEnter 0 (s1.gapRec early)).setBit R.EVR_EVT_GAP true
  (early.foldl (fun t x => if x.1 = 2 then t.evrMirror x.2 else t.evrEnter x.1 x.2) s2).watchFlush

/-! ### The start of the main domain (R349, R356) -/

/-- Registers at a start: units' own stores and what `keptReg` names are kept, the saved configuration comes back. -/
def startRegs (s : State) (warm : Bool) : State :=
  let s1 : State := { s with regs := s.regs.filter (fun e => keptReg warm e.1) }
  let s2 := s.regs.foldl (fun t e =>
    if keptReg warm e.1 ∨ !storeUnit e.1 then t
    else match findReg e.1 with
      | some (r, _, _) => t.wr e.1 (r.storedWord (regReset t.part e.1) e.2)
      | none => t) s1
  let hold := warm && s.bit R.ROD_FLT_STAT_HOLD
  let s3 := (s2.restoreRegs.restoreBnd.setFld R.DRV_STAT_SWITCH s.switchPos).setUpdState s.updState
  ((s3.setBit R.PWR_STAT_VBKP_OK s.pwr.vbkp).setBit R.ROD_FLT_STAT_HOLD hold).setBit R.ROD_FLT_STAT_GARNET hold

/-- The images that the program store keeps come back LOADED, with their handles (05 R138). -/
def startImages (old s : State) : State :=
  let kept := old.images.filter (fun (e : Nat × Image) => e.2.stored)
  let s1 : State := { s with images := kept.map (fun (e : Nat × Image) =>
    (e.1, { e.2 with placed := [], edges := 0, unloading := false, session := 0, reqId := 0 })) }
  kept.foldl (fun t (e : Nat × Image) =>
    let a := R.LTAB_IMG_STATE.at e.1 0
    (((t.wr a (old.rd a)).wr (a + 4) (old.rd (a + 4))).wr (a + 8) (old.rd (a + 8))).setFld R.LTAB_IMG_STATE 3 e.1) s1

/-- The application domain's own state starts anew. -/
def clearApp (s : State) : State :=
  let s1 : State := { s with imem := [], cmem := [], beads := [], rods := [] }
  let s2 : State := { s1 with bar := {}, port := {}, icu := {} }
  { s2 with flow := s2.restoredFlow }

/-- What a node's join left: it outlasts a loss of power, as LAP and GEN do (log entry 57). -/
def keptLeaves (m : SMap Leafing) : SMap Leafing :=
  m.filterMap (fun e => if e.2.joined then some (e.1, { joined := true, hw := e.2.hw, fsSent := e.2.fsSent }) else none)

/-- The other units of the die start anew; what lies outside the die, and stores, stay. The restored segment channel map is in force
(09 R243, R251), and a restored valid hop map is announced at the next edge (09 R241). -/
def clearUnits (s : State) : State :=
  let raws := s.drv.feeders.filterMap (fun (e : Nat × DrvFeeder) =>
    if e.2.raw then some (e.1, ({ raw := true } : DrvFeeder)) else none)
  let s1 : State := { s with drv := { feeders := raws }, lce := {} }
  let links : Links :=
    { map := s.fld R.RAD_LINK_MAP_LO_MAP + s.fld R.RAD_LINK_MAP_HI_MAP * 2 ^ 32, advDue := (List.range 4).filter (fun h => s.hopValid h) }
  let s2 : State := { s1 with rad := {}, links := links, seg := { leaves := keptLeaves s.seg.leaves } }
  let s3 : State := { s2 with met := {}, host := {} }
  let s4 : State := { s3 with fp := { salt := s3.fp.salt, pinHash := s3.fp.pinHash } }
  { s4 with key := { s4.key with queue := [], done := false } }

/-- The faults at a start: the queue is empty (21 R451), HOLD ends only with a cold start (R456). -/
def startFaults (s : State) (warm : Bool) : State :=
  let hold := s.bit R.ROD_FLT_STAT_HOLD
  let is := s.storedImages.filter (fun i => (s.image i).wasActive)
  let f : Flt := { hot := s.flt.hot, entries := if warm then s.flt.entries else [], step := if hold then 6 else 0
                   images := is, reverify := true }
  { s with flt := f }

/-- The frame tick starts at module time `ns`, with SYS_FRAME_COUNT at 0. -/
def startTick (s : State) (ns : Nat) (warm : Bool) : State :=
  let n := (ns + 9999999) / frameNs
  let e : Int := (ns : Int) - ((n * frameNs : Nat) : Int)
  let f : Frame := { phase := .snap, number := n, edgeNs := ns, nowUs := 0, mono := 0, frac := 0
                     leapDue := if warm then s.fr.leapDue else none, leapPast := if warm then s.fr.leapPast else none }
  let s1 : State := { s with fr := f }
  (s1.setFldI R.NTU_PHASE_NS e).setBit R.NTU_STAT_FLOCK (decide (e.natAbs ≤ 1000))

/-- Module time of a start without a time counter (10 R274): RTC time and UTC offset, rounded down to 20 ms; 0 with OSF. -/
def rtcStartNs (s : State) (count : Nat) : Nat :=
  if s.bit R.RTC_STATUS_OSF then 0
  else
    let ns := ((s.rtcTime.secs + s.fldI R.NTU_UTC_OFFSET) * 1000000000).toNat + count * 1000000000 / 32768
    ns - ns % frameNs

/-- The RTC's prescaler stood at `count` at the tick edge; nothing of a step or of steering is pending. -/
def rtcAligned (s : State) (count : Nat) : State :=
  { s with rtc := { s.rtc with tickNs := s.fr.edgeNs, base := count, steered := 0, stepNs := none, hourNs := none } }

/-- Module time at a start: it runs on through ONYX; otherwise the NTU is brought up again (10 R274, R275). -/
def startTime (s : State) (warm : Bool) (count : Nat) : State :=
  if warm then
    let s1 := (s.startTick s.nowNs true).rtcAligned count
    if s1.ntuState = 3 then s1.portSync else (s1.holdover false).portSync
  else
    ((({ s with ntu := {} } : State).startTick (s.rtcStartNs count) false).rtcAligned count).portSync

/-- RTC, BKP and WCH are ready at once (01 R21); a warm start keeps their times. -/
def startReady (s : State) (warm : Bool) : State :=
  if warm then s.wr 4 7 else ((s.setReady 0).setReady 1).setReady 2

/-- The main domain is on VAUX. -/
def mainOn (s : State) : State :=
  { s with pwr := { mode := .on, vaux := true, vbkp := s.pwr.vbkp, retired := s.pwr.retired, vledin := s.pwr.vledin }, wch := { s.wch with nextNs := 0 } }

/-- What a start does to the stores and the units. -/
def startUnits (s : State) (kind : Nat) : State :=
  let s1 := (startImages s (s.startRegs (decide (kind = 1)))).restoreF.clearApp.clearUnits
  let s2 := if kind = 0 then s1.alwaysOnStart else if kind = 2 then s1.watchStart else s1
  ((s2.setBit R.WCH_PHOTO_STAT_ARMED false).setBit R.PWR_STAT_VLEDIN_OK s.pwr.vledin.2).setFld R.DRV_VLEDIN_V (min 65535 s.pwr.vledin.1)

/-- A start: kind 0 from OFF, 1 warm from ONYX, 2 from BACKUP. `count`: the RTC's prescaler. -/
def start (s0 : State) (kind count : Nat) : State :=
  let warm := decide (kind = 1)
  let s5 := (s0.bootSelect.updStart.startUnits kind).mainOn
  let s6 := ((s5.startTime warm count).setFld R.PWR_STAT_START kind).setBit R.PWR_EVT_ONYX warm
  let s7 := ((s6.startFaults warm).evrStart).startReady warm
  let s8 := s7.bootMeasure
  let s9 := if s8.updState = 5 then s8.rollbackEnd else s8.updParts
  s9.photoSync

/-! ### Ready functions (R21) -/

/-- The lantern and segment tables hold what NAND held: before the ROD bit first sets (05 R152). -/
def tablesReady (s : State) : State := (s.setBit R.LTAB_STAT_RESTORED true).countComm

/-- Function n has come ready. ROD not under HOLD (21 R456); RTC, BKP and WCH are ready from the start, KEY by recovery, MET by its
first record, NTU_LOCK by the NTU. -/
def functionReady (s : State) (n : Nat) : State :=
  let app := decide (1 ≤ s.flt.step ∧ s.flt.step ≤ 5)
  match n with
  | 3 => if s.drv.storeRead then s.setReady 3 else s
  | 4 => if s.drv.storeRead then (s.setReady 4).lceAutoclose else s
  | 7 => s.evrReady
  | 8 => if app then s
    else if s.bit R.ROD_FLT_STAT_HOLD then s.tablesReady
    else (s.tablesReady.setReady 8).photoSync
  | 9 => if app then s else s.setReady 9
  | 10 => if app then s else s.setReady 10
  | 16 => if app then s else s.setReady 16
  | 12 => if s.part.trxs < 2 ∨ s.bit R.PWR_STAT_STATE then s else s.setReady 12
  | 6 => s.setReady 6
  | 11 => s.setReady 11
  | 14 => s.setReady 14
  | 15 => s.setReady 15
  | _ => s

/-! ### ONYX (R353 to R355) -/

/-- The need of last task t in mJ. -/
def taskNeed (t : Nat) : Nat := if t = 1 then 20 else if t = 2 then 150 else 50

/-- The unit of last task t is ready: TRX[A], EVR, KEY. -/
def taskUnit (s : State) (t : Nat) : Bool := s.ready (if t = 1 then 11 else if t = 2 then 7 else 5)

/-- The last-gasp report: three launches of class 0 on TRX[A], 1, 6 and 11 ms after ONYX entry. -/
def lastGasp (s : State) : State :=
  let p : List Byte := [0x12, 0, 1] ++ leBytes 1 (s.fld R.PWR_ONYX_PCT) ++ leBytes 4 (s.nowNs / 1000000000)
  ([1, 6, 11] : List Nat).foldl (fun t ms =>
    let due := t.pwr.onyxNs + ms * 1000000
    let (q, t1) := t.nextSeq
    (t1.tlqOffer 0 (t1.fixedEntry ⟨0, true, 0xFFFF, .lastGasp p, lapOctets 8, due, false⟩ q due)).2) s

/-- Try last task t and those after it, with the energy left in mJ: the first that can run starts; the rest are skipped. None when
none is left. -/
def tryTasks (mj : Nat) : Nat → State → Nat → State
  | 0, s, _ => { s with pwr := { s.pwr with task := none } }
  | n + 1, s, t =>
    if 3 < t then { s with pwr := { s.pwr with task := none } }
    else if taskNeed t ≤ mj ∧ s.taskUnit t then
      let s1 : State := { s with pwr := { s.pwr with task := some t } }
      if t = 1 then s1.lastGasp else s1
    else tryTasks mj n (s.setFld R.PWR_ONYX_SKIPPED (s.fld R.PWR_ONYX_SKIPPED + 2 ^ (t - 1))) (t + 1)

/-- The rods stop (01 R20): their logs are discarded, and frames do not run until the next start. -/
def rodsStop (s : State) : State :=
  let s1 : State := { s with fr := { s.fr with phase := .stopped } }
  let s2 := (List.range 16).foldl (fun t r => t.setCur r none) s1.dropLogs
  ({ s2 with bar := {} } : State).clearReady 8

/-- The main domain switches off; a start that was waiting follows. -/
def mainOff (s0 : State) : State :=
  let s := if s0.framesRun then s0.rodsStop else s0
  let s1 : State := { s with pwr := { s.pwr with task := none } }
  let s2 := (s1.wr 4 (s1.rd 4 &&& 7)).tlqFlush 0
  if s2.pwr.warmWait then s2.start 1 s2.rtcSub else s2

/-- The main domain switches off once no last task is left and the bar in progress at VAUX_LOST, if there was one, is complete. -/
def offWhenDone (s : State) : State := if s.pwr.task.isNone ∧ !s.framesRun then s.mainOff else s

/-- What task t has done. -/
def taskDone (s : State) (t : Nat) : State :=
  let s1 := if t = 2 then s.evrFlush else if t = 3 then s.keySync else s
  s1.setFld R.PWR_ONYX_DONE (s1.fld R.PWR_ONYX_DONE + 2 ^ (t - 1))

/-- What runs on VAUX stops (R353): the rods at once, or after the bar in progress (01 R20). -/
def onyxStop (s : State) : State :=
  let s1 := s.assertSrc 0
  let s4 := if s1.fr.phase = .bar then s1 else s1.rodsStop
  let s5 := (s4.updVauxLost.drvPowerOff).loopsOnyx
  (if s5.ready 13 ∨ s5.met.sess then s5.metEnd else s5).hostClose

/-- Ready bits in ONYX: RTC, BKP, WCH, and the units of the last tasks; ROD until a bar in progress is complete. -/
def onyxReady (s : State) : State :=
  let s1 := s.wr 4 (s.rd 4 &&& (if s.fr.phase = .bar then 0x9A7 else 0x8A7))
  let s2 := (s1.tlqFlush 0).tlqFlush 1
  { s2 with rad := { s2.rad with acks := [] } }

/-- The NTU stays in HOLDOVER, JUMP with it, or enters it; a step that was due is not made any more (10 R275). -/
def ntuOnyx (s : State) : State :=
  let s1 : State := { s with ntu := { s.ntu with step := none, net := none } }
  if s1.ntuState = 3 then s1 else s1.holdover false

/-- Entry into ONYX, with the store's charge in % and its energy in mJ. -/
def onyxEnter (s : State) (pct mj : Nat) : State :=
  let p : Pwr := { s.pwr with mode := .onyx, vaux := false, onyxNs := s.nowNs, warmWait := false, paused := false }
  let s1 := s.onyxStop
  let s2 : State := { s1 with pwr := p, fp := { s1.fp with lampEnd := none } }
  let s3 := s2.onyxReady.ntuOnyx
  let h (g : EvrLog) : EvrLog := { g with savedHead := some g.head }
  let s4 : State := { s3 with evr := { s3.evr with ops := h s3.evr.ops, sec := h s3.evr.sec } }
  let s5 := (s4.wr R.PWR_ONYX_DONE.addr 0).setFld R.PWR_ONYX_PCT pct
  (tryTasks mj 3 (s5.addSat R.PWR_CNT_ONYX 1) 1).offWhenDone

/-- Everything stops: the domain's supply is gone. -/
def powerOff (s : State) : State :=
  { s with pwr := { s.pwr with mode := .off, task := none } }

/-- The bar in progress at VAUX_LOST is complete: the rods stop, and EMIT does not follow (01 R20, log entry 134). -/
def onyxBarEnd (s : State) : State := s.rodsStop.offWhenDone

end State

/-! ### Commands -/

/-- `us`: time since the last tick edge as far as it is known; `count`: the RTC's prescaler. -/
def execVauxValid (us : Nat) (count : Fin 32768) (s : State) : Out :=
  .next (match s.pwr.mode with
    | .on => s
    | .off => s.start 0 0
    | .backup => s.start 2 count
    | .onyx =>
      let t := s.atUs us
      if t.pwr.task.isSome ∨ t.framesRun then
        ({ t with pwr := { t.pwr with vaux := true, warmWait := true } } : State).rtcAligned count
      else t.start 1 count)

/-- In a control pause only the radio comes back (18 R412). -/
def execFunctionReady (n : Fin 18) (us : Fin 20000) (s : State) : Out :=
  .next (if s.poweredOn ∧ (!s.pwr.paused ∨ n = 11 ∨ n = 12) ∧ !s.ready n then (s.atUs us).functionReady n else s)

/-- `store`, `mj`: the store's voltage in 10 mV, and its delivered energy in mJ. VAUX that has come back in ONYX while a last task runs may
be lost again: the warm start no longer waits (R346, R349). -/
def execVauxLost (us : Fin 20000) (store : Nat) (mj : Nat) (s : State) : Out :=
  .next (if s.poweredOn then (s.atUs us).onyxEnter (min 100 (storePct store)) mj
    else if s.pwr.vaux then { s with pwr := { s.pwr with vaux := false, warmWait := false } }
    else s)

/-- `us` as in VAUX_VALID; `mj`: the energy left. -/
def execLastTaskComplete (us mj : Nat) (s : State) : Out :=
  .next (match s.pwr.mode, s.pwr.task with
    | .onyx, some t =>
      (State.tryTasks mj 3 ((s.atUs us).taskDone t) (t + 1)).offWhenDone
    | _, _ => s)

/-- What has not been done by then is skipped. -/
def execOnyxDeadline (s : State) : Out :=
  .next (match s.pwr.mode, s.pwr.task with
    | .onyx, some t =>
      let s1 := s.atUs (ceilDiv (s.pwr.onyxNs + 5000000000 - s.fr.edgeNs) 1000)
      (s1.setFld R.PWR_ONYX_SKIPPED (s1.fld R.PWR_ONYX_SKIPPED ||| (8 - 2 ^ (t - 1)))).mainOff
    | _, _ => s)

/-- The always-on domain takes VAUX before the store (R347): with VAUX valid again nothing is lost with the store. -/
def execStoreLost (s : State) : Out :=
  .next (if s.pwr.mode = .onyx ∧ !s.pwr.vaux then
      let t := if s.framesRun then s.rodsStop else s
      (if t.pwr.vbkp then { t with pwr := { t.pwr with mode := .backup, task := none } } else t.powerOff)
    else s)

def execVbkpLost (s : State) : Out :=
  let t := ({ s with pwr := { s.pwr with vbkp := false } }).setBit R.PWR_STAT_VBKP_OK false
  .next (if s.pwr.mode = .backup then t.powerOff else t)

def execVbkpValid (s : State) : Out :=
  let t := ({ s with pwr := { s.pwr with vbkp := true } }).setBit R.PWR_STAT_VBKP_OK true
  .next (if s.pwr.mode = .off then
      ({ t with pwr := { t.pwr with mode := .backup } }).alwaysOnStart
    else t)

/-- Capacitance in 0.1 F of a charge in mC and the voltage gained in 10 mV, rounded down. -/
def storeCap (charge gained10mv : Nat) : Nat := min 255 (charge / gained10mv)

/-- A charge ends: its voltages in 10 mV, and the charge delivered in mC (R348). -/
def execStoreChargeEnd (us : Fin 20000) (from10mv : Nat) (c : StoreCharge) (s : State) : Out :=
  .next (if s.poweredOn ∧ from10mv < 250 ∧ from10mv < c.to10mv then
      let cap := storeCap c.charge (c.to10mv - from10mv)
      let t := (s.atUs us).setFld R.PWR_STORE_CAP_CAP cap
      if cap < 35 then t.setBit R.PWR_EVT_STORE_AGED true else t
    else s)

def execConfigSave (us : Fin 20000) (s : State) : Out :=
  .next (if s.poweredOn then (s.atUs us).saveAll (s.bit R.LTAB_STAT_RESTORED) else s)

end Sys2Proof.Machine
end

