-- ==== Sys2Proof/Machine/Recovery.lean ====
section
/-! DEFINITION. The reset and the rebuilding of the application domain in GARNET (21_faults.md R452 to R456), and a step of module
time (10_network_time.md R276). -/

namespace Sys2Proof.Machine

namespace State

/-! ### GARNET steps 4 to 6 (R453) -/

/-- One of the two classes of the last double fault is MEM. -/
def garnetMem (s : State) : Bool :=
  decide (s.fld R.ROD_FLT_GARNET_FIRST = clsMem) || decide (s.fld R.ROD_FLT_GARNET_SECOND = clsMem)

/-- The registers of the ICU, the rods but for the faults', the reckoner, the tally and the host session unit at their reset values,
with their saved configuration. -/
def appRegs (s : State) : State :=
  let m := SMap.clear (SMap.clear (SMap.clear s.regs 0x20000 0x3003F) 0x30080 0x4FFFF) 0x11000 0x1117F
  let s1 : State := { s with regs := SMap.clear m 0x110000 0x11FFFF }
  (s1.nand.regs.foldl (fun t e =>
    if e.1 / 0x10000 = 0x4 ∨ e.1 / 0x10000 = 0x11 then
      match findReg e.1 with
      | some (r, _, _) => t.wr e.1 (r.write (t.rd e.1) e.2)
      | none => t
    else t) s1).restoreBnd

/-- The images that were ACTIVE are LOADED, and none has its beads in place. -/
def appImages (s : State) : State :=
  let out (x : Image) : Image := { x with placed := [], unloading := false, edges := 0 }
  let s1 : State := { s with images := (s.images.filter (fun (e : Nat × Image) => decide (e.1 < 64))).map (fun (e : Nat × Image) => (e.1, out e.2)) }
  (s1.imagesIn 5).foldl (fun t i => t.setFld R.LTAB_IMG_STATE 3 i) s1

/-- Step 5: the application domain is reset. -/
def appReset (s : State) : State :=
  let s1 := s.hostClose.updGarnet.appImages
  let s2 := s1.appRegs.clearApp
  let s3 : State := { s2 with host := {}, seg := { s2.seg with arb := {}, heads := none, levels := [], posts := [] } }
  let s4 := ((((s3.clearReady 8).clearReady 9).clearReady 10).clearReady 16).setBit R.LTAB_STAT_RESTORED false
  let s5 : State := { s4 with flt := { s4.flt with cur := none, queue := [], step := 5 } }
  let s6 : State := { s5 with fr := { s5.fr with phase := if s5.pwr.paused then .stopped else .emit } }
  s6.fltSync.photoSync

/-- What the module keeps of the lanterns once F is rebuilt: what stands in class M starts at 0 and comes back from reports
(05 R143), CMD_LEVEL with it. -/
def rebuiltLeaves (s : State) : State :=
  let one (l : Nat) (g : Leafing) : Leafing :=
    if 16384 ≤ l then g
    else { g with sent := 0, olds := [], flaps := [], settleNs := 0, mism := 0, codes := [], cleared := [], lastCode := 0, detects := 0
                  stale := false, reportNs := none, mains := false, badNs := none, energy := none, sinceNs := s.nowNs }
  let leaves := s.seg.leaves.foldl (fun (m : SMap Leafing) (e : Nat × Leafing) => SMap.set {} m e.1 (one e.1 e.2)) s.seg.leaves
  ({ s with seg := { s.seg with leaves := leaves, cmdNotes := [], reports := [] } } : State).countFaults

/-- F and the reckoner as at bring-up. -/
def garnetStores (s : State) : State :=
  let s1 := s.restoreF.rebuiltLeaves.tablesReady
  let s2 : State := { s1 with flow := s1.restoredFlow, flt := { s1.flt with step := 6, reverify := true } }
  if s2.updState = 5 then s2.rollbackEnd else s2

/-- Step 6: F is rebuilt, once; without HOLD the images are verified again and the ROD bit sets. The end of HOLD resumes it. -/
def garnetRebuild (s : State) : State :=
  let s3 := if s.flt.step = 6 then s else s.garnetStores
  if s3.bit R.ROD_FLT_STAT_HOLD then s3 else (s3.verifyAgain.setReady 8).photoSync

/-! ### Steps of module time (10 R276) -/

/-- A module time moved by a step. -/
def moved (a : Int) (t : Nat) : Nat := ((t : Int) + a).toNat

def DrvRebase (a : Int) (d : Drv) : Drv :=
  let mv (o : Option Nat) : Option Nat := o.map (moved a)
  let chan (x : DrvChan) : DrvChan := { x with startNs := moved a x.startNs, countNs := moved a x.countNs, passNs := mv x.passNs, nextNs := mv x.nextNs }
  let feed (x : DrvFeeder) : DrvFeeder := { x with changeNs := mv x.changeNs }
  let grp (x : PwmGrp) : PwmGrp := { x with origin := moved a x.origin, fromNs := moved a x.fromNs }
  { d with
    pwm := d.pwm.foldl (fun (m : SMap PwmGrp) (e : Nat × PwmGrp) => SMap.set {} m e.1 (grp e.2)) d.pwm
    chans := d.chans.foldl (fun (m : SMap DrvChan) (e : Nat × DrvChan) => SMap.set {} m e.1 (chan e.2)) d.chans
    feeders := d.feeders.foldl (fun (m : SMap DrvFeeder) (e : Nat × DrvFeeder) => SMap.set {} m e.1 (feed e.2)) d.feeders
    closeNs := mv d.closeNs, rampNs := moved a d.rampNs, retries := d.retries.map (moved a), coolNs := mv d.coolNs }

def LceRebase (a : Int) (c : Lce) : Lce :=
  let times (m : SMap Nat) : SMap Nat := m.foldl (fun (t : SMap Nat) (e : Nat × Nat) => SMap.set 0 t e.1 (moved a e.2)) []
  { c with pulseNs := times c.pulseNs, nextNs := times c.nextNs }

def RadRebase (a : Int) (r : Rad) : Rad :=
  let spans (m : SMap (List (Nat × Nat))) : SMap (List (Nat × Nat)) :=
    m.foldl (fun (t : SMap (List (Nat × Nat))) (e : Nat × List (Nat × Nat)) =>
      SMap.set [] t e.1 (e.2.map (fun p => (moved a p.1, moved a p.2)))) m
  { r with
    acks := r.acks.map (fun x => { x with endNs := moved a x.endNs })
    stored := r.stored.map (fun x => { x with arrNs := moved a x.arrNs })
    inAir := r.inAir.map (fun x => { x with sfdNs := moved a x.sfdNs })
    txSpans := spans r.txSpans, deafSpans := spans r.deafSpans, pa := spans r.pa }

def LinksRebase (a : Int) (l : Links) : Links :=
  let c (x : Conn) : Conn := { x with
    supNs := x.supNs.map (moved a), heardNs := moved a x.heardNs, openNs := moved a x.openNs, evNs := moved a x.evNs }
  let p (x : PeerEntry) : PeerEntry := { x with ns := moved a x.ns }
  { l with
    conns := l.conns.foldl (fun (m : SMap Conn) (e : Nat × Conn) => SMap.set {} m e.1 (c e.2)) l.conns
    peers := l.peers.foldl (fun (m : SMap (List PeerEntry)) (e : Nat × List PeerEntry) => SMap.set [] m e.1 (e.2.map p)) l.peers
    xpeers := l.xpeers.map (fun e => (e.1, e.2.map p))
    notes := l.notes.map (fun x => { x with ns := moved a x.ns })
    flight := l.flight.map (fun g => { g with limitNs := moved a g.limitNs })
    advNs := l.advNs.map (moved a)
    dst := l.dst.foldl (fun (m : SMap Nat) (e : Nat × Nat) => SMap.set 0 m e.1 (moved a e.2)) l.dst }

def SegRebase (a : Int) (g : Seg) : Seg :=
  let cmd (c : SegCmd) : SegCmd := { c with sentNs := moved a c.sentNs, firstNs := moved a c.firstNs }
  let one (x : Leafing) : Leafing := { x with
    olds := x.olds.map (fun e => (e.1, moved a e.2)), settleNs := moved a x.settleNs
    codes := x.codes.map (fun e => (e.1, moved a e.2)), cleared := x.cleared.map (fun e => (e.1, moved a e.2))
    reportNs := x.reportNs.map (moved a), sinceNs := moved a x.sinceNs, badNs := x.badNs.map (moved a), cmds := x.cmds.map cmd }
  { g with
    leaves := g.leaves.foldl (fun (m : SMap Leafing) (e : Nat × Leafing) => SMap.set {} m e.1 (one e.2)) g.leaves
    aggNs := moved a g.aggNs
    camp := { g.camp with actNs := moved a g.camp.actNs } }

def IcuRebase (a : Int) (i : Icu) : Icu :=
  { i with targets := i.targets.foldl (fun (m : SMap IcuTarget) (e : Nat × IcuTarget) =>
      SMap.set {} m e.1 { e.2 with timerNs := moved a e.2.timerNs }) i.targets }

def HostRebase (a : Int) (h : HostUnit) : HostUnit :=
  let one (x : Session) : Session := { x with
    heardNs := moved a x.heardNs, endNs := moved a x.endNs, txn := x.txn.map (fun t => { t with lastNs := moved a t.lastNs }) }
  let peer (p : HostPeer) : HostPeer := 
    { heardNs := moved a p.heardNs, tryNs := moved a p.tryNs, aliveNs := moved a p.aliveNs }
  { h with
    sessions := h.sessions.foldl (fun (m : SMap Session) (e : Nat × Session) => SMap.set {} m e.1 (one e.2)) h.sessions
    conns := h.conns.map (fun c => { c with atNs := moved a c.atNs })
    peers := h.peers.foldl (fun (m : SMap HostPeer) (e : Nat × HostPeer) => SMap.set {} m e.1 (peer e.2)) h.peers
    headNs := moved a h.headNs }

def FpRebase (a : Int) (f : Fp) : Fp :=
  let mv (o : Option Nat) : Option Nat := o.map (moved a)
  { f with lampEnd := mv f.lampEnd, refreshNs := moved a f.refreshNs, entry := mv f.entry, wrongNs := f.wrongNs.map (moved a), lockNs := mv f.lockNs }

def KeyRebase (a : Int) (k : Key) : Key :=
  { k with slots := k.slots.foldl (fun (m : SMap KeySlot) (e : Nat × KeySlot) =>
      SMap.set {} m e.1 { e.2 with dueNs := e.2.dueNs.map (moved a) }) k.slots }

/-- Intervals that run go on unchanged by a step of `a` ns (log entry 60). -/
def rebase (s : State) (a : Int) : State :=
  let s0 : State := { s with beads := s.beads.foldl (fun (m : SMap Bead) (e : Nat × Bead) =>
    SMap.set {} m e.1 { e.2 with stepped := true }) s.beads }
  let s1 : State := { s0 with drv := DrvRebase a s0.drv, lce := LceRebase a s0.lce, rad := RadRebase a s0.rad }
  let s2 : State := { s1 with links := LinksRebase a s1.links, seg := SegRebase a s1.seg }
  let s3 : State := { s2 with icu := IcuRebase a s2.icu, host := HostRebase a s2.host }
  let s4 : State := { s3 with fp := FpRebase a s3.fp, key := KeyRebase a s3.key }
  let s5 : State := { s4 with wch := { s4.wch with schedNs := s4.wch.schedNs.map (moved a), nextNs := moved a s4.wch.nextNs } }
  let s6 : State := { s5 with rtc := { s5.rtc with
    tickNs := moved a s5.rtc.tickNs, hourNs := s5.rtc.hourNs.map (moved a), steerEnd := moved a s5.rtc.steerEnd, steerFrom := moved a s5.rtc.steerFrom
    checkNs := moved a s5.rtc.checkNs } }
  let s7 : State := { s6 with flt := { s6.flt with sinceNs := moved a s6.flt.sinceNs } }
  let s8 : State := { s7 with upd := { s7.upd with pauseNs := moved a s7.upd.pauseNs } }
  let s9 : State := { s8 with met := { s8.met with heardNs := moved a s8.met.heardNs, identNs := s8.met.identNs.map (moved a) } }
  let heard (x : Foreign) : Foreign := { x with lastNs := moved a x.lastNs, prevNs := x.prevNs.map (moved a) }
  let port (x : NtuPort) : NtuPort := { x with annNs := moved a x.annNs, foreign := x.foreign.map heard }
  { s9 with ntu := { s9.ntu with
    ports := s9.ntu.ports.foldl (fun (m : SMap NtuPort) (e : Nat × NtuPort) => SMap.set {} m e.1 (port e.2)) s9.ntu.ports } }

/-- Entries of queue x that are more than LATE_LIMIT past due are dropped with LATE, their items going back (08 R237). -/
def dropLate (s : State) (x : Nat) : State :=
  let lim := s.fld R.RAD_TLQ_CFG_LATE_LIMIT x * 1000
  let late (e : TlqEntry) : Bool := decide (e.due + lim < s.nowNs)
  let n := ((s.tlqOf x).filter late).length
  if n = 0 then s
  else
    let s1 := ((s.tlqOf x).filter late).reverse.foldl (fun t e => t.returnItem e.item true)
      (s.setTlq x ((s.tlqOf x).filter (fun e => !late e)))
    (s1.setBit (if x = 0 then R.RAD_EVT_LATE_A else R.RAD_EVT_LATE_B) true).addSat R.RAD_TLQ_CNT_LATE n x

/-- The amount of the step that is due: at first lock the network clock less module time at the tick edge. -/
def stepDue (s : State) : Option Int :=
  match s.ntu.step with
  | none => none
  | some a => if s.ntuState = 0 then some (s.netNow.getD a) else some a

/-- The step is applied at the tick edge, before SNAP: the frame's edge moves with it, and the next edge is counted from there. -/
def timeStep (s : State) : State :=
  match s.stepDue with
  | none => s
  | some a =>
    let first := decide (s.ntuState = 0)
    let before : Int := (s.nowNs : Int) - s.utcOffset * 1000000000
    let s1 : State := { s with fr := { s.fr with edgeNs := moved a s.fr.edgeNs } }
    let s2 := s1.rebase a
    let s3 : State := { s2 with ntu := { s2.ntu with step := none, stepped := true, net := none } }
    let s4 := (s3.setFldI R.NTU_STEP_US (clampI (Int.fdiv a 1000) (-(2 ^ 31)) (2 ^ 31 - 1))).setBit R.NTU_EVT_STEP true
    let s5 := if first then s4.setNtuState 2 else s4
    let s6 := s5.epochStep 1 before ((s5.nowNs : Int) - s5.utcOffset * 1000000000)
    if 0 < a then (s6.dropLate 0).dropLate 1 else s6

end State

/-! ### Commands -/

/-- At the tick edge that ends the frame, after EMIT and before SNAP (10 R276); without frames there is none. -/
def execTimeStep (us : Fin 20000) (s : State) : Out :=
  .next (if s.poweredOn ∧ s.fr.phase = .emit then (s.atUs (max us (s.tickLen / 1000))).timeStep else s)

/-- The GARNET log flush has ended. -/
def execAppDomainReset (us : Fin 20000) (s : State) : Out :=
  .next (if s.poweredOn ∧ s.flt.step = 1 then
      let t := (s.atUs us).evrFlush
      let t1 := if !t.garnetMem ∧ t.bit R.LTAB_STAT_RESTORED then t.saveAll true else t
      t1.appReset
    else s)

def execGarnetRebuild (us : Fin 20000) (s : State) : Out :=
  .next (if s.poweredOn ∧ (s.flt.step = 5 ∨ (s.flt.step = 6 ∧ !s.ready 8)) then (s.atUs us).garnetRebuild else s)

end Sys2Proof.Machine
end

