-- ==== Sys2Proof/Machine/FrameOps.lean ====
section
/-! DEFINITION. The frame edge (01_architecture.md R13, R14): the power state, SNAP, image switches, and the selection of beads
(02_frame_engine.md R34, R53, R54); the start of EXEC; the frame port. -/

namespace Sys2Proof.Machine

namespace State

/-! ### The power state at a frame edge (14 R349 to R351, 08 R238) -/

/-- AGATE requests are held (R350). -/
def agateHeld (s : State) : Bool := s.bit R.ROD_FLT_STAT_GARNET || s.pwr.paused

/-- AGATE takes effect. -/
def agateIn (s : State) : State :=
  (((s.setBit R.PWR_STAT_STATE true).setBit R.PWR_EVT_AGATE_IN true).trxStop 1).agateWindow

/-- The request in force is evaluated. -/
def powerEdge (s : State) : State :=
  let want := s.bit R.PWR_REQ_AGATE
  let held := want && s.agateHeld
  let s1 := ({ s with pwr := { s.pwr with quartzNow := false } } : State).setBit R.PWR_STAT_HOLD held
  if s1.bit R.PWR_STAT_STATE then
    (if want ∧ !s1.bit R.ROD_FLT_STAT_GARNET then s1 else s1.agateOut)
  else if want ∧ !held then s1.agateIn
  else s1

/-- PWR_DR.PCT returns to 100 at the frame in PWR_DR_UNTIL, or where a step of time passes over it (07 R201). -/
def drEdge (s : State) : State :=
  let u := s.fld R.PWR_DR_UNTIL_FRAME
  let n := s.fr.number % 2 ^ 32
  if u ≠ 2 ^ 32 - 1 ∧ (n = u ∨ (s.ntu.stepped ∧ (n + 2 ^ 32 - u) % 2 ^ 32 < 2 ^ 31)) then s.setFld R.PWR_DR_PCT 100 else s

/-! ### Table checks at SNAP (05 R145, R150, R152) -/

/-- Group map entries that hold an illegal value: unlisted bytes are legal, so only a listed high byte can make one. -/
def badEntries (f : SMap Byte) : Nat :=
  (f.filter (fun e => decide (0x200000 ≤ e.1 ∧ e.1 < 0x208000 ∧ e.1 % 2 = 1 ∧ 4 ≤ e.2.toNat ∧
    memNat fDflt f (e.1 - 1) 2 ≠ 0xFFFF))).length

/-- The checks of the segment tables, once these hold what NAND held. -/
def tableCheck (s : State) : State :=
  if !s.bit R.LTAB_STAT_RESTORED then s
  else
    let s1 := ((s.setBit R.LTAB_STAT_HOL_VALID (holValid s.fmem)).setBit R.LTAB_STAT_TZ_VALID (zoneValid s.fmem)).setBit
      R.LTAB_STAT_SITE_VALID (siteValid s.fmem)
    (s1.setFld R.LTAB_STAT_BADMAP (min 4095 (badEntries s.fmem))).countComm

/-- What is to be saved differs from what it was (05 R143). -/
def noteUnsaved (old : SMap Byte) (s : State) : State :=
  if s.fmem.filter (fun e => savedByte e.1) = old.filter (fun e => savedByte e.1) then s
  else s.setBit R.LTAB_STAT_UNSAVED true

/-! ### Parity of module-owned state (02 R60) -/

/-- A record that cannot be read is taken as cleared: class M as at bring-up, classes C and P as NAND holds them. -/
def recordCleared (s : State) (lid : Nat) : State :=
  let back (m : SMap Byte) : SMap Byte := (List.range 64).foldl (fun m i =>
    SMap.set (fDflt (128 * lid + i)) m (128 * lid + i) (SMap.find (fDflt (128 * lid + i)) s.nand.f (128 * lid + i))) m
  ({ s with fmem := back s.fmem, ftwin := back s.ftwin } : State).clearClassM lid

/-- The size of the record of a segment table that holds the byte address `a` (05 R144): a row of the group map, a group's attributes, a
holiday, a header, an era, the site. Each begins at a multiple of its size. -/
def tableRecord (a : Nat) : Nat :=
  if a < 0x208000 then 128
  else if a < 0x20A000 then 8
  else if 0x20A010 ≤ a ∧ a < 0x20B000 then 4
  else 16

/-- The word of F at the byte address `a` that the module's units cannot read is taken as cleared with its record: a lantern record, a
record of the segment tables as NAND holds it, a word of the snapshot as 0 (log entry 33). -/
def wordCleared (s : State) (a : Nat) : State :=
  let w := a - a % 4
  if a < 0x200000 then s.recordCleared (a / 128)
  else if a < 0x280000 then
    let n := tableRecord a
    (List.range (n / 4)).foldl (fun t k => let b := a - a % n + 4 * k; t.putF b 4 (memNat fDflt t.nand.f b 4)) s
  else if a < 0x300000 then s.putF w 4 0
  else s

/-- A street cell that cannot be read is cleared (06 R170). -/
def cellCleared (s : State) (k : Nat) : State :=
  { s with flow := { s.flow with cells := SMap.set {} s.flow.cells k (clearCell (linkVfree s.flow.links (k / 64))) } }

/-- Reads that were replayed are counted; what stays unresolved is cleared, and MEM is raised once for all of it. -/
def moduleParity (clear : State → Nat → State) (replays : Nat) (lost : List Nat) (s : State) : State :=
  let s1 := lost.foldl clear (s.addSat R.ROD_PARITY_ACCESS replays)
  if lost.isEmpty then s1 else s1.fltRaise clsMem lost.length lost

/-! ### SNAP (01 R14) -/

/-- Inputs that arrived before this module time enter the snapshot; after a step every waiting one does (10 R276). -/
def snapEdge (s : State) : Nat := if s.ntu.stepped then s.fr.edgeNs + 2 ^ 70 else s.fr.edgeNs

/-- The registers that hold local inputs: FP's inputs and raw inputs, the analogue inputs and the pulse inputs. -/
def inputRegs : List Nat :=
  [0xF0000, 0xF0004] ++ (List.range 4).map (fun i => 0x90104 + 16 * i) ++ (List.range 2).map (fun i => 0x90304 + 16 * i) ++
    (List.range 2).map (fun i => 0x90308 + 16 * i)

/-- The local inputs are copied into the snapshot (01 R13). -/
def inputsSnap (s : State) : State :=
  { s with fr := { s.fr with inputs := inputRegs.foldl (fun m a => SMap.set 0 m a (s.rd a)) [] } }

/-- SNAP of the frame that begins. -/
def snap (s : State) (replays : Nat) (lost : List Nat) : State :=
  let edge := s.snapEdge
  let s1 := ((moduleParity wordCleared replays lost s).linkSnap edge).segSnap edge
  let s2 := ((((s1.metSnap edge).flowSnap edge).flowAges).radSnap edge).inputsSnap
  let s3 := noteUnsaved s.fmem s2.tableCheck
  let s4 : State := { s3 with ntu := { s3.ntu with stepped := false } }
  let s5 : State := { s4 with bar := { s4.bar with image := some s4.fmem } }
  { s5 with flow := { s5.flow with snapReady := s5.ready 9 } }

/-! ### What counts by frames -/

/-- ROD_USED shows the frame that has ended; a reset rod comes nearer to its selection (21 R457). -/
def rodEdge (s : State) (r : Nat) : State :=
  let x := s.rod r
  let s1 := (s.setFld R.ROD_USED_CYCLES (min x.used (2 ^ 23 - 1)) r).setRod r { x with used := 0, resetIn := x.resetIn - 1 }
  if x.resetIn = 1 then s1.setBit R.ROD_WDG_RESETTING false r else s1

/-- The claims of a frame start at 0 (04 R123). -/
def takesEdge (s : State) : State :=
  (List.range 256).foldl (fun t n => if t.fld R.ICU_SRC_STAT_TAKES n = 0 then t else t.setFld R.ICU_SRC_STAT_TAKES 0 n) s

/-- Activations and bead replays of a frame start at 0. -/
def beadEdge (s : State) (n : Nat) : State := s.setBead n { s.bead n with acts := 0, replayed := false }

/-! ### Allowance (02 R53) -/

/-- The derating in Q8.8 percent, for a junction temperature in Q8.8 °C. -/
def derateQ8 (tj : Int) : Nat :=
  let t := (clampI (tj - 100 * 256) 0 (18 * 256)).toNat
  90 * 256 - t * 50 / 18

/-- The limit in force in Q8.8 percent. -/
def limitQ8 (s : State) (tj : Int) : Nat := min (s.fr.limitPct * 256) (derateQ8 tj)

/-- The allowance E in cycles. -/
def allowance (s : State) (tj : Int) : Nat := 7800000 * s.limitQ8 tj / 25600

/-! ### Selection (02 R54 to R56) -/

/-- The valid beads of a class on rod r, as slots. -/
def slotsOf (s : State) (r cls : Nat) : List Nat :=
  (List.range 64).filter (fun q => s.beadValid (64 * r + q) && decide (s.beadClass (64 * r + q) = cls))

/-- Those that wait for a frame. -/
def waitingOf (s : State) (r cls : Nat) : List Nat := (s.slotsOf r cls).filter (fun q => decide (s.beadState (64 * r + q) = stWaitFrame))

/-- Slots in ascending order of a key, then of slot. -/
def byKey (key : Nat → Nat) (qs : List Nat) : List Nat := (sortNat (qs.map (fun q => 64 * key q + q))).map (fun k => k % 64)

/-- The FRAME bead in slot q of rod r has a pass due in this frame (R31). -/
def fallsDue (s : State) (r q : Nat) : Bool :=
  let b := s.bead (64 * r + q)
  decide (b.period ≠ 0 ∧ s.fr.number % b.period = b.phase)

/-- Passes that fall due, beside those still due. -/
def markDue (s : State) (r : Nat) : State :=
  ((s.waitingOf r 0).filter (fun q => s.fallsDue r q)).foldl (fun t q =>
    t.setBead (64 * r + q) { t.bead (64 * r + q) with due := true }) s

/-- The due FRAME beads of rod r in their order. -/
def dueBeads (s : State) (r : Nat) : List Nat :=
  byKey (fun q => (s.bead (64 * r + q)).order) ((s.waitingOf r 0).filter (fun q => (s.bead (64 * r + q)).due))

/-- The waiting ONESHOT beads of rod r in the order of their STARTs. -/
def oneshots (s : State) (r : Nat) : List Nat := byKey (fun q => (s.bead (64 * r + q)).startSeq) (s.waitingOf r 2)

/-- The event reserve of rod r: budget times A over its EVENT beads. -/
def reserve (s : State) (r : Nat) : Nat :=
  ((s.slotsOf r 1).map (fun q => s.fld R.ROD_BEAD_BUDGET_BUDGET (64 * r + q) * (s.bead (64 * r + q)).act)).sum

/-- The beads at the head of a list while each budget fits, and what is left. -/
def takeFit (s : State) (r : Nat) : List Nat → Nat → List Nat × Nat
  | [], left => ([], left)
  | q :: qs, left =>
    let b := s.fld R.ROD_BEAD_BUDGET_BUDGET (64 * r + q)
    if b ≤ left then
      let (xs, l) := takeFit s r qs (left - b)
      (q :: xs, l)
    else ([], left)

/-- A selected bead is READY: its pass begins. -/
def makeReady (s : State) (n : Nat) : State :=
  let s1 := (s.begin n s.fr.edgeNs).setBeadState n stReady
  s1.setBead n { s1.bead n with due := false }

/-- The selection of a clocked rod within E. -/
def selectWithin (s0 : State) (e r : Nat) : State :=
  let s := s0.markDue r
  let rsv := min e (s.reserve r)
  let due := s.dueBeads r
  let fs := if (s.rod r).resetIn = 0 then s.takeFit r due (e - rsv) else ([], e - rsv)
  let os := if fs.1.length = due.length ∧ (s.rod r).resetIn = 0 then s.takeFit r (s.oneshots r) fs.2 else ([], fs.2)
  let s1 := s.addSat R.ROD_DEFER_COUNT (due.length - fs.1.length) r
  let s2 := (fs.1 ++ os.1).foldl (fun t q => t.makeReady (64 * r + q)) s1
  (s2.setFld R.ROD_EVRES_CYCLES rsv r).setRod r { s2.rod r with select := fs.1 ++ os.1, remain := os.2 + rsv }

/-- The selection of rod r. -/
def selectRod (e : Nat) (s0 : State) (r : Nat) : State :=
  let s := s0.setFld R.ROD_ALLOW_CYCLES e r
  if s.rodClocked r then s.selectWithin e r else s.setRod r { s.rod r with select := [], remain := 0 }

/-- The selection of every rod, for a junction temperature in Q8.8 °C. -/
def selectAll (s : State) (tj : Int) : State :=
  let s1 := (s.setFld R.ROD_DERATE_LIMIT_Q8 (s.limitQ8 tj)).setFldI R.ROD_DERATE_TJ tj
  (List.range s.part.rods).foldl (selectRod (s.allowance tj)) s1

/-! ### GARNET ends (21 R454) -/

/-- The last image is back: GARNET clears. -/
def garnetClear (s : State) : State :=
  if s.bit R.ROD_FLT_STAT_GARNET ∧ s.flt.step = 6 ∧ s.ready 8 ∧ !s.flt.reverify ∧ s.flt.images = [] then
    ({ s with flt := { s.flt with step := 0 } } : State).setBit R.ROD_FLT_STAT_GARNET false
  else s

/-! ### The whole edge -/

/-- No frames run: GARNET has stopped the rods (R453), or an update's control pause lasts (18 R412). -/
def halted (s : State) : Bool := s.pwr.paused || decide (1 ≤ s.flt.step ∧ s.flt.step ≤ 5)

/-- What happens at every tick edge: the number, the power state, and the units that do not need frames. -/
def edgeUnits (s : State) (x : Sense) : State :=
  let s1 := s.timeStep.tickEdge.takesEdge.powerEdge.drEdge
  ((((s1.keyEdge).rtcEdge).drvEdge x).lceEdge x.ain).updEdge

/-- Images and the beads' requests. -/
def edgeBeads (s : State) : State :=
  let s1 : State := { s with fr := { s.fr with limitPct := s.fld R.ROD_ADMIT_LIMIT_LIMIT, compat := s.bit R.ROD_PORT_COMPAT } }
  let s2 := if s1.ready 8 then s1.imageEdge.imageAgain else s1
  let s3 := s2.garnetClear
  s3.beads.foldl (fun t e => t.beadRequests e.1) s3

/-- A frame begins. -/
def frameBegin (s : State) (x : Sense) (replays : Nat) (lost : List Nat) : State :=
  let s1 := s.edgeBeads
  let old := s1.fmem
  let s2 := s1.snap replays lost
  let s3 := (List.range 16).foldl rodEdge s2
  let s4 := (s3.beads.foldl (fun t e => t.beadEdge e.1) s3).selectAll x.junction
  let s5 : State := { s4 with bar := { s4.bar with old := some old } }
  let s6 := s5.beads.foldl (fun t e => t.syncNext e.1) s5
  { s6 with fr := { s6.fr with phase := .snap } }

/-- The tick edge, with what is sensed at it. -/
def frameEdge (s : State) (x : Sense) (replays : Nat) (lost : List Nat) : State :=
  let s1 := s.edgeUnits x
  let s2 := if s1.pwr.paused then s1
    else if s1.halted then ({ s1 with fr := { s1.fr with phase := .emit } } : State)
    else s1.frameBegin x replays lost
  s2.photoSync

/-! ### EXEC (R13) -/

/-- SNAP ends and the rods start issuing. -/
def execStart (s : State) : State :=
  let s1 : State := { s with bar := { s.bar with old := none } }
  let s2 : State := { s1 with fr := { s1.fr with phase := .exec } }
  (List.range 16).foldl kick s2

/-! ### The frame port (R29, R30, R61 to R65) -/

/-- The accesses that wait: the beads parked on each rod. -/
def portLeaves (s : State) : List Leaf :=
  (List.range 16).flatMap (fun r => ((s.rod r).waiting.filter (fun w => !w.2)).map (fun w =>
    ⟨[r, w.1], 1, ((s.bead (64 * r + w.1)).parked.map (fun p => p.1)).getD 1⟩))

/-- The handler in service has its access: it issues ahead of the bead that issued in the meantime, which is set aside. -/
def handlerBack (s : State) (r slot : Nat) : State := (s.setAside r).resume r slot

/-- The access of the bead in slot `slot` of rod r completes. -/
def accessDone (s : State) (r slot : Nat) : State :=
  let x := s.rod r
  let s1 := ((s.setRod r { x with waiting := x.waiting.map (fun w => if w.1 = slot then (slot, true) else w) }).syncParked r).dropPortCredit r slot
  let s2 := s1.letPark r
  if !s2.rodRuns r then s2
  else if (s2.rod r).handler = some slot ∧ !s2.stacked r slot ∧ s2.curSlot r ≠ some slot then s2.handlerBack r slot
  else s2.kick r

/-- The port serves the access that the arbiter grants next. -/
def portServe (s : State) : State :=
  match serveOne s.fr.compat s.port s.portLeaves with
  | (a, some l) => ({ s with port := a } : State).accessDone (l.path.headD 0) ((l.path.drop 1).headD 0)
  | (a, none) => { s with port := a }

end State

/-! ### Commands -/

/-- `x`: what is sensed at the edge; `replays`: reads of module-owned words that were replayed for parity; `lost`: the byte
addresses in F of the words of lantern records, segment tables and snapshot that could not be read (R60). -/
def execFrameEdge (x : Sense) (replays : Nat) (lost : List Nat) (s : State) : Out :=
  .next (if s.poweredOn ∧ (s.fr.phase = .emit ∨ (s.halted ∧ s.fr.phase ≠ .bar)) then s.frameEdge x replays lost else s)

def execExecStart (s : State) : Out := .next (if s.fr.phase = .snap ∧ !s.halted then (s.atUs 400).execStart else s)

def execPortAccessComplete (us : Fin 20000) (s : State) : Out := .next (if s.framesRun then (s.atUs us).portServe else s)

/-- FLOW_UPDATE (06 R169): at 16.6 ms; nothing while RUN is 0 or when FLOW is not ready; while an update is running its inputs wait (R170). `replays`,
`lost`: as in FRAME_EDGE, for cells (cell c of link l as 64·l + c). -/
def execFlowUpdate (replays : Nat) (lost : List Nat) (s : State) : Out :=
  let t := s.atUs 16600
  .next (if !s.ready 9 ∨ !s.framesRun ∨ s.halted then s
    else if !s.bit R.FLOW_CTRL_RUN then { t with flow := { t.flow with snapDets := [] } }
    else if s.flow.busy then { t with flow := { t.flow with missed := true } }
    else (State.moduleParity State.cellCleared replays lost t).flowUpdate)

end Sys2Proof.Machine
end

