-- ==== Sys2Proof/Machine/Bar.lean ====
section
/-! DEFINITION. The bar and EMIT (02_frame_engine.md R34, R41 to R46, R57; 05_programs_and_lantern_table.md R141; 07 R178;
01_architecture.md R16), budget aborts (R50), and parity of bead reads (R58, R59). -/

namespace Sys2Proof.Machine

/-! ### The commissioning rules (07 R178) -/

/-- Records whose class C a list of F writes touches. -/
def touchedRecords (fw : List (Nat × Word)) : List Nat :=
  sortNat ((fw.filter (fun e => decide (e.1 < 0x200000 ∧ e.1 % 128 < 0x20))).map (fun e => e.1 / 128))

/-- Record `lid` of the image `f1` meets the rules, `f0` being the image before: LAP and GEN are the module's. -/
def recordOk (f0 f1 : SMap Byte) (lid : Nat) : Bool :=
  let short := recNat f1 lid 0x0C 2
  decide (recNat f1 lid 2 1 = recNat f0 lid 2 1 ∧ recNat f1 lid 0 2 / 2 ^ 15 = recNat f0 lid 0 2 / 2 ^ 15 ∧
    recNat f1 lid 3 1 ≤ 6 ∧ (short = lid ∨ (short = 0 ∧ !recComm f1 lid)))

/-- LAP of a commissioned record is 2 or 3: where no join has fixed it yet, the module writes 3 (07 R178, log entry 39). -/
def lapFixed (f : SMap Byte) (lid : Nat) : SMap Byte :=
  if recComm f lid ∧ recNat f lid 2 1 ≠ 2 ∧ recNat f lid 2 1 ≠ 3 then memPut State.fDflt f (128 * lid + 2) 1 3 else f

/-- No two commissioned records share an EUI-64. -/
def euisOk (f : SMap Byte) (lanterns : Nat) : Bool :=
  let es := (commissioned f lanterns).map (fun l => recNat f l 4 8)
  decide (es.eraseDups.length = es.length)

/-- A list of F writes may commit. -/
def writesOk (f0 f1 : SMap Byte) (lanterns : Nat) (fw : List (Nat × Word)) : Bool :=
  let ls := touchedRecords fw
  ls.isEmpty || (ls.all (recordOk f0 f1) && euisOk f1 lanterns)

/-- The logs in bar order: ascending bead, then the order in which its activations ended (R41). -/
def barOrder (q : List QLog) : List QLog :=
  (sortNat (q.map (fun x => x.bead))).flatMap (fun n => q.filter (fun x => decide (x.bead = n)))

/-- Who has written each word: bead + 1, or 2,048 once two beads have. -/
def writers (ls : List QLog) : SMap Nat :=
  ls.foldl (fun m q => q.wlog.foldl (fun m e =>
    let w := SMap.find 0 m e.1
    SMap.set 0 m e.1 (if w = 0 ∨ w = q.bead + 1 then q.bead + 1 else 2048)) m) []

/-- Words written by more than one bead. -/
def conflicts (ls : List QLog) : Nat := ((writers ls).filter (fun e => decide (e.2 = 2048))).length

namespace State

/-! ### The end of EXEC (R34, R46, R57) -/

/-- Valid beads whose STATE is `st`, of the classes `cs`. -/
def beadsIn (s : State) (st : Nat) (cs : List Nat) : List Nat :=
  (s.beads.map (fun e => e.1)).filter (fun n => s.beadValid n && decide (s.beadState n = st) && cs.contains (s.beadClass n))

/-- A READY bead has issued nothing: its pass stays due. -/
def deferReady (s : State) (n : Nat) : State :=
  let r := n / 64
  let s1 := (s.setBeadState n stWaitFrame).addSat R.ROD_DEFER_COUNT 1 r
  let s2 := (s1.setBead n { s1.bead n with due := decide (s.beadClass n = 0) }).syncNext n
  s2.setRod r { s2.rod r with select := [] }

/-- An unfinished FRAME or ONESHOT bead is aborted. -/
def abortBead (s : State) (n : Nat) : State := s.beadFault n .budget (s.bead n).pc 0

/-- A running event activation has spanned the bar. -/
def markSpan (s : State) (n : Nat) : State :=
  (s.setBead n { s.bead n with spanned := true }).setBit R.ROD_BEAD_STATE_SPAN true n

/-- What the opening does to the beads; the aborts form one BUDGET fault. -/
def barBeads (s : State) : State :=
  let s1 := (s.beadsIn stReady [0, 2]).foldl deferReady s
  let late := s1.beadsIn stRunning [0, 2]
  let s2 := (s1.beadsIn stRunning [1]).foldl markSpan s1
  let s3 := late.foldl abortBead s2
  if late.isEmpty then s3 else s3.fltRaise clsBudget late.length late

/-! ### Committing bead logs (R41 to R44) -/

/-- Logs that failed parity go as a whole; their beads fault, and MEM is raised once. -/
def dropBadLogs (s : State) (q : List QLog) (bad : List Nat) : State :=
  let ns := (sortNat (q.map (fun x => x.bead))).filter (fun n => bad.contains n)
  let s1 := ns.foldl (fun t n => if t.beadValid n then t.beadFault n .integrity (t.bead n).pc 0 else t) s
  if ns.isEmpty then s1 else s1.fltRaise clsMem ns.length ns

/-- A word of F as it is kept: the reserved bytes of class C (05 R139) and of a group's attributes (05 R146) stay 0 (00 R9). -/
def keptWord (a : Nat) (v : Word) : Word :=
  if a < 0x200000 then (if a % 128 = 0x0C ∨ a % 128 = 0x18 then v &&& 0xFFFFFF else v)
  else if 0x208000 ≤ a ∧ a < 0x20A000 then (if a % 8 = 0 then v &&& 0xFFFF else 0)
  else v

/-- The words of a log go to F and its twin. -/
def commitWords (s : State) (ws : List (Nat × Word)) : State := ws.foldl (fun t e => t.putF e.1 4 (keptWord e.1 e.2).toNat) s

/-- A PORTWR is performed, or discarded and counted in the OPS log (03 R81). -/
def performPort (s : State) (n a : Nat) (v : Word) : State :=
  let refuse (t : State) (st : Status) : State := t.report 0 0x03 .portwrDiscarded [n, a] [st.code]
  match s.writeStatus (.bead n) a v with
  | .ok => match s.performWrite (.bead n) a v with
    | (.ok, t) => t
    | (st, t) => refuse t st
  | st => refuse s st

/-- The PORTWRs of an output log, in order. -/
def performPorts (s : State) (q : QLog) : State :=
  q.olog.foldl (fun t o => match o with
    | .portwr a v => t.performPort q.bead a v
    | _ => t) s

/-- A bead has committed a pass or activation; for a pass of a SCHEDULE bead, not an activation, the watch core notes the time (14 R361). -/
def noteCommit (s : State) (q : QLog) : State :=
  let s1 := s.setBead q.bead { s.bead q.bead with lastCommit := some q.passFrame, stepped := false }
  if s1.beadTraffic q.bead ∨ s1.beadClass q.bead = 1 then s1 else { s1 with wch := { s1.wch with schedNs := some s1.nowNs } }

/-- The logs queued for this bar commit. -/
def commitLogs (s : State) (q : List QLog) (bad : List Nat) : State :=
  let s0 := s.dropBadLogs q bad
  let ls := barOrder (q.filter (fun x => !bad.contains x.bead))
  let s1 := (ls.foldl (fun t q => t.commitWords q.wlog) s0).addSat R.ROD_CONFLICT_COUNT (conflicts ls)
  let s2 := (ls.foldl noteCommit s1).trialWrite ((ls.map (fun q => (q.wlog.filter (fun e => classAByte e.1)).length)).sum)
  let s3 : State := { s2 with bar := { s2.bar with released := ls, entries := (ls.map (fun q => q.entries)).sum } }
  ls.foldl performPorts s3

/-! ### The host log (05 R141, 07 R178, 19 R428) -/

/-- F words of a list of held writes. -/
def heldF (ws : List (Nat × Word)) : List (Nat × Word) :=
  (ws.filter (fun e => decide (0x10000000 ≤ e.1))).map (fun e => (e.1 - 0x10000000, e.2))

/-- Place of the first F word among the held writes. -/
def firstF (ws : List (Nat × Word)) : Nat := (ws.findIdx? (fun e => decide (0x10000000 ≤ e.1))).getD 0

/-- The register writes in order: none refused, or the status and place of the first that is. What the session's version offers is tested
again here, since the writes before it may have changed the entry (19 R422). -/
def heldRegs (i : Nat) : List ((Nat × Word) × Nat) → State → State × Option (Status × Nat)
  | [], s => (s, none)
  | ((a, v), k) :: rest, s =>
    if 0x10000000 ≤ a then heldRegs i rest s
    else if s.versionRefused (.gsp i) a v then (s, some (.version, k))
    else match s.writeStatus .sup a v with
      | .ok => match s.performWrite (.gsp i) a v with
        | (.ok, t) => heldRegs i rest t
        | (st, _) => (s, some (st, k))
      | st => (s, some (st, k))

/-- The writes of one entry: the state after all of them, or why they roll back. -/
def tryHost (s : State) (h : HostWr) : State × Option (Status × Nat) :=
  let fw := heldF h.ws
  let s1 := s.commitWords fw
  if !writesOk s.fmem s1.fmem s.part.lanterns fw then (s, some (.invalid, firstF h.ws))
  else
    let fixed (f : SMap Byte) : SMap Byte := (touchedRecords fw).foldl lapFixed f
    let s2 := ({ s1 with fmem := fixed s1.fmem, ftwin := fixed s1.ftwin } : State).trialWrite (fw.filter (fun e => classAByte e.1)).length
    match heldRegs h.session h.ws.zipIdx s2 with
    | (s3, none) => (s3, none)
    | (_, some e) => (s, some e)

/-- One entry of the host log commits or rolls back as a whole; a TXN_COMMIT is answered. -/
def commitHost (s : State) (h : HostWr) : State :=
  match s.tryHost h, h.txn with
  | (t, none), some id => t.respond h.session id .ok []
  | (t, some (st, k)), some id => t.respond h.session id st [(k : Int)]
  | (t, _), none => t

/-- The host log follows the bead logs, in the order of acceptance. -/
def commitHosts (s : State) (hs : List HostWr) : State := hs.foldl commitHost s

/-! ### The bar opens -/

/-- Begin the bar: it takes what is queued, and beads see the old image until it completes (R42). -/
def barBegin (s : State) : State :=
  let s1 := s.atUs 16000
  let s2 : State := { s1 with bar := { s1.bar with old := some s1.fmem, overrun := false, queue := [], host := [], entries := 0 } }
  { s2 with fr := { s2.fr with phase := .bar } }

/-- A bar that has opened runs to its end, whatever its faults lead to (21 R453). -/
def barOpen (s : State) (bad : List Nat) : State :=
  let s1 := s.barBegin.barBeads
  let s2 := (s1.commitLogs s.bar.queue bad).commitHosts s.bar.host
  (noteUnsaved s.fmem s2).enrolBar

/-! ### Release to EMIT (R44, 03 R96, R97) -/

/-- The leaves that an output log has taken in: its levels, and DRVSETs not yet followed by a TLB. -/
structure Rel where
  levels : List SegLevel := []
  drv : List (Nat × Nat) := []
  posts : List (Nat × Nat × Nat × List Byte) := []
  dets : List FlowDet := []
  lids : List Nat := []

/-- One item of the output log of a bead, committed at the bar of frame `b`. -/
def release (b bead arr : Nat) (x : Rel) : OutReq → Rel
  | .portwr _ _ => x
  | .bcast ls k fade =>
    let lan := ls.map (fun e => (⟨e.1, bead, e.2, b + k, fade, false⟩ : SegLevel))
    let drv := x.drv.map (fun e => (⟨chanLeaf e.1, bead, e.2, b + k, fade, true⟩ : SegLevel))
    { x with levels := x.levels ++ lan ++ drv, drv := [], lids := x.lids ++ ls.map (fun e => e.1) }
  | .post h lid cmd p => { x with posts := x.posts ++ [(h, lid, cmd, p)] }
  | .drvset c v => { x with drv := x.drv ++ [(c, v)] }
  | .tally _ _ => x
  | .flowdet lid cls dir speed t => { x with dets := x.dets ++ [⟨arr, t, lid, cls, dir, speed⟩] }

/-- The tally branches of a list of LIDs, as bits of TALLY's mask (07 R205). -/
def branchMask (s : State) (lids : List Nat) : Nat :=
  let fs := sortNat (lids.map (fun l => let f := s.leafBranch l; if f = 7 then 6 else f))
  (fs.map (fun f => 2 ^ f)).sum

/-- Hand one output log to EMIT: a DRVSET bound to no broadcast takes effect at the next edge. -/
def releaseLog (s : State) (q : QLog) : State :=
  let x := q.olog.foldl (release s.fr.number q.bead s.nowNs) {}
  let rest := x.drv.map (fun e => (⟨chanLeaf e.1, q.bead, e.2, s.fr.number + 1, 0, false⟩ : SegLevel))
  let s1 : State := { s with seg := { s.seg with levels := s.seg.levels ++ x.levels ++ rest, posts := s.seg.posts ++ x.posts } }
  let s2 : State := { s1 with flow := { s1.flow with dets := s1.flow.dets ++ x.dets } }
  s2.setBead q.bead { s2.bead q.bead with branches := some (s2.branchMask x.lids) }

/-! ### EMIT (01 R16) -/

/-- Frames in a row with the load above the cap (07 R206). -/
def countOver (s : State) : State :=
  { s with seg := { s.seg with overRun := if s.bit R.PWR_TALLY_STAT_OVER then s.seg.overRun + 1 else 0 } }

/-- The tally settles, broadcasts are built, levels staged, joins and commands sent, EVR batches written. -/
def emitPhase (s : State) : State :=
  let s1 := (s.segEmit s.allLeaves).countOver
  let s2 := s1.joinEmit.postDispatch
  let s3 := s2.offerNow
  if s3.ready 7 then s3.evrHand else s3

/-- ROD_BAR_TIME and ROD_BAR_MAX: `d` in units of 100 ns. -/
def barTimes (s : State) (d : Nat) : State :=
  let s1 := (s.setFld R.ROD_BAR_TIME_LAST d).setFld R.ROD_BAR_TIME_ENTRIES (min 65535 (ceilDiv s.bar.entries 8))
  s1.setFld R.ROD_BAR_MAX_MAX (max d (s1.fld R.ROD_BAR_MAX_MAX))

/-- The commit has taken `d` times 100 ns: EMIT runs at 16.6 ms or then, unless GARNET has stopped frames. -/
def barComplete (s : State) (d : Nat) : State :=
  let s1 := (s.atUs (max 16600 (16000 + ceilDiv d 10))).barTimes d
  let s2 := if s1.halted then s1 else (s1.bar.released.foldl releaseLog s1).emitPhase
  let s3 : State := { s2 with bar := { s2.bar with old := none, released := [] } }
  ({ s3 with fr := { s3.fr with phase := .emit } } : State).countComm

/-- 17.6 ms: the commit still runs (R45). -/
def barOverrun (s : State) : State :=
  let s1 := s.atUs 17600
  (({ s1 with bar := { s1.bar with overrun := true } } : State).assertSrc 5).fltRaise clsBar 1 []

/-! ### Parity of a bead's read (R58, R59) -/

/-- A bead replay is allowed. -/
def replayAllowed (s : State) (n : Nat) : Bool :=
  let b := s.bead n
  !b.replayed && !b.touched && !(decide (s.beadClass n = 1) && b.spanned)

/-- The pass restarts from its checkpoint; a parked bead resumes as one whose access has completed. -/
def beadReplay (s : State) (n : Nat) : State :=
  let b := s.bead n
  let b1 : Bead := { b with
    s := b.ckpt.s, v := b.ckpt.v, m := b.ckpt.m, posts := b.ckpt.posts, fl := 0, c0 := ⟨[], 0⟩, c1 := ⟨[], 0⟩, pc := b.entry
    calls := [], loops := [], wlog := [], olog := [], entries := 0, openB := none, cycles := 0, parked := none, replayed := true }
  let s1 := (s.setBead n b1).setBit R.ROD_BEAD_STATE_REPLAYED true n
  let s2 := s1.addSat R.ROD_PARITY_BEAD 1
  if (s2.rod (n / 64)).waiting.any (fun w => decide (w.1 = n % 64)) then s2.accessDone (n / 64) (n % 64) else s2

/-- The word index of the access of bead n: a bead that has parked for it has moved on (R66). -/
def accessPc (s : State) (n : Nat) : Nat :=
  match (s.bead n).parked with
  | some p => p.2
  | none => (s.bead n).pc

/-- The read stays bad: the bead faults and MEM is raised. -/
def parityFault (s : State) (n addr : Nat) : State := (s.beadFault n .integrity (s.accessPc n) 0).fltRaise clsMem 1 [addr]

/-- The word of F at the byte address `addr` is restored from the twin into the committed copy. -/
def twinRestore (s : State) (addr : Nat) : State :=
  let w := addr - addr % 4
  { s with fmem := memPut fDflt s.fmem w 4 (memNat fDflt s.ftwin w 4) }

/-- A read of bead n at `addr`, in F or not, has failed parity. -/
def accessReplay (s : State) (n addr : Nat) (inF : Bool) (e : ReplayEnd) : State :=
  let s1 := s.addSat R.ROD_PARITY_ACCESS 1
  match e with
  | .firstPass => s1
  | .secondPass => s1
  | .twinGood =>
    let s2 := if inF then s1.twinRestore addr else s1
    if inF ∧ s2.replayAllowed n then s2.beadReplay n else s2.parityFault n addr
  | .unresolved => s1.parityFault n addr

end State

/-! ### Commands -/

/-- `bad`: the beads whose log fails its parity check. -/
def execBarOpen (bad : List Nat) (s : State) : Out :=
  .next (if s.fr.phase = .exec ∧ !s.halted then s.barOpen bad else s)

/-- `d`: the length of the bar in units of 100 ns. A bar that VAUX_LOST has met ends with it (01 R20). -/
def execBarComplete (d : Fin 40000) (s : State) : Out :=
  .next (if s.fr.phase = .bar then
      (if s.poweredOn then s.barComplete d else ((s.atUs (16000 + ceilDiv d 10)).barTimes d).onyxBarEnd)
    else s)

def execBarOverrun (s : State) : Out := .next (if s.fr.phase = .bar ∧ !s.bar.overrun then s.barOverrun else s)

/-- The bead has issued more cycles than its budget. -/
def execBudgetAbort (n : Fin 1024) (s : State) : Out :=
  .next (if s.framesRun ∧ s.beadValid n ∧ s.beadState n = State.stRunning ∧ s.fld R.ROD_BEAD_BUDGET_BUDGET n < (s.bead n).cycles then
      (s.abortBead n).fltRaise State.clsBudget 1 [n]
    else s)

def execAccessReplay (n : Fin 1024) (addr : Nat) (inF : Bool) (e : ReplayEnd) (s : State) : Out :=
  .next (if s.framesRun ∧ s.beadValid n ∧ s.beadState n = State.stRunning then s.accessReplay n addr inF e else s)

end Sys2Proof.Machine
end

