-- ==== Sys2Proof/Machine/IsaVector.lean ====
section
/-! DEFINITION. The vector group of Marric (03_marric_instruction_set.md R77): lane by lane under the governing mask k. -/

namespace Sys2Proof.Machine

/-- Some enabled lane has the property. -/
def Bead.anyLane (x : Bead) (k : Nat) (p : Nat → Bool) : Bool := (x.lanes k).any p

/-- A lane-wise result with saturation flags: enabled lanes are written, SAT tells whether any saturated. -/
def Bead.lanesSat (x : Bead) (d k : Nat) (f : Nat → Word × Bool) : Bead :=
  (x.putEnabled d k (fun j => (f j).1)).setFl 4 (x.anyLane k (fun j => (f j).2))

/-- VADD and VSUB: wrapping, or saturating with SH[0] = 1. -/
def lanePlus (sat : Bool) (v : Int) : Word × Bool := if sat then satW v else (wordOf v, false)

def execVadd (r : Fin 16) (d a : Fin 16) (b : VB) (k : Fin 4) (sat : Bool) (s : State) : Out :=
  issueReg r true 1 (fun x => x.lanesSat d k (fun j => lanePlus sat ((x.rv a j).toInt + (x.rb b j).toInt))) s

def execVsub (r : Fin 16) (d a : Fin 16) (b : VB) (k : Fin 4) (sat : Bool) (s : State) : Out :=
  issueReg r true 1 (fun x => x.lanesSat d k (fun j => lanePlus sat ((x.rv a j).toInt - (x.rb b j).toInt))) s

def execVmulq (r : Fin 16) (d a : Fin 16) (b : VB) (k : Fin 4) (sh : Fin 32) (s : State) : Out :=
  issueReg r true 2 (fun x => x.lanesSat d k (fun j => mulq (x.rv a j) (x.rb b j) sh)) s

def execVmacq (r : Fin 16) (d a : Fin 16) (b : VB) (k : Fin 4) (sh : Fin 32) (s : State) : Out :=
  issueReg r true 2 (fun x => x.lanesSat d k (fun j => macq (x.rv d j) (x.rv a j) (x.rb b j) sh)) s

def execVmin (r : Fin 16) (d a : Fin 16) (b : VB) (k : Fin 4) (s : State) : Out :=
  issueReg r true 1 (fun x => x.putEnabled d k (fun j => smin (x.rv a j) (x.rb b j))) s

def execVmax (r : Fin 16) (d a : Fin 16) (b : VB) (k : Fin 4) (s : State) : Out :=
  issueReg r true 1 (fun x => x.putEnabled d k (fun j => smax (x.rv a j) (x.rb b j))) s

def execVclamp (r : Fin 16) (d a : Fin 16) (b : VB) (k : Fin 4) (s : State) : Out :=
  issueReg r true 1 (fun x => x.putEnabled d k (fun j => clampW (x.rv d j) (x.rv a j) (x.rb b j))) s

/-- VSEL writes every lane. -/
def execVsel (r : Fin 16) (d a : Fin 16) (b : VB) (k : Fin 4) (s : State) : Out :=
  issueReg r true 1 (fun x => x.putLanes d (fun j => if x.lane k j then x.rv a j else x.rb b j) 16) s

/-- The mask with bit j set where `p j`, for j below n. -/
def maskOf (p : Nat → Bool) : Nat → BitVec 16
  | 0 => 0
  | n + 1 => maskOf p n ||| (if p n then 1#16 <<< n else 0)

/-- VCMP: t is 1 to 3. -/
def execVcmp (r : Fin 16) (t : Fin 4) (a : Fin 16) (b : VB) (k : Fin 4) (cond : Fin 8) (s : State) : Out :=
  issueReg r (decide (t.val ≠ 0)) 1 (fun x =>
    let m := maskOf (fun j => x.lane k j && laneCond cond (x.rv a j) (x.rb b j)) 16
    (x.wm t m).setFl 0 (decide (m = 0))) s

/-- VRED SUM: the exact sum shifted right and saturated; 0 when no lane is enabled. -/
def execVredSum (r : Fin 16) (d : Fin 32) (a : Fin 16) (k : Fin 4) (sh : Fin 32) (s : State) : Out :=
  issueReg r true 4 (fun x =>
    let v := satW (sarI (((x.lanes k).map (fun j => (x.rv a j).toInt)).sum) sh)
    ((x.ws d v.1).zn v.1).setFl 4 v.2) s

/-- A reduction by `f` over the enabled lanes; 0 when none is. -/
def reduceLanes (f : Word → Word → Word) : List Word → Word
  | [] => 0
  | w :: ws => ws.foldl f w

/-- SH is reserved for MIN and MAX (R72). -/
def execVredMin (r : Fin 16) (d : Fin 32) (a : Fin 16) (k : Fin 4) (s : State) : Out :=
  issueReg r true 4 (fun x =>
    let w := reduceLanes smin ((x.lanes k).map (fun j => x.rv a j))
    (x.ws d w).zn w) s

def execVredMax (r : Fin 16) (d : Fin 32) (a : Fin 16) (k : Fin 4) (s : State) : Out :=
  issueReg r true 4 (fun x =>
    let w := reduceLanes smax ((x.lanes k).map (fun j => x.rv a j))
    (x.ws d w).zn w) s

end Sys2Proof.Machine
end

