-- ==== Sys2Proof/Machine/Dispatch.lean ====
section
/-! DEFINITION. The meaning of every command: one arm per row of the table. -/

namespace Sys2Proof.Machine

/-- The effect of a command on everything but the queue. -/
def exec (i : Instr) (s : State) : Host.Outcome State Fault Refusal :=
  match i with
  -- Power, frame engine and registers
  | .vauxValid us count => Sys2Proof.Machine.execVauxValid us count s
  | .functionReady n us => Sys2Proof.Machine.execFunctionReady n us s
  | .vauxLost us store mj => Sys2Proof.Machine.execVauxLost us store mj s
  | .lastTaskComplete us mj => Sys2Proof.Machine.execLastTaskComplete us mj s
  | .onyxDeadline => Sys2Proof.Machine.execOnyxDeadline s
  | .storeLost => Sys2Proof.Machine.execStoreLost s
  | .vbkpLost => Sys2Proof.Machine.execVbkpLost s
  | .storeChargeEnd us from10mv c => Sys2Proof.Machine.execStoreChargeEnd us from10mv c s
  | .pwrReqWrite who us agate => Sys2Proof.Machine.execPwrReqWrite who us agate s
  | .frameEdge x replays lost => Sys2Proof.Machine.execFrameEdge x replays lost s
  | .execStart => Sys2Proof.Machine.execExecStart s
  | .portAccessComplete us => Sys2Proof.Machine.execPortAccessComplete us s
  | .budgetAbort n => Sys2Proof.Machine.execBudgetAbort n s
  | .accessReplay n addr inF e => Sys2Proof.Machine.execAccessReplay n addr inF e s
  | .barOpen bad => Sys2Proof.Machine.execBarOpen bad s
  | .barComplete d => Sys2Proof.Machine.execBarComplete d s
  | .barOverrun => Sys2Proof.Machine.execBarOverrun s
  | .downlinkOffer us => Sys2Proof.Machine.execDownlinkOffer us s
  | .beadStart who us n => Sys2Proof.Machine.execBeadStart who us n s
  | .beadStop who us n => Sys2Proof.Machine.execBeadStop who us n s
  | .beadReset who us n => Sys2Proof.Machine.execBeadReset who us n s
  | .rodAdmitLimitWrite who us v => Sys2Proof.Machine.execRodAdmitLimitWrite who us v s
  | .registerWrite who us a v => Sys2Proof.Machine.execRegisterWrite who us a v s
  | .rclrRead g us a => Sys2Proof.Machine.execRclrRead g us a s
  | .loLatchRead who us a => Sys2Proof.Machine.execLoLatchRead who us a s
  | .ntuTimeRead who us => Sys2Proof.Machine.execNtuTimeRead who us s
  | .rtcDateRead who us => Sys2Proof.Machine.execRtcDateRead who us s
  -- Marric instructions, issued by the bead now current on rod `r` (03)
  | .add r d a b => Sys2Proof.Machine.execAdd r d a b s
  | .sub r d a b => Sys2Proof.Machine.execSub r d a b s
  | .and r d a b => Sys2Proof.Machine.execAnd r d a b s
  | .or r d a b => Sys2Proof.Machine.execOr r d a b s
  | .xor r d a b => Sys2Proof.Machine.execXor r d a b s
  | .shl r d a b sh => Sys2Proof.Machine.execShl r d a b sh s
  | .shr r d a b sh => Sys2Proof.Machine.execShr r d a b sh s
  | .sar r d a b sh => Sys2Proof.Machine.execSar r d a b sh s
  | .min r d a b => Sys2Proof.Machine.execMin r d a b s
  | .max r d a b => Sys2Proof.Machine.execMax r d a b s
  | .adds r d a b => Sys2Proof.Machine.execAdds r d a b s
  | .subs r d a b => Sys2Proof.Machine.execSubs r d a b s
  | .mulq r d a b sh => Sys2Proof.Machine.execMulq r d a b sh s
  | .macq r d a b sh => Sys2Proof.Machine.execMacq r d a b sh s
  | .divq r d a b sh => Sys2Proof.Machine.execDivq r d a b sh s
  | .abs r d a => Sys2Proof.Machine.execAbs r d a s
  | .clamp r d a b => Sys2Proof.Machine.execClamp r d a b s
  | .sel r d a b cond => Sys2Proof.Machine.execSel r d a b cond s
  | .cmp r a b => Sys2Proof.Machine.execCmp r a b s
  | .mov r d a => Sys2Proof.Machine.execMov r d a s
  | .addi r d a imm => Sys2Proof.Machine.execAddi r d a imm s
  | .andi r d a imm => Sys2Proof.Machine.execAndi r d a imm s
  | .ori r d a imm => Sys2Proof.Machine.execOri r d a imm s
  | .xori r d a imm => Sys2Proof.Machine.execXori r d a imm s
  | .shli r d a n => Sys2Proof.Machine.execShli r d a n s
  | .shri r d a n => Sys2Proof.Machine.execShri r d a n s
  | .sari r d a n => Sys2Proof.Machine.execSari r d a n s
  | .cmpi r a imm => Sys2Proof.Machine.execCmpi r a imm s
  | .liShort r d imm => Sys2Proof.Machine.execLiShort r d imm s
  | .lui r d imm => Sys2Proof.Machine.execLui r d imm s
  | .liLong r d w => Sys2Proof.Machine.execLiLong r d w s
  | .tli r d a b => Sys2Proof.Machine.execTli r d a b s
  | .vadd r d a b k sat => Sys2Proof.Machine.execVadd r d a b k sat s
  | .vsub r d a b k sat => Sys2Proof.Machine.execVsub r d a b k sat s
  | .vmulq r d a b k sh => Sys2Proof.Machine.execVmulq r d a b k sh s
  | .vmacq r d a b k sh => Sys2Proof.Machine.execVmacq r d a b k sh s
  | .vmin r d a b k => Sys2Proof.Machine.execVmin r d a b k s
  | .vmax r d a b k => Sys2Proof.Machine.execVmax r d a b k s
  | .vclamp r d a b k => Sys2Proof.Machine.execVclamp r d a b k s
  | .vsel r d a b k => Sys2Proof.Machine.execVsel r d a b k s
  | .vcmp r t a b k cond => Sys2Proof.Machine.execVcmp r t a b k cond s
  | .vredSum r d a k sh => Sys2Proof.Machine.execVredSum r d a k sh s
  | .vredMin r d a k => Sys2Proof.Machine.execVredMin r d a k s
  | .vredMax r d a k => Sys2Proof.Machine.execVredMax r d a k s
  | .ldf r d a size imm => Sys2Proof.Machine.execLdf r d a size imm s
  | .stf r d a size imm => Sys2Proof.Machine.execStf r d a size imm s
  | .ldi r d a size imm => Sys2Proof.Machine.execLdi r d a size imm s
  | .sti r d a size imm => Sys2Proof.Machine.execSti r d a size imm s
  | .portrd r d a imm => Sys2Proof.Machine.execPortrd r d a imm s
  | .portwr r d a imm => Sys2Proof.Machine.execPortwr r d a imm s
  | .lset r c kind a inter w => Sys2Proof.Machine.execLset r c kind a inter w s
  | .lnext r d k c => Sys2Proof.Machine.execLnext r d k c s
  | .ltg r d a k off width sx => Sys2Proof.Machine.execLtg r d a k off width sx s
  | .lts r d a k off width => Sys2Proof.Machine.execLts r d a k off width s
  | .time r d kind us => Sys2Proof.Machine.execTime r d kind us s
  | .calFields r d a => Sys2Proof.Machine.execCalFields r d a s
  | .calDue r d a w => Sys2Proof.Machine.execCalDue r d a w s
  | .sun r d => Sys2Proof.Machine.execSun r d s
  | .sunev r d a rising => Sys2Proof.Machine.execSunev r d a rising s
  | .flowrd r d a k h => Sys2Proof.Machine.execFlowrd r d a k h s
  | .flowdet r a b => Sys2Proof.Machine.execFlowdet r a b s
  | .lvl r a b k => Sys2Proof.Machine.execLvl r a b k s
  | .tlb r a fade => Sys2Proof.Machine.execTlb r a fade s
  | .post r d a b cmd len => Sys2Proof.Machine.execPost r d a b cmd len s
  | .drvset r a b => Sys2Proof.Machine.execDrvset r a b s
  | .tally r d a b => Sys2Proof.Machine.execTally r d a b s
  | .br r off => Sys2Proof.Machine.execBr r off s
  | .brc r cond off => Sys2Proof.Machine.execBrc r cond off s
  | .loop r a max body => Sys2Proof.Machine.execLoop r a max body s
  | .call r addr => Sys2Proof.Machine.execCall r addr s
  | .ret r => Sys2Proof.Machine.execRet r s
  | .evwait r => Sys2Proof.Machine.execEvwait r s
  | .eoi t ev => Sys2Proof.Machine.execEoi t ev s
  | .halt r => Sys2Proof.Machine.execHalt r s
  | .nop r => Sys2Proof.Machine.execNop r s
  | .raise r a n => Sys2Proof.Machine.execRaise r a n s
  | .fault r code => Sys2Proof.Machine.execFault r code s
  -- Event delivery (04)
  | .icuDispatch t us ev => Sys2Proof.Machine.execIcuDispatch t us ev s
  | .moderationExpire t => Sys2Proof.Machine.execModerationExpire t s
  | .icuSwsetWrite who us k v => Sys2Proof.Machine.execIcuSwsetWrite who us k v s
  | .icuSrcCfgWrite who us n v => Sys2Proof.Machine.execIcuSrcCfgWrite who us n v s
  -- Images and tables (05)
  | .imageLoad idx id len data txn => Sys2Proof.Machine.execImageLoad idx id len data txn s
  | .imageVerify idx us => Sys2Proof.Machine.execImageVerify idx us s
  | .imageActivate who us idx => Sys2Proof.Machine.execImageActivate who us idx s
  | .imageDeactivate who us idx => Sys2Proof.Machine.execImageDeactivate who us idx s
  | .imageUnload who us idx => Sys2Proof.Machine.execImageUnload who us idx s
  | .imageActivateTimeout idx => Sys2Proof.Machine.execImageActivateTimeout idx s
  | .imageReverify us => Sys2Proof.Machine.execImageReverify us s
  | .ltabDataWrite idx us k v => Sys2Proof.Machine.execLtabDataWrite idx us k v s
  | .configSave us => Sys2Proof.Machine.execConfigSave us s
  -- Flow reckoner (06)
  | .flowUpdate replays lost => Sys2Proof.Machine.execFlowUpdate replays lost s
  | .flowUpdateComplete us => Sys2Proof.Machine.execFlowUpdateComplete us s
  | .flowApply => Sys2Proof.Machine.execFlowApply s
  | .flowClear => Sys2Proof.Machine.execFlowClear s
  | .flowRunWrite run => Sys2Proof.Machine.execFlowRunWrite run s
  | .flowXchgReceive peer us format frame elems => Sys2Proof.Machine.execFlowXchgReceive peer us format frame elems s
  | .peerLost peer => Sys2Proof.Machine.execPeerLost peer s
  -- Segment and tally (07)
  | .joinReq us q => Sys2Proof.Machine.execJoinReq us q s
  | .setFailsafe lid => Sys2Proof.Machine.execSetFailsafe lid s
  | .statusReport lid us n r => Sys2Proof.Machine.execStatusReport lid us n r s
  | .staleTimeout lid => Sys2Proof.Machine.execStaleTimeout lid s
  | .detectionReport lid us n cls dir speed timeNs => Sys2Proof.Machine.execDetectionReport lid us n cls dir speed timeNs s
  | .lanternFaultReport lid us n code raised => Sys2Proof.Machine.execLanternFaultReport lid us n code raised s
  | .unreachableTimeout lid => Sys2Proof.Machine.execUnreachableTimeout lid s
  | .faultSummary => Sys2Proof.Machine.execFaultSummary s
  | .cmdResponse lid us a => Sys2Proof.Machine.execCmdResponse lid us a s
  | .cmdRetry lid => Sys2Proof.Machine.execCmdRetry lid s
  | .cmdTimeout lid => Sys2Proof.Machine.execCmdTimeout lid s
  | .trafficHoldEnd l => Sys2Proof.Machine.execTrafficHoldEnd l s
  | .safetyExpire k => Sys2Proof.Machine.execSafetyExpire k s
  | .loadShed => Sys2Proof.Machine.execLoadShed s
  | .reconPeriodEnd => Sys2Proof.Machine.execReconPeriodEnd s
  | .fwCampaignStart who us image => Sys2Proof.Machine.execFwCampaignStart who us image s
  | .fwCampaignActivate who us image => Sys2Proof.Machine.execFwCampaignActivate who us image s
  | .fwCampaignAbort who us image => Sys2Proof.Machine.execFwCampaignAbort who us image s
  | .campaignAnnounceDone us => Sys2Proof.Machine.execCampaignAnnounceDone us s
  | .campaignPassSent us => Sys2Proof.Machine.execCampaignPassSent us s
  | .campaignPollEnd us => Sys2Proof.Machine.execCampaignPollEnd us s
  | .campaignVerifyEnd us => Sys2Proof.Machine.execCampaignVerifyEnd us s
  | .campaignActivateEnd => Sys2Proof.Machine.execCampaignActivateEnd s
  -- Radio and links (08, 09)
  | .radioFrameReceive phr f us => Sys2Proof.Machine.execRadioFrameReceive phr f us s
  | .ackTransmit x => Sys2Proof.Machine.execAckTransmit x s
  | .launch x us energy => Sys2Proof.Machine.execLaunch x us energy s
  | .ccaRetry x energy => Sys2Proof.Machine.execCcaRetry x energy s
  | .radDemodWrite who us d v => Sys2Proof.Machine.execRadDemodWrite who us d v s
  | .radWinWrite who us x v => Sys2Proof.Machine.execRadWinWrite who us x v s
  | .radHopCfgWrite who us k v => Sys2Proof.Machine.execRadHopCfgWrite who us k v s
  | .radRxpartWrite who us p v => Sys2Proof.Machine.execRadRxpartWrite who us p v s
  | .g1WindowOpen lid => Sys2Proof.Machine.execG1WindowOpen lid s
  | .g1WindowClose lid => Sys2Proof.Machine.execG1WindowClose lid s
  | .supervisionTimeout lid => Sys2Proof.Machine.execSupervisionTimeout lid s
  | .resyncBeacon lid us => Sys2Proof.Machine.execResyncBeacon lid us s
  | .ackWaitTimeout x seq us delay => Sys2Proof.Machine.execAckWaitTimeout x seq us delay s
  | .routeAdvSend => Sys2Proof.Machine.execRouteAdvSend s
  | .routeErr lid => Sys2Proof.Machine.execRouteErr lid s
  | .dstExpire lid => Sys2Proof.Machine.execDstExpire lid s
  | .radLinkMapCommit who us v => Sys2Proof.Machine.execRadLinkMapCommit who us v s
  | .channelMapSwitch => Sys2Proof.Machine.execChannelMapSwitch s
  -- Network time (10)
  | .ptpSyncMeasurement p us x corr logSync => Sys2Proof.Machine.execPtpSyncMeasurement p us x corr logSync s
  | .ptpDelayResponse p us x => Sys2Proof.Machine.execPtpDelayResponse p us x s
  | .ptpAnnounce p us a => Sys2Proof.Machine.execPtpAnnounce p us a s
  | .masterLost p => Sys2Proof.Machine.execMasterLost p s
  | .ethernetLinkChange p us speed => Sys2Proof.Machine.execEthernetLinkChange p us speed s
  | .timeStep us => Sys2Proof.Machine.execTimeStep us s
  | .ntuJumpAccept who us => Sys2Proof.Machine.execNtuJumpAccept who us s
  | .ntuPtpDisable who us => Sys2Proof.Machine.execNtuPtpDisable who us s
  | .leapSecond => Sys2Proof.Machine.execLeapSecond s
  -- Local drive (11)
  | .complianceCheck c us microamps headroom vbus => Sys2Proof.Machine.execComplianceCheck c us microamps headroom vbus s
  | .busRampLimit vbus => Sys2Proof.Machine.execBusRampLimit vbus s
  | .handoverEnd => Sys2Proof.Machine.execHandoverEnd s
  | .vledinLost us vledin => Sys2Proof.Machine.execVledinLost us vledin s
  | .vledinValid us vledin => Sys2Proof.Machine.execVledinValid us vledin s
  | .thermalShutdown us bank => Sys2Proof.Machine.execThermalShutdown us bank s
  | .drvRestart who us => Sys2Proof.Machine.execDrvRestart who us s
  | .thermalAutoRetry => Sys2Proof.Machine.execThermalAutoRetry s
  | .drvTest who us => Sys2Proof.Machine.execDrvTest who us s
  | .drvTestComplete us vbus vfs => Sys2Proof.Machine.execDrvTestComplete us vbus vfs s
  | .openRetest c microamps headroom vbus => Sys2Proof.Machine.execOpenRetest c microamps headroom vbus s
  | .dropoutRetry c => Sys2Proof.Machine.execDropoutRetry c s
  | .drvIsetWrite who us v => Sys2Proof.Machine.execDrvIsetWrite who us v s
  | .drvChanCfgWrite who us c v => Sys2Proof.Machine.execDrvChanCfgWrite who us c v s
  | .drvStoreLoaded us => Sys2Proof.Machine.execDrvStoreLoaded us s
  | .overrideSwitchChange us pos => Sys2Proof.Machine.execOverrideSwitchChange us pos s
  | .drvFeederCmdWrite who us f close => Sys2Proof.Machine.execDrvFeederCmdWrite who us f close s
  | .feederChangeRelease f => Sys2Proof.Machine.execFeederChangeRelease f s
  | .feederFeedbackFault f => Sys2Proof.Machine.execFeederFeedbackFault f s
  | .feederClosedSettle f => Sys2Proof.Machine.execFeederClosedSettle f s
  -- Loop engine (12)
  | .loopSample l us x => Sys2Proof.Machine.execLoopSample l us x s
  | .loopClose who us l => Sys2Proof.Machine.execLoopClose who us l s
  | .loopOpen who us l => Sys2Proof.Machine.execLoopOpen who us l s
  | .ainWireFault k us => Sys2Proof.Machine.execAinWireFault k us s
  | .ainWireClear k us => Sys2Proof.Machine.execAinWireClear k us s
  | .lceAoutManWrite who us k v => Sys2Proof.Machine.execLceAoutManWrite who us k v s
  | .lceSpWrite who us l v => Sys2Proof.Machine.execLceSpWrite who us l v s
  | .lceCfgWrite who us l k v => Sys2Proof.Machine.execLceCfgWrite who us l k v s
  | .pinTimeout k => Sys2Proof.Machine.execPinTimeout k s
  -- Meter and island (13)
  | .meterHello us bytes => Sys2Proof.Machine.execMeterHello us bytes s
  | .meterMeas us bytes => Sys2Proof.Machine.execMeterMeas us bytes s
  | .meterLogrec us bytes => Sys2Proof.Machine.execMeterLogrec us bytes s
  | .meterIdentRsp us bytes => Sys2Proof.Machine.execMeterIdentRsp us bytes s
  | .meterTsyncRsp us bytes => Sys2Proof.Machine.execMeterTsyncRsp us bytes s
  | .meterChallenge us bytes => Sys2Proof.Machine.execMeterChallenge us bytes s
  | .meterSealedMsg us bytes => Sys2Proof.Machine.execMeterSealedMsg us bytes s
  | .meterLinkTimeout => Sys2Proof.Machine.execMeterLinkTimeout s
  | .metFwReq who us => Sys2Proof.Machine.execMetFwReq who us s
  | .metTsyncReq who us => Sys2Proof.Machine.execMetTsyncReq who us s
  | .tsyncAuto us => Sys2Proof.Machine.execTsyncAuto us s
  | .islandTsync bytes frac => Sys2Proof.Machine.execIslandTsync bytes frac s
  | .islandIdent bytes => Sys2Proof.Machine.execIslandIdent bytes s
  | .islandSecond q => Sys2Proof.Machine.execIslandSecond q s
  | .demandPeriodEnd => Sys2Proof.Machine.execDemandPeriodEnd s
  | .demandMonthEnd => Sys2Proof.Machine.execDemandMonthEnd s
  | .sagSwell k swell v ms => Sys2Proof.Machine.execSagSwell k swell v ms s
  | .sealOpen m jumper => Sys2Proof.Machine.execSealOpen m jumper s
  | .sealClose m => Sys2Proof.Machine.execSealClose m s
  | .setCal m ch consts => Sys2Proof.Machine.execSetCal m ch consts s
  | .setCt m pri sec1 => Sys2Proof.Machine.execSetCt m pri sec1 s
  | .testMode m mode => Sys2Proof.Machine.execTestMode m mode s
  | .fwLoad m fwid code sig => Sys2Proof.Machine.execFwLoad m fwid code sig s
  | .fwActivate m => Sys2Proof.Machine.execFwActivate m s
  | .setMkey m key => Sys2Proof.Machine.execSetMkey m key s
  | .sealJumperRemoved => Sys2Proof.Machine.execSealJumperRemoved s
  | .sealOpenTimeout => Sys2Proof.Machine.execSealOpenTimeout s
  | .islandStop => Sys2Proof.Machine.execIslandStop s
  | .islandStart outage clock => Sys2Proof.Machine.execIslandStart outage clock s
  -- Watch core (14)
  | .watchSample us w => Sys2Proof.Machine.execWatchSample us w s
  | .photoFallbackArm us => Sys2Proof.Machine.execPhotoFallbackArm us s
  -- Clock and calendar (15)
  | .rtcSecondTick us => Sys2Proof.Machine.execRtcSecondTick us s
  | .rtcSet who us v => Sys2Proof.Machine.execRtcSet who us v s
  | .oscillatorStop => Sys2Proof.Machine.execOscillatorStop s
  | .rtcSteerCheck us => Sys2Proof.Machine.execRtcSteerCheck us s
  | .rtcCalAuto => Sys2Proof.Machine.execRtcCalAuto s
  | .rtcAlmCtrlWrite who us k v => Sys2Proof.Machine.execRtcAlmCtrlWrite who us k v s
  | .evinEdge idx us count rising => Sys2Proof.Machine.execEvinEdge idx us count rising s
  | .evinPop who us idx => Sys2Proof.Machine.execEvinPop who us idx s
  -- Event recorder (16)
  | .evrRdSelect who us v => Sys2Proof.Machine.execEvrRdSelect who us v s
  -- Keys (17)
  | .keyRecovery => Sys2Proof.Machine.execKeyRecovery s
  | .keyLoad idx id q => Sys2Proof.Machine.execKeyLoad idx id q s
  | .keyCommitCopy2 k us => Sys2Proof.Machine.execKeyCommitCopy2 k us s
  | .keyRevoke who us k => Sys2Proof.Machine.execKeyRevoke who us k s
  | .keyOperationComplete us e asks => Sys2Proof.Machine.execKeyOperationComplete us e asks s
  | .attest idx id nonce => Sys2Proof.Machine.execAttest idx id nonce s
  | .retire idx id body sig => Sys2Proof.Machine.execRetire idx id body sig s
  -- Update (18)
  | .manifest idx id data txn => Sys2Proof.Machine.execManifest idx id data txn s
  | .part idx id len data txn => Sys2Proof.Machine.execPart idx id len data txn s
  | .forwardSealComplete us => Sys2Proof.Machine.execForwardSealComplete us s
  | .updActivate who us => Sys2Proof.Machine.execUpdActivate who us s
  | .updConfirm who us => Sys2Proof.Machine.execUpdConfirm who us s
  | .updRollback who us => Sys2Proof.Machine.execUpdRollback who us s
  | .updAbort who us => Sys2Proof.Machine.execUpdAbort who us s
  | .controlPause => Sys2Proof.Machine.execControlPause s
  | .updateResume bad => Sys2Proof.Machine.execUpdateResume bad s
  | .updateNoResume => Sys2Proof.Machine.execUpdateNoResume s
  | .confirmWindowExpire => Sys2Proof.Machine.execConfirmWindowExpire s
  -- Host protocol (19)
  | .sessionHandshake conn service dtls suite p256 subject role cert sig us => Sys2Proof.Machine.execSessionHandshake conn service dtls suite p256 subject role cert sig us s
  | .hello conn lo hi features window token us => Sys2Proof.Machine.execHello conn lo hi features window token us s
  | .regRead idx id a n us => Sys2Proof.Machine.execRegRead idx id a n us s
  | .regWrite idx id a ws txn us => Sys2Proof.Machine.execRegWrite idx id a ws txn us s
  | .txnBegin idx id us => Sys2Proof.Machine.execTxnBegin idx id us s
  | .txnCommit idx id us => Sys2Proof.Machine.execTxnCommit idx id us s
  | .txnAbort idx id us => Sys2Proof.Machine.execTxnAbort idx id us s
  | .txnIdleTimeout idx => Sys2Proof.Machine.execTxnIdleTimeout idx s
  | .logRead idx id log first n us => Sys2Proof.Machine.execLogRead idx id log first n us s
  | .subscribe idx id mask => Sys2Proof.Machine.execSubscribe idx id mask s
  | .lanternCmd idx id lid code payload txn us => Sys2Proof.Machine.execLanternCmd idx id lid code payload txn us s
  | .sealedMsg idx id msg => Sys2Proof.Machine.execSealedMsg idx id msg s
  | .segment idx id off data final us => Sys2Proof.Machine.execSegment idx id off data final us s
  | .credit idx id off window us => Sys2Proof.Machine.execCredit idx id off window us s
  | .keepalive idx us => Sys2Proof.Machine.execKeepalive idx us s
  | .sessionIdleTimeout idx => Sys2Proof.Machine.execSessionIdleTimeout idx s
  | .sessionClose idx how us => Sys2Proof.Machine.execSessionClose idx how us s
  | .resumableExpire idx => Sys2Proof.Machine.execResumableExpire idx s
  | .evrHeadNotify => Sys2Proof.Machine.execEvrHeadNotify s
  | .peerHandshake p serial good us => Sys2Proof.Machine.execPeerHandshake p serial good us s
  | .peerKeepalive p from_ us => Sys2Proof.Machine.execPeerKeepalive p from_ us s
  | .peerLinkDown p => Sys2Proof.Machine.execPeerLinkDown p s
  | .peerRetry p => Sys2Proof.Machine.execPeerRetry p s
  -- Panel (20)
  | .fpSample us raw pad => Sys2Proof.Machine.execFpSample us raw pad s
  | .keyStuck k => Sys2Proof.Machine.execKeyStuck k s
  | .padHoldComplete => Sys2Proof.Machine.execPadHoldComplete s
  | .lampTestEnd => Sys2Proof.Machine.execLampTestEnd s
  | .displayRefresh us => Sys2Proof.Machine.execDisplayRefresh us s
  | .displayBlank => Sys2Proof.Machine.execDisplayBlank s
  | .pinLockoutEnd => Sys2Proof.Machine.execPinLockoutEnd s
  | .fpPinSet who us v => Sys2Proof.Machine.execFpPinSet who us v s
  | .usbDetach cause us => Sys2Proof.Machine.execUsbDetach cause us s
  -- Faults (21)
  | .faultServiceTimeout => Sys2Proof.Machine.execFaultServiceTimeout s
  | .appDomainReset us => Sys2Proof.Machine.execAppDomainReset us s
  | .garnetRebuild us => Sys2Proof.Machine.execGarnetRebuild us s
  | .rodFltAck who us => Sys2Proof.Machine.execRodFltAck who us s
  | .rodFltRelease who us => Sys2Proof.Machine.execRodFltRelease who us s
  | .rodWatchdog r us => Sys2Proof.Machine.execRodWatchdog r us s
  | .supplyFault us rail millivolts => Sys2Proof.Machine.execSupplyFault us rail millivolts s
  | .radioTimeoutFault x us => Sys2Proof.Machine.execRadioTimeoutFault x us s
  | .nandEccFailure us block => Sys2Proof.Machine.execNandEccFailure us block s
  | .islandCoverChange removed => Sys2Proof.Machine.execIslandCoverChange removed s
  | .junctionLimit us above decidegrees => Sys2Proof.Machine.execJunctionLimit us above decidegrees s
  -- Others
  | .vbkpValid => Sys2Proof.Machine.execVbkpValid s
  | .feederFeedbackChange f us closed => Sys2Proof.Machine.execFeederFeedbackChange f us closed s
  | .pulseEdge k us rising => Sys2Proof.Machine.execPulseEdge k us rising s
  | .usbAttach configured us => Sys2Proof.Machine.execUsbAttach configured us s
  | .pinEntryTimeout => Sys2Proof.Machine.execPinEntryTimeout s
  | .boundLevelApply => Sys2Proof.Machine.execBoundLevelApply s

end Sys2Proof.Machine
end

