-- ==== Sys2Proof/Safety.lean ====
section
/-! DEFINITION. What counts as a safe state and a safe step, in the terms of the claims. -/

namespace Sys2Proof.Machine

/-- The queue of commands is never added to or taken from by a command itself. -/
def keepsQueue (s t : State) : Prop := t.pending = s.pending

/-- A step does not stop. -/
def runs (o : Host.Outcome State Fault Refusal) : Prop := ∃ t, o = .next t

end Sys2Proof.Machine
end

