-- ==== Sys2Proof/WellFormed.lean ====
section
/-! DEFINITION. Which commands the spec's encodings and formats allow, beyond what the types of the operands say
(03_marric_instruction_set.md R72 to R75 for instructions; the ranges of the units' inputs). `exec` does not ask: an instruction word
against these rules faults its bead with INVALID when it issues (03 R73), and every other command has its effect whatever its
operands. -/

namespace Sys2Proof

open Machine

namespace Instr

/-- A Marric instruction word follows the encoding rules. -/
def wordOk : Instr → Bool
  | .shl _ _ _ b sh => shiftWf b sh
  | .shr _ _ _ b sh => shiftWf b sh
  | .sar _ _ _ b sh => shiftWf b sh
  | .vcmp _ t _ _ _ _ => decide (t.val ≠ 0)
  | .ldf _ d _ size _ => vFieldWf size d
  | .stf _ d _ size _ => vFieldWf size d
  | .ldi _ d _ size _ => vFieldWf size d
  | .sti _ d _ size _ => vFieldWf size d
  | .lset _ _ kind a _ w => lsetWf kind a w
  | .lnext _ _ k _ => decide (k.val ≠ 0)
  | .ltg _ _ _ _ off width _ => fieldWf width off
  | .lts _ _ _ _ off width => fieldWf width off
  | .calFields _ d _ => decide (1 ≤ d.val ∧ d.val ≤ 30)
  | .calDue _ _ _ w => decide (getBits w 12 19 = 0)
  | .post _ _ _ _ _ len => decide (len.val ≤ 56)
  | .br _ off => decide (off ≠ 0)
  | .brc _ _ off => decide (off ≠ 0)
  | .loop _ _ _ body => decide (body ≠ 0)
  | .raise _ a n => decide (a.val = 0 ∨ n = 0)
  | _ => true

/-- What the outside brings lies in the ranges of its formats. -/
def inputOk : Instr → Bool
  | .frameEdge x _ lost => decide (x.ain.length = 4) && lost.all (fun a => decide (a < 0x300000))
  | .flowUpdate _ lost => lost.all (fun k => decide (k < 262144))
  | .barOpen bad => bad.all (fun n => decide (n < 1024))
  | .radioFrameReceive _ f _ => decide (f.demod < 8 ∧ f.seq < 256 ∧ f.version < 4)
  | .loopSample _ _ x => decide (x.ain.length = 4)
  | .statusReport _ _ _ r => decide (r.level < 65536 ∧ r.power < 65536 ∧ r.energy < 2 ^ 32 ∧ r.store < 256 ∧ r.fw < 65536)
  | .islandSecond q => decide (q.active.length = 3 ∧ q.reactive.length = 3 ∧ q.phases.length = 3 ∧ q.feeders.length = 6)
  | .registerWrite _ _ a _ => decide (a < 0x1000000)
  | _ => true

/-- A well-formed command. -/
def wellFormed (i : Instr) : Bool := i.wordOk && i.inputOk

end Instr

end Sys2Proof
end

