-- ==== Sys2Proof/Certificates/Slice0/Obligations.lean ====
section
/-! DEFINITION. The statements about the model, for the provers. Each is a def Obligations.<Name> : Prop; OBLIGATIONS.json lists
them. The definitions in Sys2Proof.Claims say in the claims' own words what an instruction does to its bead and what it leaves
alone. -/

namespace Sys2Proof.Claims

open Machine

/-- Bead `n` issues on rod `r` and is within its budget (02 R34, R50). -/
def Issues (s : State) (r : Fin 16) (n : Nat) : Prop :=
  s.curBead r = some n ∧ (s.bead n).cycles ≤ s.fld R.ROD_BEAD_BUDGET_BUDGET n

/-- Nothing but bead `n` and the cycles used on rod `r` differs. -/
def OnlyBead (s t : State) (r : Fin 16) (n cyc : Nat) : Prop :=
  t = { s with beads := t.beads, rods := t.rods } ∧ (∀ m, m ≠ n → t.bead m = s.bead m)
    ∧ (∀ q, q ≠ r.val → t.rod q = s.rod q) ∧ t.rod r = { s.rod r with used := (s.rod r).used + cyc }

/-- Of a bead only scalar registers, flags, PC, loops and the cycle count differ, and it has moved `words` words on in sequence. -/
def ScalarOnly (b x : Bead) (cyc words : Nat) : Prop :=
  x = { b with s := x.s, fl := x.fl, pc := x.pc, loops := x.loops, cycles := b.cycles + cyc }
    ∧ (x.pc, x.loops) = Bead.seqLoops b.calls.length (b.pc + words) b.loops

/-- S[d] holds `w`, no other scalar register differs, and S0 reads 0 whatever was written (03 R68). -/
def ScalarResult (b x : Bead) (d : Fin 32) (w : Word) : Prop := ∀ i : Fin 32, x.rs i = if i = d ∧ d.val ≠ 0 then w else b.rs i

/-- The flags whose bit numbers are in `named` may differ; no other bit of FL does. -/
def FlagsKept (b x : Bead) (named : List Nat) : Prop := ∀ i : Fin 16, i.val ∉ named → x.fl.getLsbD i = b.fl.getLsbD i

/-- Z and N of a result. -/
def ZeroNeg (x : Bead) (w : Word) : Prop := x.z = decide (w = 0) ∧ x.n = w.getLsbD 31

/-- The integer is in the range of a 32-bit register. -/
def Fits (v : Int) : Prop := -2147483648 ≤ v ∧ v ≤ 2147483647

/-- sat of 03 R76. -/
def satOf (v : Int) : Int := max (-2147483648) (min v 2147483647)

end Sys2Proof.Claims

open Sys2Proof Sys2Proof.Machine Sys2Proof.Claims

namespace Sys2Proof.Claims

open Machine

/-- The scalar instructions that name Z and N, with their cycles and results (03 R76). -/
def zeroNegRows (x : Bead) (r : Fin 16) (d a b sh : Fin 32) (imm : BitVec 16) : List (Instr × Nat × Word) :=
  let u := x.rs a
  let v := x.rs b
  let n := if b.val = 0 then sh.val else v.toNat % 64
  let sh' := if b.val = 0 then sh else 0
  let left (n : Nat) : Word := if n < 32 then u <<< n else 0
  let right (n : Nat) : Word := if n < 32 then BitVec.ofNat 32 (u.toNat / 2 ^ n) else 0
  let arith (n : Nat) : Word := if n < 32 then BitVec.ofInt 32 (u.toInt / 2 ^ n) else if u.toInt < 0 then 0xFFFFFFFF else 0
  [(.and r d a b, 1, u &&& v), (.or r d a b, 1, u ||| v), (.xor r d a b, 1, u ^^^ v),
   (.shl r d a b sh', 1, left n), (.shr r d a b sh', 1, right n), (.sar r d a b sh', 1, arith n),
   (.min r d a b, 1, BitVec.ofInt 32 (min u.toInt v.toInt)), (.max r d a b, 1, BitVec.ofInt 32 (max u.toInt v.toInt)),
   (.clamp r d a b, 1, BitVec.ofInt 32 (min (max (x.rs d).toInt u.toInt) v.toInt)),
   (.andi r d a imm, 1, u &&& imm.zeroExtend 32), (.ori r d a imm, 1, u ||| imm.zeroExtend 32),
   (.xori r d a imm, 1, u ^^^ imm.zeroExtend 32),
   (.shli r d a sh, 1, left sh), (.shri r d a sh, 1, right sh), (.sari r d a sh, 1, arith sh)]

/-- The instructions that name Z, N, C and V: the instruction, whether it subtracts, whether it writes S[d], and its second operand. -/
def carryRows (x : Bead) (r : Fin 16) (d a b : Fin 32) (imm : BitVec 14) : List (Instr × Bool × Bool × Word) :=
  [(.add r d a b, false, true, x.rs b), (.sub r d a b, true, true, x.rs b), (.cmp r a b, true, false, x.rs b),
   (.addi r d a imm, false, true, imm.signExtend 32), (.cmpi r a imm, true, false, imm.signExtend 32)]

/-- The saturating scalar instructions, with their cycles and exact results before sat; DIVQ here with a divisor other than 0. -/
def satRows (x : Bead) (r : Fin 16) (d a b sh : Fin 32) : List (Instr × Nat × Int) :=
  let u := (x.rs a).toInt
  let v := (x.rs b).toInt
  [(.adds r d a b, 1, u + v), (.subs r d a b, 1, u - v), (.mulq r d a b sh, 2, u * v / 2 ^ sh.val),
   (.macq r d a b sh, 2, (x.rs d).toInt + u * v / 2 ^ sh.val), (.abs r d a, 1, if u < 0 then -u else u)]
    ++ (if v = 0 then [] else [(.divq r d a b sh, 34, Int.tdiv (u * 2 ^ sh.val) v)])

/-- The instructions that load a scalar register and write no flag, with cycles, words and results. -/
def moveRows (x : Bead) (r : Fin 16) (d a b : Fin 32) (cond : Fin 16) (imm : BitVec 16) (w : Word) :
    List (Instr × Nat × Nat × Word) :=
  [(.sel r d a b cond, 1, 1, if x.cond cond then x.rs a else x.rs b), (.mov r d a, 1, 1, x.rs a),
   (.liShort r d imm, 1, 1, imm.signExtend 32), (.lui r d imm, 1, 1, BitVec.ofNat 32 (imm.toNat * 65536)),
   (.liLong r d w, 2, 2, w)]

end Sys2Proof.Claims

/-- 03 R76, rows AND to SAR, MIN, MAX, CLAMP and their immediate forms: the result, Z and N. Rows SEL, MOV, LI and LUI, and NOP of R100: the result, and
no flag written. A register, a flag, a memory or a unit that the row does not name keeps its value. -/
def Obligations.ScalarPlainRows : Prop :=
  (∀ (s : State) (r : Fin 16) (n : Nat) (d a b sh : Fin 32) (imm : BitVec 16), Issues s r n →
      ∀ p ∈ zeroNegRows (s.bead n) r d a b sh imm, ∃ t, exec p.1 s = .next t ∧ OnlyBead s t r n p.2.1
        ∧ ScalarOnly (s.bead n) (t.bead n) p.2.1 1 ∧ ScalarResult (s.bead n) (t.bead n) d p.2.2
        ∧ ZeroNeg (t.bead n) p.2.2 ∧ FlagsKept (s.bead n) (t.bead n) [0, 1])
  ∧ (∀ (s : State) (r : Fin 16) (n : Nat) (d a b : Fin 32) (cond : Fin 16) (imm : BitVec 16) (w : Word), Issues s r n →
      (∀ p ∈ moveRows (s.bead n) r d a b cond imm w, ∃ t, exec p.1 s = .next t ∧ OnlyBead s t r n p.2.1
        ∧ ScalarOnly (s.bead n) (t.bead n) p.2.1 p.2.2.1 ∧ ScalarResult (s.bead n) (t.bead n) d p.2.2.2
        ∧ (t.bead n).fl = (s.bead n).fl)
      ∧ ∃ t, exec (.nop r) s = .next t ∧ OnlyBead s t r n 1 ∧ ScalarOnly (s.bead n) (t.bead n) 1 1
        ∧ (t.bead n).fl = (s.bead n).fl ∧ (t.bead n).s = (s.bead n).s)

/-- 03 R69 and R76, rows ADD, SUB, CMP, ADDI, CMPI: the wrapped result, Z, N, C as carry or borrow, V as signed overflow. -/
def Obligations.ScalarCarryRows : Prop :=
  ∀ (s : State) (r : Fin 16) (n : Nat) (d a b : Fin 32) (imm : BitVec 14), Issues s r n →
    ∀ p ∈ carryRows (s.bead n) r d a b imm, ∃ t, exec p.1 s = .next t ∧ OnlyBead s t r n 1
      ∧ ScalarOnly (s.bead n) (t.bead n) 1 1 ∧ FlagsKept (s.bead n) (t.bead n) [0, 1, 2, 3]
      ∧ (let u := (s.bead n).rs a
         let v := p.2.2.2
         let exact : Int := if p.2.1 then u.toInt - v.toInt else u.toInt + v.toInt
         let w : Word := BitVec.ofInt 32 exact
         (if p.2.2.1 then ScalarResult (s.bead n) (t.bead n) d w else ∀ i : Fin 32, (t.bead n).rs i = (s.bead n).rs i)
         ∧ ZeroNeg (t.bead n) w
         ∧ (t.bead n).c = (if p.2.1 then decide (u.toNat < v.toNat) else decide (4294967296 ≤ u.toNat + v.toNat))
         ∧ ((t.bead n).vf = true ↔ ¬ Fits exact))

/-- 03 R76, the rows with sat: the exact result clamped, Z and N of it, SAT exactly when the clamp changed it; DIVQ by 0 gives 0x7FFF_FFFF for a
dividend of 0 or more, else 0x8000_0000, with SAT set. -/
def Obligations.ScalarSatRows : Prop :=
  (∀ (s : State) (r : Fin 16) (n : Nat) (d a b sh : Fin 32), Issues s r n →
      ∀ p ∈ satRows (s.bead n) r d a b sh, ∃ t, exec p.1 s = .next t ∧ OnlyBead s t r n p.2.1
        ∧ ScalarOnly (s.bead n) (t.bead n) p.2.1 1 ∧ ScalarResult (s.bead n) (t.bead n) d (BitVec.ofInt 32 (satOf p.2.2))
        ∧ ZeroNeg (t.bead n) (BitVec.ofInt 32 (satOf p.2.2)) ∧ ((t.bead n).sat = true ↔ ¬ Fits p.2.2)
        ∧ FlagsKept (s.bead n) (t.bead n) [0, 1, 4])
  ∧ (∀ (s : State) (r : Fin 16) (n : Nat) (d a b sh : Fin 32), Issues s r n → (s.bead n).rs b = 0 →
      ∃ t, exec (.divq r d a b sh) s = .next t ∧ OnlyBead s t r n 34 ∧ ScalarOnly (s.bead n) (t.bead n) 34 1
        ∧ ScalarResult (s.bead n) (t.bead n) d (if 0 ≤ ((s.bead n).rs a).toInt then 0x7FFFFFFF else 0x80000000)
        ∧ (t.bead n).sat = true ∧ FlagsKept (s.bead n) (t.bead n) [0, 1, 4])

namespace Sys2Proof.Claims

open Machine

/-- Of a bead only vector lanes, flags, PC, loops and the cycle count differ, and it has moved one word on in sequence. -/
def VectorOnly (b x : Bead) (cyc : Nat) : Prop :=
  x = { b with v := x.v, fl := x.fl, pc := x.pc, loops := x.loops, cycles := b.cycles + cyc }
    ∧ (x.pc, x.loops) = Bead.seqLoops b.calls.length (b.pc + 1) b.loops

/-- Lane `j` of V[d] holds `w j` where `p j`; no other lane of any vector register differs. -/
def LaneResult (b x : Bead) (d : Fin 16) (p : Fin 16 → Prop) (w : Fin 16 → Word) : Prop :=
  (∀ j, p j → x.rv d j = w j) ∧ (∀ j, ¬ p j → x.rv d j = b.rv d j) ∧ ∀ v j : Fin 16, v ≠ d → x.rv v j = b.rv v j

/-- Lane `j` is enabled by M[k]; M0 enables every lane. -/
def laneOn (b : Bead) (k : Fin 4) (j : Fin 16) : Bool := decide (k.val = 0) || (b.rm k).getLsbD j

def Enabled (b : Bead) (k : Fin 4) (j : Fin 16) : Prop := laneOn b k j = true

/-- The lane-wise instructions that name SAT: cycles, exact result of a lane, and whether it saturates rather than wraps (03 R77). -/
def laneSatRows (x : Bead) (r : Fin 16) (d a : Fin 16) (o : VB) (k : Fin 4) (p : Bool) (sh : Fin 32) :
    List (Instr × Nat × (Fin 16 → Int) × Bool) :=
  let u (j : Fin 16) : Int := (x.rv a j).toInt
  let v (j : Fin 16) : Int := (x.rb o j).toInt
  [(.vadd r d a o k p, 1, fun j => u j + v j, p), (.vsub r d a o k p, 1, fun j => u j - v j, p),
   (.vmulq r d a o k sh, 2, fun j => u j * v j / 2 ^ sh.val, true),
   (.vmacq r d a o k sh, 2, fun j => (x.rv d j).toInt + u j * v j / 2 ^ sh.val, true)]

/-- The lane-wise instructions that name no flag. -/
def laneRows (x : Bead) (r : Fin 16) (d a : Fin 16) (o : VB) (k : Fin 4) : List (Instr × (Fin 16 → Int)) :=
  let u (j : Fin 16) : Int := (x.rv a j).toInt
  let v (j : Fin 16) : Int := (x.rb o j).toInt
  [(.vmin r d a o k, fun j => min (u j) (v j)), (.vmax r d a o k, fun j => max (u j) (v j)),
   (.vclamp r d a o k, fun j => min (max (x.rv d j).toInt (u j)) (v j))]

/-- The condition codes of VCMP on a pair of lanes (03 R71). -/
def pairCond (code : Fin 8) (u v : Word) : Prop :=
  match code.val with
  | 0 => u = v
  | 1 => u ≠ v
  | 2 => u.toInt < v.toInt
  | 3 => v.toInt ≤ u.toInt
  | 4 => u.toNat < v.toNat
  | 5 => v.toNat ≤ u.toNat
  | 6 => u.toInt ≤ v.toInt
  | _ => v.toInt < u.toInt

/-- The enabled lanes of a vector register as integers, lane 0 first. -/
def enabledInts (b : Bead) (a : Fin 16) (k : Fin 4) : List Int :=
  ((List.finRange 16).filter (fun j : Fin 16 => laneOn b k j)).map (fun j : Fin 16 => (b.rv a j).toInt)

end Sys2Proof.Claims

/-- 03 R77, VADD, VSUB, VMULQ, VMACQ: enabled lanes take their result, wrapped or saturated; the others, and every other register, keep theirs; SAT is
set exactly when an enabled lane saturates. VMIN, VMAX, VCLAMP on the enabled lanes, and VSEL on every lane; no flag is written. -/
def Obligations.VectorLaneRows : Prop :=
  (∀ (s : State) (r : Fin 16) (n : Nat) (d a : Fin 16) (o : VB) (k : Fin 4) (w : Bool) (sh : Fin 32), Issues s r n →
      ∀ p ∈ laneSatRows (s.bead n) r d a o k w sh, ∃ t, exec p.1 s = .next t ∧ OnlyBead s t r n p.2.1
        ∧ VectorOnly (s.bead n) (t.bead n) p.2.1 ∧ FlagsKept (s.bead n) (t.bead n) [4]
        ∧ LaneResult (s.bead n) (t.bead n) d (Enabled (s.bead n) k)
            (fun j => BitVec.ofInt 32 (if p.2.2.2 then satOf (p.2.2.1 j) else p.2.2.1 j))
        ∧ ((t.bead n).sat = true ↔ p.2.2.2 = true ∧ ∃ j, Enabled (s.bead n) k j ∧ ¬ Fits (p.2.2.1 j)))
  ∧ (∀ (s : State) (r : Fin 16) (n : Nat) (d a : Fin 16) (o : VB) (k : Fin 4), Issues s r n →
      (∀ p ∈ laneRows (s.bead n) r d a o k, ∃ t, exec p.1 s = .next t ∧ OnlyBead s t r n 1
        ∧ VectorOnly (s.bead n) (t.bead n) 1 ∧ (t.bead n).fl = (s.bead n).fl
        ∧ LaneResult (s.bead n) (t.bead n) d (Enabled (s.bead n) k) (fun j => BitVec.ofInt 32 (p.2 j)))
      ∧ ∃ t, exec (.vsel r d a o k) s = .next t ∧ OnlyBead s t r n 1 ∧ VectorOnly (s.bead n) (t.bead n) 1
        ∧ (t.bead n).fl = (s.bead n).fl
        ∧ (∀ j, Enabled (s.bead n) k j → (t.bead n).rv d j = (s.bead n).rv a j)
        ∧ (∀ j, ¬ Enabled (s.bead n) k j → (t.bead n).rv d j = (s.bead n).rb o j)
        ∧ ∀ v j : Fin 16, v ≠ d → (t.bead n).rv v j = (s.bead n).rv v j)

/-- 03 R77, VCMP: bit j of M[t] is 1 exactly when lane j is enabled and its condition holds; Z tells M[t] = 0. VRED: SUM is the exact sum of the enabled
lanes shifted right and saturated; MIN and MAX are the least and the greatest; with no lane enabled the result is 0. -/
def Obligations.VectorCompareReduce : Prop :=
  (∀ (s : State) (r : Fin 16) (n : Nat) (m : Fin 4) (a : Fin 16) (o : VB) (k : Fin 4) (code : Fin 8), Issues s r n → m.val ≠ 0 →
      ∃ t, exec (.vcmp r m a o k code) s = .next t ∧ OnlyBead s t r n 1
        ∧ t.bead n = { s.bead n with m := (t.bead n).m, fl := (t.bead n).fl, pc := (t.bead n).pc, loops := (t.bead n).loops
                                     cycles := (s.bead n).cycles + 1 }
        ∧ (∀ j : Fin 16, ((t.bead n).rm m).getLsbD j = true ↔
            Enabled (s.bead n) k j ∧ pairCond code ((s.bead n).rv a j) ((s.bead n).rb o j))
        ∧ (∀ q : Fin 4, q ≠ m → (t.bead n).rm q = (s.bead n).rm q)
        ∧ ((t.bead n).z = true ↔ (t.bead n).rm m = 0) ∧ FlagsKept (s.bead n) (t.bead n) [0])
  ∧ (∀ (s : State) (r : Fin 16) (n : Nat) (d : Fin 32) (a : Fin 16) (k : Fin 4) (sh : Fin 32), Issues s r n →
      (∃ t, exec (.vredSum r d a k sh) s = .next t ∧ OnlyBead s t r n 4 ∧ ScalarOnly (s.bead n) (t.bead n) 4 1
        ∧ (let e := (enabledInts (s.bead n) a k).sum / 2 ^ sh.val
           ScalarResult (s.bead n) (t.bead n) d (BitVec.ofInt 32 (satOf e)) ∧ ZeroNeg (t.bead n) (BitVec.ofInt 32 (satOf e))
           ∧ ((t.bead n).sat = true ↔ ¬ Fits e) ∧ FlagsKept (s.bead n) (t.bead n) [0, 1, 4]))
      ∧ (∃ t w, exec (.vredMin r d a k) s = .next t ∧ OnlyBead s t r n 4 ∧ ScalarOnly (s.bead n) (t.bead n) 4 1
        ∧ ScalarResult (s.bead n) (t.bead n) d w ∧ ZeroNeg (t.bead n) w ∧ FlagsKept (s.bead n) (t.bead n) [0, 1]
        ∧ (enabledInts (s.bead n) a k = [] → w = 0)
        ∧ (enabledInts (s.bead n) a k ≠ [] → w.toInt ∈ enabledInts (s.bead n) a k ∧ ∀ i ∈ enabledInts (s.bead n) a k, w.toInt ≤ i))
      ∧ (∃ t w, exec (.vredMax r d a k) s = .next t ∧ OnlyBead s t r n 4 ∧ ScalarOnly (s.bead n) (t.bead n) 4 1
        ∧ ScalarResult (s.bead n) (t.bead n) d w ∧ ZeroNeg (t.bead n) w ∧ FlagsKept (s.bead n) (t.bead n) [0, 1]
        ∧ (enabledInts (s.bead n) a k = [] → w = 0)
        ∧ (enabledInts (s.bead n) a k ≠ [] → w.toInt ∈ enabledInts (s.bead n) a k ∧ ∀ i ∈ enabledInts (s.bead n) a k, i ≤ w.toInt)))

namespace Sys2Proof.Claims

open Machine

/-- An access through the frame port leaves everything but the beads, the rods, three kinds of register and which pending sources found the
rod busy (04 R114) as it was; the other beads at most stop being parked, the other rods are untouched (02 R29, R30). -/
def PortFrame (s t : State) (r : Fin 16) (n cyc : Nat) : Prop :=
  t = { s with beads := t.beads, rods := t.rods, regs := t.regs, imem := t.imem, icu := { s.icu with busyAt := t.icu.busyAt } }
    ∧ (∀ m, m ≠ n → t.bead m = { s.bead m with parked := (t.bead m).parked })
    ∧ (∀ q, q ≠ r.val → t.rod q = s.rod q) ∧ (t.rod r).used = (s.rod r).used + cyc
    ∧ ∀ a, a ≠ R.ROD_CUR_SLOT.at r 0 → a ≠ R.ICU_RUNPRI_RP.at r 0 → (∀ m, a ≠ R.ROD_BEAD_STATE_STATE.at m 0) → t.rd a = s.rd a

/-- A byte of F as bead `b` sees it: its own logged word, else the committed image it reads (02 R38). -/
def viewByte (s : State) (b : Bead) (a : Nat) : Nat :=
  match b.logged (a - a % 4) with
  | some w => w.toNat / 256 ^ (a % 4) % 256
  | none => (SMap.find (State.fDflt a) s.seenF a).toNat

/-- A byte of C or I, by the address space of LDI (03 R78). -/
def codeByte (s : State) (a : Nat) : Nat := (SMap.find 0 (if 0x1000000 ≤ a then s.cmem else s.imem) a).toNat

/-- The number in `n` bytes from `a` on, the lowest address least significant. -/
def littleEndian (bytes : Nat → Nat) (a n : Nat) : Nat := ((List.range n).map (fun i => bytes (a + i) * 256 ^ i)).sum

/-- Bytes of an access by its size code (03 R78). -/
def accessBytes (size : Fin 4) : Nat := if size.val = 3 then 64 else 2 ^ size.val

/-- What a load leaves in its bead: S[d] zero-extended, or all lanes of V[d]. -/
def LoadResult (b x : Bead) (size : Fin 4) (d : Fin 32) (bytes : Nat → Nat) (a : Nat) : Prop :=
  if size.val = 3 then
    x.s = b.s ∧ ∀ v j : Fin 16, x.rv v j = if v.val = d.val then BitVec.ofNat 32 (littleEndian bytes (a + 4 * j) 4) else b.rv v j
  else x.v = b.v ∧ ScalarResult b x d (BitVec.ofNat 32 (littleEndian bytes a (accessBytes size)))

/-- Byte `i` of what a store stores: of S[d], or of the lanes of V[d]. -/
def storedByte (b : Bead) (size : Fin 4) (d : Fin 32) (i : Nat) : Nat :=
  if size.val = 3 then (b.rv d (i / 4)).toNat / 256 ^ (i % 4) % 256 else (b.rs d).toNat / 256 ^ i % 256

/-- The bead has gone FAULTED with a cause at the PC of the instruction, and its logs are gone (03 R103). -/
def FaultedBy (s t : State) (n : Nat) (cause : Status) : Prop :=
  t.beadState n = 6 ∧ t.fld R.ROD_BEAD_FAULT_CAUSE n = cause.code ∧ t.fld R.ROD_BEAD_FAULT_PC n = (s.bead n).pc % 2 ^ 24
    ∧ (t.bead n).wlog = [] ∧ (t.bead n).olog = [] ∧ t.fmem = s.fmem ∧ t.imem = s.imem ∧ t.cmem = s.cmem ∧ t.bar = s.bar ∧ t.out = s.out

/-- FL[15:8] holds a status; the other flags not named keep their values. -/
def StatusSet (b x : Bead) (st : Status) (named : List Nat) : Prop := x.st = st.code ∧ ∀ i : Fin 8, i.val ∉ named → x.fl.getLsbD i = b.fl.getLsbD i

/-- Some enabled lane of V[a] names a LID beyond the variant. -/
def laneBeyond (s : State) (b : Bead) (a : Fin 16) (k : Fin 4) : Bool :=
  (List.finRange 16).any (fun j : Fin 16 => laneOn b k j && decide (s.part.lanterns ≤ (b.rv a j).toNat))

end Sys2Proof.Claims

/-- 03 R78 and R79, LDF and LDI: an aligned, granted access loads the bytes that the bead sees, zero-extended or into 16 lanes, moves on, and parks at
the frame port; no byte of F, I or C changes. The model's own choices that it rests on: log entries 7, 13, 21. -/
def Obligations.LoadsRead : Prop :=
  ∀ (s : State) (r : Fin 16) (n : Nat) (d a : Fin 32) (size : Fin 4) (imm : BitVec 14), Issues s r n →
    (size.val = 3 → d.val < 16) →
    let b := s.bead n
    let ea := (b.rs a + imm.signExtend 32).toNat
    ea % accessBytes size = 0 →
    (s.mayLoad (s.mpi b) ea (accessBytes size) = true →
      ∃ t, exec (.ldf r d a size imm) s = .next t ∧ PortFrame s t r n 2 ∧ t.imem = s.imem
        ∧ t.bead n = { b with s := (t.bead n).s, v := (t.bead n).v, pc := (t.bead n).pc, loops := (t.bead n).loops
                              cycles := b.cycles + 2, parked := (t.bead n).parked }
        ∧ ((t.bead n).pc, (t.bead n).loops) = Bead.seqLoops b.calls.length (b.pc + 1) b.loops
        ∧ LoadResult b (t.bead n) size d (viewByte s b) ea)
    ∧ ((mayI (s.mpi b) ea (accessBytes size) || inConst (s.mpi b) ea (accessBytes size)) = true →
      ∃ t, exec (.ldi r d a size imm) s = .next t ∧ PortFrame s t r n 2 ∧ t.imem = s.imem
        ∧ t.bead n = { b with s := (t.bead n).s, v := (t.bead n).v, pc := (t.bead n).pc, loops := (t.bead n).loops
                              cycles := b.cycles + 2, parked := (t.bead n).parked }
        ∧ ((t.bead n).pc, (t.bead n).loops) = Bead.seqLoops b.calls.length (b.pc + 1) b.loops
        ∧ LoadResult b (t.bead n) size d (codeByte s) ea)

/-- 03 R78 and R79, STF and STI: an aligned, granted STF puts its bytes into the bead's own view of F and no other, leaving the committed F alone; STI
writes exactly its bytes of I at once. The model's own choices that it rests on: log entries 13, 20, 21. -/
def Obligations.StoresWrite : Prop :=
  ∀ (s : State) (r : Fin 16) (n : Nat) (d a : Fin 32) (size : Fin 4) (imm : BitVec 14), Issues s r n →
    (size.val = 3 → d.val < 16) →
    let b := s.bead n
    let ea := (b.rs a + imm.signExtend 32).toNat
    ea % accessBytes size = 0 →
    (s.mayStore (s.mpi b) ea (accessBytes size) = true → s.poolUsed + 16 ≤ 262144 →
      ∃ t, exec (.stf r d a size imm) s = .next t ∧ OnlyBead s t r n 1
        ∧ t.bead n = { b with wlog := (t.bead n).wlog, entries := (t.bead n).entries, pc := (t.bead n).pc, loops := (t.bead n).loops
                              cycles := b.cycles + 1 }
        ∧ (∀ q, viewByte t (t.bead n) q = if ea ≤ q ∧ q < ea + accessBytes size then storedByte b size d (q - ea) else viewByte s b q))
    ∧ (mayI (s.mpi b) ea (accessBytes size) = true →
      ∃ t, exec (.sti r d a size imm) s = .next t ∧ PortFrame s t r n 1
        ∧ t.bead n = { b with touched := true, pc := (t.bead n).pc, loops := (t.bead n).loops, cycles := b.cycles + 1
                              parked := (t.bead n).parked }
        ∧ (∀ q, (SMap.find 0 t.imem q).toNat =
            if ea ≤ q ∧ q < ea + accessBytes size then storedByte b size d (q - ea) else (SMap.find 0 s.imem q).toNat))

/-- 03 R84, LTG and LTS on a granted, aligned field that the module does not own: each enabled lane reads or logs the field of the record it names,
the highest lane standing; a LID beyond the variant reads 0 and logs nothing, with RANGE; LTS leaves the committed F alone. A field outside the
grant, or one that the module owns (05 R139, class M), faults the bead with RANGE. The model's own choices that it rests on: log entries 13, 20, 133. -/
def Obligations.LaneFields : Prop :=
  ∀ (s : State) (r : Fin 16) (n : Nat) (d a : Fin 16) (k : Fin 4) (off : Fin 128) (width : Fin 4) (sx : Bool), Issues s r n →
    width.val ≠ 3 → off.val % 2 ^ width.val = 0 →
    let b := s.bead n
    let z := 2 ^ width.val
    let lid (j : Fin 16) : Nat := (b.rv a j).toNat
    let st : Status := if laneBeyond s b a k then .range else .ok
    ((∀ i : Fin z, (s.mpi b).granted 2 0 (off + i) = true ∧ off.val + i.val < 64) →
      ∃ t, exec (.ltg r d a k off width sx) s = .next t ∧ PortFrame s t r n 3 ∧ t.imem = s.imem
        ∧ t.bead n = { b with v := (t.bead n).v, fl := (t.bead n).fl, pc := (t.bead n).pc, loops := (t.bead n).loops
                              cycles := b.cycles + 3, parked := (t.bead n).parked }
        ∧ LaneResult b (t.bead n) d (Enabled b k) (fun j =>
            if s.part.lanterns ≤ lid j then 0
            else
              let v := littleEndian (viewByte s b) (128 * lid j + off) z
              if sx then BitVec.ofInt 32 (if v < 2 ^ (8 * z - 1) then (v : Int) else (v : Int) - 2 ^ (8 * z)) else BitVec.ofNat 32 v)
        ∧ StatusSet b (t.bead n) st [])
    ∧ ((∀ i : Fin z, (s.mpi b).granted 2 1 (off + i) = true ∧ 32 ≤ off.val + i.val ∧ off.val + i.val < 64) → s.poolUsed + 16 ≤ 262144 →
      ∃ t, exec (.lts r d a k off width) s = .next t ∧ OnlyBead s t r n 3
        ∧ t.bead n = { b with wlog := (t.bead n).wlog, entries := (t.bead n).entries, fl := (t.bead n).fl, pc := (t.bead n).pc
                              loops := (t.bead n).loops, cycles := b.cycles + 3 }
        ∧ (∀ j, Enabled b k j → lid j < s.part.lanterns → (∀ i, j < i → Enabled b k i → lid i ≠ lid j) →
            ∀ i : Fin z, viewByte t (t.bead n) (128 * lid j + off + i) = (b.rv d j).toNat / 256 ^ i.val % 256)
        ∧ (∀ q, (∀ j, Enabled b k j → lid j < s.part.lanterns → q < 128 * lid j + off ∨ 128 * lid j + off + z ≤ q) →
            viewByte t (t.bead n) q = viewByte s b q)
        ∧ StatusSet b (t.bead n) st [])
    ∧ ((∃ i : Fin z, (s.mpi b).granted 2 0 (off + i) = false ∨ 64 ≤ off.val + i.val) →
      ∃ t, exec (.ltg r d a k off width sx) s = .next t ∧ FaultedBy s t n .range)
    ∧ ((∃ i : Fin z, (s.mpi b).granted 2 1 (off + i) = false ∨ 64 ≤ off.val + i.val) →
      ∃ t, exec (.lts r d a k off width) s = .next t ∧ FaultedBy s t n .range)

/-- 03 R82, LSET: the cursor's new selection holds the commissioned lanterns of the kind, limited by INTERSECT to the earlier one, in the order of the
kind, its position at the start; a range reaching beyond the variant gives RANGE. 05 R139: of a memory in canonical form, the commissioned lanterns
are the LIDs below the variant's count whose record has COMMISSIONED set, ascending. The model's own choices that it rests on: log entries 119, 159. -/
def Obligations.LanternSets : Prop :=
  (∀ (s : State) (r : Fin 16) (n : Nat) (c : Fin 2) (kind : Fin 6) (a : Fin 32) (inter : Bool) (w : Word), Issues s r n →
      Instr.wordOk (.lset r c kind a inter w) = true →
      let b := s.bead n
      let f := s.seenF
      let mask := (b.rs a).toNat + (b.rs (a + 1)).toNat * 2 ^ 32
      let earlier := (b.cursor c).sel
      let named (l : Nat) : Prop := match kind.val with
        | 0 => w.toNat % 1024 ∈ groupsOf f l
        | 1 => recNat f l 0x10 8 &&& mask ≠ 0
        | 2 => 1 ≤ recNat f l 3 1 % 8 ∧ recNat f l 3 1 % 8 ≤ 6 ∧ w.getLsbD (recNat f l 3 1 % 8 - 1) = true
        | 3 => w.toNat % 4096 ≤ recNat f l 0x18 2 ∧ recNat f l 0x18 2 ≤ w.toNat / 65536 % 4096
        | 4 => w.toNat % 16384 ≤ l ∧ l ≤ w.toNat / 65536 % 16384
        | _ => True
      let place (l : Nat) : Nat := recNat f l 0x18 2 * 2 ^ 24 + recNat f l 0x1A 1 * 2 ^ 16 + l
      ∃ t, exec (.lset r c kind a inter w) s = .next t ∧ OnlyBead s t r n 4
        ∧ t.bead n = { b with c0 := (t.bead n).c0, c1 := (t.bead n).c1, fl := (t.bead n).fl, pc := (t.bead n).pc
                              loops := (t.bead n).loops, cycles := b.cycles + 4 }
        ∧ (∀ q : Fin 2, q ≠ c → (t.bead n).cursor q = b.cursor q) ∧ ((t.bead n).cursor c).pos = 0
        ∧ (∀ l, l ∈ ((t.bead n).cursor c).sel ↔ l ∈ commissioned f s.part.lanterns ∧ named l ∧ (inter = true → l ∈ earlier))
        ∧ (kind.val ≠ 3 → ((t.bead n).cursor c).sel.Sublist (commissioned f s.part.lanterns))
        ∧ (kind.val = 3 → ((t.bead n).cursor c).sel.Pairwise (fun p q => place p ≤ place q))
        ∧ StatusSet b (t.bead n) (if kind.val = 4 ∧ w.toNat % 16384 ≤ w.toNat / 65536 % 16384
            ∧ s.part.lanterns ≤ w.toNat / 65536 % 16384 then .range else .ok) [])
  ∧ (∀ (f : SMap Byte) (m : Nat), SMap.wf State.fDflt f = true → m ≤ 16384 →
      (∀ l, l ∈ commissioned f m ↔ l < m ∧ recComm f l = true) ∧ (commissioned f m).Pairwise (· < ·))

/-- 03 R83, LNEXT: lane j takes the j-th LID left in the cursor, or 0xFFFF_FFFF; M[k] marks the lanes filled; D tells that no LID is left. The model's
own choices that it rests on: log entry 13. -/
def Obligations.LanternBatch : Prop :=
  ∀ (s : State) (r : Fin 16) (n : Nat) (d : Fin 16) (k : Fin 4) (c : Fin 2), Issues s r n → k.val ≠ 0 →
    let b := s.bead n
    let left := (b.cursor c).sel.drop (b.cursor c).pos
    ∃ t, exec (.lnext r d k c) s = .next t ∧ PortFrame s t r n 3 ∧ t.imem = s.imem
      ∧ t.bead n = { b with v := (t.bead n).v, m := (t.bead n).m, c0 := (t.bead n).c0, c1 := (t.bead n).c1, fl := (t.bead n).fl
                            pc := (t.bead n).pc, loops := (t.bead n).loops, cycles := b.cycles + 3, parked := (t.bead n).parked }
      ∧ LaneResult b (t.bead n) d (fun _ => True) (fun j => if j.val < left.length then BitVec.ofNat 32 (left.getD j 0) else 0xFFFFFFFF)
      ∧ (∀ j : Fin 16, ((t.bead n).rm k).getLsbD j = decide (j.val < left.length)) ∧ (∀ q : Fin 4, q ≠ k → (t.bead n).rm q = b.rm q)
      ∧ ((t.bead n).cursor c).sel = (b.cursor c).sel
      ∧ (b.cursor c).sel.drop ((t.bead n).cursor c).pos = left.drop 16
      ∧ (∀ q : Fin 2, q ≠ c → (t.bead n).cursor q = b.cursor q)
      ∧ ((t.bead n).d = true ↔ left.length ≤ 16) ∧ FlagsKept b (t.bead n) [5]

/-- 03 R85, TLI on a well-formed table in C: the interpolated output, saturated, with Z, N and SAT. The model's own choices that it rests on: log entry
13. -/
def Obligations.TableLookup : Prop :=
  ∀ (s : State) (r : Fin 16) (n : Nat) (d a b : Fin 32), Issues s r n →
    let x := s.bead n
    let base := (x.rs b).toNat
    let word (i : Nat) : Word := BitVec.ofNat 32 (littleEndian (fun q => (SMap.find 0 s.cmem q).toNat) (base + 4 * i) 4)
    let count := (word 0).toNat % 256
    let xs := (word 0).toNat / 256 % 32
    base % 4 = 0 → (count = 17 ∨ count = 33) → xs ≤ 26 → (word 0).toNat / 8192 = 0 →
    inConst (s.mpi x) base 4 = true → inConst (s.mpi x) base (4 * (count + 2)) = true →
    let u : Int := max 0 (min ((x.rs a).toInt - (word 1).toInt) ((count - 1 : Nat) * 2 ^ xs))
    let i := (u / 2 ^ xs).toNat
    let y (q : Nat) : Int := (word (2 + q)).toInt
    let v : Int := if i = count - 1 then y i else y i + (y (i + 1) - y i) * (u - i * 2 ^ xs) / 2 ^ xs
    ∃ t, exec (.tli r d a b) s = .next t ∧ PortFrame s t r n 6 ∧ t.imem = s.imem
      ∧ t.bead n = { x with s := (t.bead n).s, fl := (t.bead n).fl, pc := (t.bead n).pc, loops := (t.bead n).loops
                            cycles := x.cycles + 6, parked := (t.bead n).parked }
      ∧ ScalarResult x (t.bead n) d (BitVec.ofInt 32 (satOf v)) ∧ ZeroNeg (t.bead n) (BitVec.ofInt 32 (satOf v))
      ∧ ((t.bead n).sat = true ↔ ¬ Fits v) ∧ FlagsKept x (t.bead n) [0, 1, 4]

namespace Sys2Proof.Claims

open Machine

/-- Of a bead only scalar registers, flags, PC, loops, cycles and what it has logged for output differ. -/
def OutputOnly (b x : Bead) (cyc : Nat) : Prop :=
  x = { b with s := x.s, fl := x.fl, pc := x.pc, loops := x.loops, cycles := b.cycles + cyc, olog := x.olog, entries := x.entries
               openB := x.openB, posts := x.posts }

/-- The bead has logged one output request of `k` entries, and nothing else of its logs differs. -/
def LoggedOne (b x : Bead) (o : OutReq) (k : Nat) : Prop := x.olog = b.olog ++ [o] ∧ x.entries = b.entries + k

/-- The bead has logged nothing. -/
def LoggedNone (b x : Bead) : Prop := x.olog = b.olog ∧ x.entries = b.entries ∧ x.openB = b.openB ∧ x.posts = b.posts

/-- The result of TIME by kind (03 R86), for a pass whose edge time is known; `us` is what kind 5 reads. -/
def timeResult (b : Bead) (us : Nat) (kind : Fin 7) : Nat :=
  match kind.val with
  | 0 => b.passFrame
  | 1 => b.passFrame / 4294967296
  | 2 => b.passMs / 1000
  | 3 => b.passMs / 1000 / 4294967296 % 65536
  | 4 => b.passMs % 1000
  | 5 => us
  | _ => b.passSrc

end Sys2Proof.Claims

/-- 03 R86 and R87, TIME: the value of each kind; kinds 2 to 4 give 0 and INVALID when the time of the edge is not known; otherwise OK. -/
def Obligations.TimeKinds : Prop :=
  ∀ (s : State) (r : Fin 16) (n : Nat) (d : Fin 32) (kind : Fin 7) (us : Fin 20000), Issues s r n →
    let b := s.bead n
    let unknown := !b.passKnown && decide (2 ≤ kind.val ∧ kind.val ≤ 4)
    ∃ t, exec (.time r d kind us) s = .next t ∧ OnlyBead s { t with fr := s.fr } r n 1
      ∧ t.fr = { s.fr with nowUs := if kind.val = 5 then max s.fr.nowUs us else s.fr.nowUs }
      ∧ ScalarOnly b (t.bead n) 1 1
      ∧ ScalarResult b (t.bead n) d (if unknown then 0 else BitVec.ofNat 32 (timeResult b t.fr.nowUs kind))
      ∧ StatusSet b (t.bead n) (if unknown then .invalid else .ok) []

/-- 03 R88 and R89, CAL.FIELDS and CAL.DUE: the local calendar's two words, and whether the activation window holds the local time of day, with what DST
made of it. 03 R87, R90 and R91, SUN and SUNEV: by the module's own sun model at the pass frame edge, the elevation within 0.1 degree of the true
one and rounded to 1/256 degree with halves away from zero, and the frames to the next crossing; INVALID without a time or a site, RANGE where there is none. The model's own choices
that it rests on: log entries 9, 11, 23, 35. -/
def Obligations.CalendarAndSun : Prop :=
  ((∀ (s : State) (r : Fin 16) (n : Nat) (d a : Fin 32), Issues s r n → 1 ≤ d.val → d.val ≤ 30 →
        let b := s.bead n
        let shown := s.utcShown (((20 * b.passFrame : Nat) : Int) + (b.rs a).toInt * 1000)
        let zone := zoneOf s.seenF (s.bit R.LTAB_STAT_TZ_VALID)
        let utc := shown.1 / 1000
        let day := localOf zone utc % 86400
        ∃ t w0 w1, exec (.calFields r d a) s = .next t ∧ OnlyBead s { t with free := s.free } r n 24
          ∧ ScalarOnly b (t.bead n) 24 2
          ∧ (∀ i : Fin 32, (t.bead n).rs i = if i = d then w0 else if i.val = d.val + 1 then w1 else b.rs i)
          ∧ (b.passKnown = false → w0 = 0 ∧ w1 = 0 ∧ StatusSet b (t.bead n) .invalid [])
          ∧ (b.passKnown = true → StatusSet b (t.bead n) (if s.bit R.LTAB_STAT_TZ_VALID ∧ s.bit R.LTAB_STAT_HOL_VALID then .ok else .invalid) []
            ∧ (zone = [] ∨ 2000 ≤ utcYear utc →
                (w1.toNat % 64 : Int) = day % 60 ∧ (w1.toNat / 64 % 64 : Int) = day % 3600 / 60 ∧ (w1.toNat / 4096 % 32 : Int) = day / 3600
                ∧ (w1.toNat / 131072 : Int) = shown.1 % 1000
                ∧ w0 = (calFields s.seenF zone (s.bit R.LTAB_STAT_HOL_VALID) shown.1 shown.2 (Config.free s.free)).1)))
    ∧ (∀ (s : State) (r : Fin 16) (n : Nat) (d a : Fin 32) (w : Word), Issues s r n → w.toNat / 4096 % 524288 = 0 →
        let b := s.bead n
        let T := (b.rs a).toNat
        let zone := zoneOf s.seenF (s.bit R.LTAB_STAT_TZ_VALID)
        let width := w.toNat % 4096
        let frames := if width ≠ 0 then width else match b.lastCommit with
          | some m => if b.passFrame ≤ m ∧ b.stepped = true then 1 else min 3000 (b.passFrame - m)
          | none => 1
        let utc (q : Int) : Int := (s.utcShown (20 * q)).1
        let hi : Int := utc b.passFrame
        let lo : Int := utc ((b.passFrame : Int) - (frames : Int))
        let days := ([-1, 0, 1, 2] : List Int).map (fun q => localOf zone (lo / 1000) / 86400 + q)
        let found (c : Int × Bool × Bool) : Prop := (∃ q ∈ days, c ∈ candidates zone q T w.msb) ∧ lo < c.1 * 1000 ∧ c.1 * 1000 ≤ hi
        ∃ t v, exec (.calDue r d a w) s = .next t ∧ OnlyBead s t r n 24 ∧ ScalarOnly b (t.bead n) 24 2
          ∧ ScalarResult b (t.bead n) d v
          ∧ (b.passKnown = false → v = 0 ∧ StatusSet b (t.bead n) .invalid [])
          ∧ (b.passKnown = true → 86399 < T ∨ 3000 < width → v = 0 ∧ StatusSet b (t.bead n) .range [])
          ∧ (b.passKnown = true → T ≤ 86399 → width ≤ 3000 →
              StatusSet b (t.bead n) (if s.bit R.LTAB_STAT_TZ_VALID then .ok else .invalid) []
              ∧ ((∀ c, ¬ found c) → v = 0)
              ∧ ((∃ c, found c) → ∃ c, found c ∧ v = BitVec.ofNat 32 (1 + (if c.2.1 then 2 else 0) + (if c.2.2 then 4 else 0))))))
  ∧ (∀ (s : State) (r : Fin 16) (n : Nat) (d a : Fin 32) (rising : Bool), Issues s r n →
      let b := s.bead n
      let ready := b.passKnown = true ∧ s.bit R.LTAB_STAT_SITE_VALID = true
      let lat := (segWord s.seenF 0x20C004).toInt
      let lon := (segWord s.seenF 0x20C008).toInt
      let e := (b.rs a).toInt
      let cross := sunCrossing lat lon b.passMs e rising
      (∃ t v, exec (.sun r d) s = .next t ∧ OnlyBead s t r n 2 ∧ ScalarOnly b (t.bead n) 2 1 ∧ ScalarResult b (t.bead n) d v
        ∧ (¬ ready → v = 0 ∧ StatusSet b (t.bead n) .invalid [])
        ∧ (ready → StatusSet b (t.bead n) .ok [] ∧ ∃ q : Int, v = BitVec.ofInt 32 q
            ∧ (let deg := sunElevation lat lon b.passMs
               10 * (deg - Config.sunTrue lat lon b.passMs).natAbs ≤ 16777216 ∧
               2 * (65536 * q - deg).natAbs ≤ 65536 ∧ (2 * (65536 * q - deg).natAbs = 65536 → deg.natAbs ≤ (65536 * q).natAbs))))
      ∧ ∃ t v, exec (.sunev r d a rising) s = .next t ∧ OnlyBead s t r n 160 ∧ ScalarOnly b (t.bead n) 160 1
        ∧ ScalarResult b (t.bead n) d v
        ∧ (¬ ready → v = 0 ∧ StatusSet b (t.bead n) .invalid [])
        ∧ (ready → (e < -23040 ∨ 23040 < e ∨ cross = none ∨ (∃ dt, cross = some dt ∧ 172800000 < dt)) →
            v = 0xFFFFFFFF ∧ StatusSet b (t.bead n) .range [])
        ∧ (ready → -23040 ≤ e → e ≤ 23040 → ∀ dt, cross = some dt → dt ≤ 172800000 →
            StatusSet b (t.bead n) .ok [] ∧ dt ≤ 20 * v.toNat ∧ 20 * v.toNat < dt + 20))

/-- 03 R92, FLOWRD: each enabled lane gets the presence that the snapshot holds for its LID at horizon h; beyond the variant 0 with RANGE; with the
reckoner not ready at the SNAP of the pass frame every enabled lane gets 0 and NOT_READY. R93, FLOWDET: logs one detection, of the event's arrival time in an activation
and of the pass frame edge otherwise; class or direction 3 is INVALID, else a LID beyond the variant or a speed over 65,535 RANGE, else
NOT_READY without the reckoner, with nothing logged. The model's own choices that it rests on: log entries 13, 24. -/
def Obligations.FlowInstructions : Prop :=
  (∀ (s : State) (r : Fin 16) (n : Nat) (d a : Fin 16) (k h : Fin 4), Issues s r n →
      let b := s.bead n
      let lid (j : Fin 16) : Nat := (b.rv a j).toNat
      ∃ t, exec (.flowrd r d a k h) s = .next t ∧ PortFrame s t r n 3 ∧ t.imem = s.imem
        ∧ t.bead n = { b with v := (t.bead n).v, fl := (t.bead n).fl, pc := (t.bead n).pc, loops := (t.bead n).loops
                              cycles := b.cycles + 3, parked := (t.bead n).parked }
        ∧ LaneResult b (t.bead n) d (Enabled b k) (fun j =>
            if b.passFlow = true ∧ lid j < s.part.lanterns then
              BitVec.ofNat 32 (littleEndian (fun q => (SMap.find (State.fDflt q) s.seenF q).toNat) (0x280000 + 8 * lid j + 2 * h) 2)
            else 0)
        ∧ StatusSet b (t.bead n) (if b.passFlow then (if laneBeyond s b a k then .range else .ok) else .notReady) [])
  ∧ (∀ (s : State) (r : Fin 16) (n : Nat) (a c : Fin 32), Issues s r n → s.poolUsed + 16 ≤ 262144 →
      let b := s.bead n
      let w := (b.rs a).toNat
      let speed := (b.rs c).toNat
      let bad := w / 16384 % 4 = 3 ∨ w / 65536 % 4 = 3
      let far := s.part.lanterns ≤ w % 16384 ∨ 65535 < speed
      ∃ t, exec (.flowdet r a c) s = .next t ∧ OnlyBead s t r n 2 ∧ OutputOnly b (t.bead n) 2 ∧ (t.bead n).s = b.s
        ∧ (bad → LoggedNone b (t.bead n) ∧ StatusSet b (t.bead n) .invalid [])
        ∧ (¬ bad → far → LoggedNone b (t.bead n) ∧ StatusSet b (t.bead n) .range [])
        ∧ (¬ bad → ¬ far → s.ready 9 = false → LoggedNone b (t.bead n) ∧ StatusSet b (t.bead n) .notReady [])
        ∧ (¬ bad → ¬ far → s.ready 9 = true → StatusSet b (t.bead n) .ok []
            ∧ LoggedOne b (t.bead n) (.flowdet (w % 16384) (w / 16384 % 4) (w / 65536 % 4) speed
                (if s.fld R.ROD_BEAD_STATE_CLASS n = 1 then b.arrivalNs else b.passEdgeNs)) 1))

/-- 03 R80, PORTRD and PORTWR: an address that is no register gives INVALID; a forbidden or ungranted register faults with AUTH; a refused access gives
its status; otherwise PORTRD returns the live value and PORTWR logs the write, with OK. The model's own choices that it rests on: log entry 101. -/
def Obligations.PortAccess : Prop :=
  ∀ (s : State) (r : Fin 16) (n : Nat) (d a : Fin 32) (imm : BitVec 14), Issues s r n → s.poolUsed + 16 ≤ 262144 →
    let b := s.bead n
    let ea := (b.rs a + imm.signExtend 32).toNat
    let open_ := 0x20000 ≤ ea ∧ ea < 0x40000
    let rs := s.readStatus (.bead n) ea
    let ws := s.writeStatus (.bead n) ea (b.rs d)
    let mayRead := portForbidden ea = false ∧ (open_ ∨ (s.mpi b).port ea false = true)
    let mayWrite := programMayWrite ea = true ∧ (s.mpi b).port ea true = true
    (isRegister ea = false →
      (∃ t, exec (.portrd r d a imm) s = .next t ∧ OnlyBead s t r n 6 ∧ ScalarResult b (t.bead n) d 0 ∧ StatusSet b (t.bead n) .invalid [])
      ∧ ∃ t, exec (.portwr r d a imm) s = .next t ∧ OnlyBead s t r n 1 ∧ LoggedNone b (t.bead n) ∧ StatusSet b (t.bead n) .invalid [])
    ∧ (isRegister ea = true → ¬ mayRead → ∃ t, exec (.portrd r d a imm) s = .next t ∧ FaultedBy s t n .auth)
    ∧ (isRegister ea = true → ¬ mayWrite → ∃ t, exec (.portwr r d a imm) s = .next t ∧ FaultedBy s t n .auth)
    ∧ (isRegister ea = true → mayRead → ∃ t, exec (.portrd r d a imm) s = .next t ∧ OnlyBead s { t with host := s.host } r n 6
        ∧ ScalarOnly b (t.bead n) 6 1 ∧ StatusSet b (t.bead n) rs []
        ∧ ScalarResult b (t.bead n) d (if rs = .ok then s.regSeen (.bead n) ea else 0)
        ∧ (State.latches ea = [] → t.host = s.host))
    ∧ (isRegister ea = true → mayWrite → ∃ t, exec (.portwr r d a imm) s = .next t ∧ OnlyBead s t r n 1
        ∧ OutputOnly b (t.bead n) 1 ∧ (t.bead n).s = b.s ∧ StatusSet b (t.bead n) ws []
        ∧ (if ws = .ok then LoggedOne b (t.bead n) (.portwr ea (b.rs d)) 1 else LoggedNone b (t.bead n)))

namespace Sys2Proof.Claims

open Machine

/-- A lane of LVL names a LID that the variant has and the image's lantern grant covers (03 R95). -/
def stages (s : State) (b : Bead) (a : Fin 16) (k : Fin 4) (j : Fin 16) : Bool :=
  laneOn b k j && decide ((b.rv a j).toNat < s.part.lanterns) && (s.mpi b).lantern (b.rv a j).toNat

/-- A level, clamped to 0 to 65,535 (03 R94). -/
def clampedLevel (w : Word) : Nat := (max 0 (min w.toInt 65535)).toNat

/-- The level that an open broadcast holds for a LID. -/
def levelIn (levels : List (Nat × Nat)) (lid : Nat) : Option Nat := (levels.find? (fun e => decide (e.1 = lid))).map (fun e => e.2)

end Sys2Proof.Claims

/-- 03 R94 and R95, LVL: for each enabled lane that may, the clamped level is staged in the open broadcast, the highest lane of a LID standing and the
other LIDs keeping theirs; RANGE over AUTH over OK; SAT tells whether a staged level was clamped. R96, TLB: closes the open broadcast with an offset
of S[a] clamped to 2 to 250 frames, RANGE when it clamps; with none open it logs nothing and gives INVALID. -/
def Obligations.BroadcastInstructions : Prop :=
  (∀ (s : State) (r : Fin 16) (n : Nat) (a : Fin 16) (o : VB) (k : Fin 4), Issues s r n → s.poolUsed + 16 ≤ 262144 →
      let b := s.bead n
      let on (j : Fin 16) : Bool := stages s b a k j
      let before := b.openB.getD []
      ∃ t levels, exec (.lvl r a o k) s = .next t ∧ OnlyBead s t r n 2 ∧ OutputOnly b (t.bead n) 2 ∧ (t.bead n).s = b.s
        ∧ (t.bead n).openB = some levels ∧ (t.bead n).olog = b.olog ∧ (t.bead n).posts = b.posts
        ∧ (∀ j, on j = true → (∀ i, j < i → on i = true → b.rv a i ≠ b.rv a j) →
            levelIn levels (b.rv a j).toNat = some (clampedLevel (b.rb o j)))
        ∧ (∀ l, (∀ j, on j = true → (b.rv a j).toNat ≠ l) → levelIn levels l = levelIn before l)
        ∧ ((t.bead n).sat = true ↔ ∃ j, on j = true ∧ ((b.rb o j).toInt < 0 ∨ 65535 < (b.rb o j).toInt))
        ∧ StatusSet b (t.bead n) (if laneBeyond s b a k then .range
            else if (List.finRange 16).any (fun j => laneOn b k j && !on j) then .auth else .ok) [4])
  ∧ (∀ (s : State) (r : Fin 16) (n : Nat) (a : Fin 32) (fade : BitVec 14), Issues s r n → s.poolUsed + 16 ≤ 262144 →
      let b := s.bead n
      let k := (b.rs a).toInt
      ∃ t, exec (.tlb r a fade) s = .next t ∧ OnlyBead s t r n 3 ∧ OutputOnly b (t.bead n) 3 ∧ (t.bead n).s = b.s
        ∧ (b.openB = none → LoggedNone b (t.bead n) ∧ StatusSet b (t.bead n) .invalid [])
        ∧ (∀ levels, b.openB = some levels → (t.bead n).openB = none
            ∧ LoggedOne b (t.bead n) (.bcast levels (max 2 (min k 250)).toNat fade.toNat) 1
            ∧ StatusSet b (t.bead n) (if 2 ≤ k ∧ k ≤ 250 then .ok else .range) []))

/-- 03 R94 and R98, POST: a LID beyond the variant gives RANGE, one outside the grant AUTH, one not commissioned INVALID, each with d := 0 and nothing
logged; otherwise the command is logged with the handle of the bead and its next count, and OK. -/
def Obligations.PostCommand : Prop :=
  ∀ (s : State) (r : Fin 16) (n : Nat) (d a : Fin 32) (v : Fin 16) (cmd : BitVec 8) (len : Fin 64),
    Issues s r n → len.val ≤ 56 → s.poolUsed + 16 ≤ 262144 →
    let b := s.bead n
    let lid := (b.rs a).toNat
    let count := if b.posts % 4194303 = 0 then 1 else b.posts % 4194303 + 1
    ∃ t, exec (.post r d a v cmd len) s = .next t ∧ OnlyBead s t r n 4 ∧ OutputOnly b (t.bead n) 4
      ∧ (s.part.lanterns ≤ lid → LoggedNone b (t.bead n) ∧ ScalarResult b (t.bead n) d 0 ∧ StatusSet b (t.bead n) .range [])
      ∧ (lid < s.part.lanterns → (s.mpi b).lantern lid = false →
          LoggedNone b (t.bead n) ∧ ScalarResult b (t.bead n) d 0 ∧ StatusSet b (t.bead n) .auth [])
      ∧ (lid < s.part.lanterns → (s.mpi b).lantern lid = true → recComm s.seenF lid = false →
          LoggedNone b (t.bead n) ∧ ScalarResult b (t.bead n) d 0 ∧ StatusSet b (t.bead n) .invalid [])
      ∧ (lid < s.part.lanterns → (s.mpi b).lantern lid = true → recComm s.seenF lid = true →
          (t.bead n).posts = count ∧ StatusSet b (t.bead n) .ok [] ∧ ScalarResult b (t.bead n) d (BitVec.ofNat 32 (n * 4194304 + count))
          ∧ ∃ bytes : List Byte, LoggedOne b (t.bead n) (.post (n * 4194304 + count) lid cmd.toNat bytes) (1 + (len.val + 7) / 8)
              ∧ bytes.length = len.val
              ∧ ∀ i, i < len.val → bytes.getD i 0 = BitVec.ofNat 8 ((b.rv v (i / 4)).toNat / 256 ^ (i % 4)))

/-- 03 R97 and R99, DRVSET and TALLY: a channel beyond the variant gives RANGE, one outside the grant faults with AUTH, else without DRV it is NOT_READY,
else the clamped level is logged; TALLY is NOT_READY until a settlement, else logs the request and returns the smaller of it and the headroom. The model's own choices that it
rests on: log entry 22. -/
def Obligations.DriveAndTally : Prop :=
  ∀ (s : State) (r : Fin 16) (n : Nat) (d a c : Fin 32), Issues s r n → s.poolUsed + 16 ≤ 262144 →
    let b := s.bead n
    let ch := (b.rs a).toNat
    let mw := (b.rs c).toNat
    let mask := ch % 128
    let use := if mask = 0 then b.branches.getD 127 else mask
    let head (f : Nat) : Nat := if use.testBit f then s.fld R.PWR_FEEDER_HEAD_MW (if f = 6 then 7 else f) else 0
    (s.part.chans ≤ ch → ∃ t, exec (.drvset r a c) s = .next t ∧ OnlyBead s t r n 2 ∧ OutputOnly b (t.bead n) 2
      ∧ LoggedNone b (t.bead n) ∧ StatusSet b (t.bead n) .range [])
    ∧ (ch < s.part.chans → (s.mpi b).channel ch = false → ∃ t, exec (.drvset r a c) s = .next t ∧ FaultedBy s t n .auth)
    ∧ (ch < s.part.chans → (s.mpi b).channel ch = true → ∃ t, exec (.drvset r a c) s = .next t ∧ OnlyBead s t r n 2
      ∧ OutputOnly b (t.bead n) 2
      ∧ (s.ready 3 = true → LoggedOne b (t.bead n) (.drvset ch (clampedLevel (b.rs c))) 1 ∧ StatusSet b (t.bead n) .ok [])
      ∧ (s.ready 3 = false → LoggedNone b (t.bead n) ∧ StatusSet b (t.bead n) .notReady []))
    ∧ ∃ t, exec (.tally r d a c) s = .next t ∧ OnlyBead s t r n 3 ∧ OutputOnly b (t.bead n) 3
      ∧ (s.bit R.PWR_TALLY_STAT_READY = false → LoggedNone b (t.bead n) ∧ ScalarResult b (t.bead n) d 0
          ∧ StatusSet b (t.bead n) .notReady [])
      ∧ (s.bit R.PWR_TALLY_STAT_READY = true → LoggedOne b (t.bead n) (.tally mask mw) 1 ∧ StatusSet b (t.bead n) .ok []
          ∧ ScalarResult b (t.bead n) d (BitVec.ofNat 32 (min mw (min (s.fld R.PWR_TALLY_HEAD_MW)
              (head 0 + head 1 + head 2 + head 3 + head 4 + head 5 + head 6)))))

namespace Sys2Proof.Claims

open Machine

/-- Of a bead only PC, the two stacks and the cycle count differ. -/
def ControlOnly (b x : Bead) (cyc : Nat) : Prop := x = { b with pc := x.pc, loops := x.loops, calls := x.calls, cycles := b.cycles + cyc }

/-- The loops still active after a branch to `pc`: those at the top whose body the target lies beyond are gone (03 R102). -/
def loopsAfter (b : Bead) (pc : Nat) : List LoopCtx :=
  b.loops.dropWhile (fun l => decide (l.stop ≤ pc ∧ l.depth = b.calls.length))

/-- What the end of a pass leaves of its bead: its log queued for the bar behind those queued before, or discarded, its own logs empty, its
cycles shown. -/
def PassEnded (s t : State) (n cyc : Nat) (discards : Bool) : Prop :=
  let b := s.bead n
  t.bar.queue = s.bar.queue ++ (if discards then [] else [⟨n, b.passFrame, b.wlog, b.olog, b.entries⟩]) ∧ (t.bead n).wlog = [] ∧ (t.bead n).olog = []
    ∧ (t.bead n).openB = none ∧ t.fld R.ROD_BEAD_CYCLES_LAST n = (b.cycles + cyc) % 2 ^ 23
    ∧ t.fmem = s.fmem ∧ t.imem = s.imem ∧ t.cmem = s.cmem

end Sys2Proof.Claims

/-- 03 R100 and R102, BR and BRC: the target is PC + OFF, and loops that end before it are popped; a BRC whose condition fails goes on. LOOP enters its
body with its count, or skips it with a count of 0; CALL pushes the next word; RET returns there, with the loops pushed since the CALL gone; at the
end of a LOOP body with iterations left control returns to its first word with one iteration fewer, and on the last of an only loop it goes on. -/
def Obligations.BranchesLoopsCalls : Prop :=
  (∀ (s : State) (r : Fin 16) (n : Nat) (cond : Fin 16) (off : BitVec 16), Issues s r n → off ≠ 0 →
      let b := s.bead n
      let pc := b.pc + off.toNat
      (∃ t, exec (.br r off) s = .next t ∧ OnlyBead s t r n 1 ∧ ControlOnly b (t.bead n) 1 ∧ (t.bead n).calls = b.calls
        ∧ (t.bead n).pc = pc ∧ (t.bead n).loops = loopsAfter b pc)
      ∧ ∃ t, exec (.brc r cond off) s = .next t ∧ OnlyBead s t r n 1 ∧ ControlOnly b (t.bead n) 1 ∧ (t.bead n).calls = b.calls
        ∧ (if b.cond cond then (t.bead n).pc = pc ∧ (t.bead n).loops = loopsAfter b pc
           else ((t.bead n).pc, (t.bead n).loops) = Bead.seqLoops b.calls.length (b.pc + 1) b.loops))
  ∧ ((∀ (s : State) (r : Fin 16) (n : Nat) (a : Fin 32) (max : BitVec 12) (body : BitVec 9) (addr : BitVec 16), Issues s r n → body ≠ 0 →
        let b := s.bead n
        let limit := max.toNat + 1
        let count := if a.val = 0 then limit else if (b.rs a).toNat < limit then (b.rs a).toNat else limit
        (∃ t, exec (.loop r a max body) s = .next t ∧ OnlyBead s t r n 2 ∧ ControlOnly b (t.bead n) 2 ∧ (t.bead n).calls = b.calls
          ∧ (if count = 0 then ((t.bead n).pc, (t.bead n).loops) = Bead.seqLoops b.calls.length (b.pc + 1 + body.toNat) b.loops
             else (t.bead n).pc = b.pc + 1 ∧ (t.bead n).loops = ⟨count, b.pc + 1, b.pc + 1 + body.toNat, b.calls.length⟩ :: b.loops))
        ∧ (∃ t, exec (.call r addr) s = .next t ∧ OnlyBead s t r n 2 ∧ ControlOnly b (t.bead n) 2 ∧ (t.bead n).loops = b.loops
          ∧ (t.bead n).pc = addr.toNat ∧ (t.bead n).calls = (b.pc + 1) :: b.calls)
        ∧ (∀ q rest, b.calls = q :: rest → ∃ t, exec (.ret r) s = .next t ∧ OnlyBead s t r n 2 ∧ ControlOnly b (t.bead n) 2
          ∧ (t.bead n).calls = rest
          ∧ ((t.bead n).pc, (t.bead n).loops) = Bead.seqLoops rest.length q (b.loops.filter (fun l => decide (l.depth ≤ rest.length)))))
    ∧ (∀ (s : State) (r : Fin 16) (n : Nat) (l : LoopCtx) (rest : List LoopCtx), Issues s r n →
        (s.bead n).loops = l :: rest → l.stop = (s.bead n).pc + 1 → l.depth = (s.bead n).calls.length →
        ∃ t, exec (.nop r) s = .next t ∧ OnlyBead s t r n 1 ∧ ControlOnly (s.bead n) (t.bead n) 1
          ∧ (1 < l.count → (t.bead n).pc = l.first ∧ (t.bead n).loops = { l with count := l.count - 1 } :: rest)
          ∧ (l.count ≤ 1 → (rest = [] → (t.bead n).pc = (s.bead n).pc + 1 ∧ (t.bead n).loops = []))))

/-- 03 R100 and 02 R34, R41: HALT, EVWAIT, and RET with an empty call stack end the pass: its log is queued for the bar; the bead is HALTED after HALT,
else, with its claim's service ended, WAIT_EVENT, WAIT_FRAME or HALTED by its class; IDLE where a STOP was requested (log entry 130). 04 R477: HALT in an
activation whose claim is in service discards its log. 02 R50: one whose cycles take the count above the budget ends no pass; its abort is due (log
entry 16). The model's own choices that it rests on: log entry 161. -/
def Obligations.PassEnds : Prop :=
  ∀ (s : State) (r : Fin 16) (n : Nat), Issues s r n →
    let b := s.bead n
    let byClass := if b.stopReq then 0 else if s.fld R.ROD_BEAD_STATE_CLASS n = 2 then 5 else if s.fld R.ROD_BEAD_STATE_CLASS n = 1 then 3 else 4
    let budget := s.fld R.ROD_BEAD_BUDGET_BUDGET n
    let unserved := decide (s.fld R.ROD_BEAD_STATE_CLASS n = 1 ∧ (s.rod r).handler = some (n % 64) ∧ (s.target r).svc ≠ none)
    (b.cycles + 1 ≤ budget → ∃ t, exec (.halt r) s = .next t ∧ PassEnded s t n 1 unserved ∧ t.beadState n = (if b.stopReq then 0 else 5))
    ∧ (b.cycles + 2 ≤ budget →
      (∃ t, exec (.evwait r) s = .next t ∧ PassEnded s t n 2 false ∧ ((s.target r).svc = none → t.beadState n = byClass))
      ∧ (b.calls = [] → ∃ t, exec (.ret r) s = .next t ∧ PassEnded s t n 2 false ∧ ((s.target r).svc = none → t.beadState n = byClass)))
    ∧ (budget < b.cycles + 1 → ∃ t, exec (.halt r) s = .next t ∧ OnlyBead s t r n 1 ∧ t.bead n = { b with cycles := b.cycles + 1 })
    ∧ (budget < b.cycles + 2 → ∃ t, exec (.evwait r) s = .next t ∧ OnlyBead s t r n 2 ∧ t.bead n = { b with cycles := b.cycles + 2 }
      ∧ (b.calls = [] → exec (.ret r) s = .next t))

/-- 04 R119, EOI with no source of higher priority than the value to restore: the in-service flag of the claimed source clears, the running
priority is restored, and the handler on a rod goes on after its EOI with the claim word as it was (R118), within its budget. The model's own choices
that it rests on: log entry 17. -/
def Obligations.EndOfService : Prop :=
  ∀ (s : State) (t : Fin 18) (ev : EntryEvent) (prev : Nat), (s.target t).svc = some prev →
    let w := s.claim t
    let src := w.toNat % 256
    let v := if w.getLsbD 16 then (s.target t).priv.headD 0 else prev
    (∀ q : Fin 256, s.fld R.ICU_SRC_CFG_PRIO q ≤ v) →
    (∀ (h : t.val < 16) (n : Nat), s.curBead t = some n → (s.bead n).cycles + 5 ≤ s.fld R.ROD_BEAD_BUDGET_BUDGET n →
      (s.rod t).handler = some (n % 64) →
      ∃ z, exec (.eoi t ev) s = .next z ∧ z.bit R.ICU_SRC_STAT_INSVC src = false ∧ z.fld R.ICU_RUNPRI_RP t = v % 16
        ∧ z.claim t = w ∧ (z.target t).svc = none ∧ ControlOnly { s.bead n with touched := true } (z.bead n) 5
        ∧ ((z.bead n).pc, (z.bead n).loops) = Bead.seqLoops (s.bead n).calls.length ((s.bead n).pc + 1) (s.bead n).loops
        ∧ z.fmem = s.fmem ∧ z.imem = s.imem ∧ z.bar = s.bar ∧ z.out = s.out)
    ∧ (16 ≤ t.val → ∃ z, exec (.eoi t ev) s = .next z ∧ z.bit R.ICU_SRC_STAT_INSVC src = false ∧ z.fld R.ICU_RUNPRI_RP t = v % 16
        ∧ z.beads = s.beads ∧ z.fmem = s.fmem ∧ z.imem = s.imem ∧ z.bar = s.bar ∧ z.out = s.out)

/-- 03 R73, R79, R103 and 02 R50: FAULT, an instruction word against the encoding rules and a misaligned access fault the bead with INVALID; an aligned
access outside the space or the grants with RANGE; a bead over its budget, and an idle rod, issue nothing. The model's own choices that it rests on:
log entries 14, 15, 16. -/
def Obligations.InstructionFaults : Prop :=
  (∀ (s : State) (r : Fin 16) (n : Nat), Issues s r n →
      (∀ code : BitVec 14, ∃ t, exec (.fault r code) s = .next t ∧ FaultedBy s t n .invalid)
      ∧ (∃ t, exec (.br r 0) s = .next t ∧ FaultedBy s t n .invalid)
      ∧ (∀ (d a b sh : Fin 32), b.val ≠ 0 → sh.val ≠ 0 → ∀ c ∈ [Instr.shl r d a b sh, .shr r d a b sh, .sar r d a b sh],
          ∃ t, exec c s = .next t ∧ FaultedBy s t n .invalid)
      ∧ (∀ (d a : Fin 32) (v : Fin 16) (cmd : BitVec 8) (len : Fin 64), 56 < len.val →
          ∃ t, exec (.post r d a v cmd len) s = .next t ∧ FaultedBy s t n .invalid)
      ∧ (∀ (d a : Fin 32) (imm : BitVec 14), 16 ≤ d.val → ∀ c ∈ [Instr.ldf r d a 3 imm, .stf r d a 3 imm, .ldi r d a 3 imm, .sti r d a 3 imm],
          ∃ t, exec c s = .next t ∧ FaultedBy s t n .invalid))
  ∧ (∀ (s : State) (r : Fin 16) (n : Nat) (d a : Fin 32) (size : Fin 4) (imm : BitVec 14), Issues s r n →
      (size.val = 3 → d.val < 16) →
      let b := s.bead n
      let m := s.mpi b
      let ea := (b.rs a + imm.signExtend 32).toNat
      (ea % accessBytes size ≠ 0 → ∀ c ∈ [Instr.ldf r d a size imm, .stf r d a size imm, .ldi r d a size imm, .sti r d a size imm],
        ∃ t, exec c s = .next t ∧ FaultedBy s t n .invalid)
      ∧ (ea % accessBytes size = 0 →
        (s.mayLoad m ea (accessBytes size) = false → ∃ t, exec (.ldf r d a size imm) s = .next t ∧ FaultedBy s t n .range)
        ∧ (s.mayStore m ea (accessBytes size) = false → ∃ t, exec (.stf r d a size imm) s = .next t ∧ FaultedBy s t n .range)
        ∧ ((mayI m ea (accessBytes size) || inConst m ea (accessBytes size)) = false →
            ∃ t, exec (.ldi r d a size imm) s = .next t ∧ FaultedBy s t n .range)
        ∧ (mayI m ea (accessBytes size) = false → ∃ t, exec (.sti r d a size imm) s = .next t ∧ FaultedBy s t n .range)))
  ∧ (∀ (s : State) (r : Fin 16) (d a b : Fin 32),
      (s.curBead r = none ∨ ∃ n, s.curBead r = some n ∧ s.fld R.ROD_BEAD_BUDGET_BUDGET n < (s.bead n).cycles) →
      exec (.add r d a b) s = .next s ∧ exec (.nop r) s = .next s ∧ exec (.evwait r) s = .next s)

namespace Sys2Proof.Claims

open Machine

/-- Nothing but registers, the time inside the frame and what the block has sent differs, and of the registers only those at the addresses
of `as`. -/
def OnlyRegs (s t : State) (as : List Nat) : Prop :=
  t = { s with regs := t.regs, fr := { s.fr with nowUs := t.fr.nowUs }, out := t.out } ∧ ∀ a, a ∉ as → t.rd a = s.rd a

/-- A requester's write of `v` at `a` passes the checks of 01 R26, 19 R430 and the range of its register. -/
def WriteAccepted (s : State) (who : Requester) (us : Fin 20000) (a : Nat) (v : Word) : Prop :=
  s.asks who = true ∧ (s.atUs us).writeStatus who a v = .ok

/-- The requester has its answer, and the block has sent nothing else. -/
def Answered (s t : State) (who : Requester) (st : Status) : Prop := t.out = s.out ++ [.status who st]

end Sys2Proof.Claims

namespace Sys2Proof.Claims

open Machine

/-- The last tasks of 14 R354 in their order: number, energy in mJ, and the function of 01 R21 that each needs. -/
def lastTasks : List (Nat × Nat × Nat) := [(1, 20, 11), (2, 150, 7), (3, 50, 5)]

/-- The first last task after number `k` whose energy is there and whose function is ready. -/
def firstTask (s : State) (k mj : Nat) : Option Nat :=
  (lastTasks.find? (fun x => decide (k < x.1 ∧ x.2.1 ≤ mj) && s.ready x.2.2)).map (·.1)

/-- The main domain has started: QUARTZ or AGATE, in SNAP, with no bead context, rod context or staged work from before, and no last task. -/
def Started (s t : State) (kind : Nat) : Prop :=
  t.pwr.mode = .on ∧ t.pwr.vaux = true ∧ t.pwr.paused = false ∧ t.pwr.task = none ∧ t.fr.phase = .snap ∧ t.fr.mono = 0
    ∧ t.part = s.part ∧ t.pending = s.pending ∧ t.fld R.PWR_STAT_START = kind ∧ t.bit R.PWR_EVT_ONYX = decide (kind = 1)
    ∧ t.ready 0 = true ∧ t.ready 1 = true ∧ t.ready 2 = true ∧ t.beads = [] ∧ t.rods = [] ∧ t.imem = []

end Sys2Proof.Claims

/-- 01 R20, R21 and 14 R349, R353 to R356: VAUX valid brings the main domain up, in SNAP, with its start recorded and RTC, BKP and WCH ready, unless a
last task still runs or a bar is still in progress, which a warm start then follows; VAUX lost stops frames, those of a bar in progress when it is complete, lets no function be ready but those of the always-on domain and of the
last tasks, counts the entry, records the store's charge, and starts the first last task that can run; a last task that completes is recorded done
and the next that can run follows; the deadline skips what is left, and the main domain is off; VAUX that came back while the last tasks run and is lost again only ends the wait for the warm start; a function that comes
ready sets its bit of SYS_READY and its time. The model's own choices that it rests on: log entries 7, 41, 44, 45, 48, 134. -/
def Obligations.PowerStates : Prop :=
  (∀ (s : State) (us : Nat) (count : Fin 32768),
      (s.pwr.mode = .off → ∃ t, exec (.vauxValid us count) s = .next t ∧ Started s t 0)
      ∧ (s.pwr.mode = .backup → ∃ t, exec (.vauxValid us count) s = .next t ∧ Started s t 2)
      ∧ (s.pwr.mode = .onyx → s.pwr.task = none → s.fr.phase = .stopped → ∃ t, exec (.vauxValid us count) s = .next t ∧ Started s t 1
          ∧ t.fr.edgeNs = (s.atUs us).nowNs)
      ∧ (s.pwr.mode = .onyx → (s.pwr.task ≠ none ∨ s.fr.phase ≠ .stopped) → ∃ t, exec (.vauxValid us count) s = .next t
          ∧ t = { s with pwr := { s.pwr with vaux := true, warmWait := true }, fr := { s.fr with nowUs := max s.fr.nowUs us }, rtc := t.rtc }
          ∧ t.rtc.base = count)
      ∧ (s.pwr.mode = .on → exec (.vauxValid us count) s = .next s))
  ∧ (∀ (s : State) (n : Fin 18) (us : Fin 20000), s.pwr.mode = .on → (s.pwr.paused = false ∨ n.val = 11 ∨ n.val = 12) → s.ready n = false →
      (n.val ∈ [6, 11, 14, 15] ∨ (n.val = 3 ∧ s.drv.storeRead = true) ∨ (n.val ∈ [9, 10, 16] ∧ (s.flt.step = 0 ∨ s.flt.step = 6))
          ∨ (n.val = 12 ∧ 2 ≤ s.part.trxs ∧ s.bit R.PWR_STAT_STATE = false) →
        ∃ t, exec (.functionReady n us) s = .next t ∧ OnlyRegs s t [4, 0x100 + 4 * n] ∧ t.ready n = true
          ∧ (∀ k : Fin 32, k.val ≠ n.val → t.ready k = s.ready k)
          ∧ t.fld R.SYS_READY_TIME_FRAME n = s.fld R.SYS_FRAME_COUNT_COUNT)
      ∧ (n.val = 4 → s.drv.storeRead = true → ∃ t, exec (.functionReady n us) s = .next t ∧ t.ready 4 = true ∧ t.fmem = s.fmem ∧ t.beads = s.beads)
      ∧ (n.val = 7 → ∃ t, exec (.functionReady n us) s = .next t ∧ t.ready 7 = true ∧ t.evr.early = [] ∧ t.wch.logq = []
          ∧ t.fmem = s.fmem ∧ t.beads = s.beads)
      ∧ (n.val = 8 → (s.flt.step = 0 ∨ s.flt.step = 6) → ∃ t, exec (.functionReady n us) s = .next t ∧ t.bit R.LTAB_STAT_RESTORED = true
          ∧ t.ready 8 = !s.bit R.ROD_FLT_STAT_HOLD ∧ t.fmem = s.fmem ∧ t.beads = s.beads)
      ∧ (n.val ∈ [0, 1, 2, 5, 13, 17] → exec (.functionReady n us) s = .next (s.atUs us)))
  ∧ (∀ (s : State) (us : Fin 20000) (store mj : Nat), s.pwr.mode = .on →
      let bar := decide (s.fr.phase = .bar)
      ∃ t, exec (.vauxLost us store mj) s = .next t ∧ t.pwr.mode = .onyx ∧ t.fr.phase = (if bar then .bar else .stopped) ∧ t.pwr.paused = false ∧ t.pwr.vaux = false
        ∧ t.pwr.onyxNs = (s.atUs us).nowNs ∧ t.fld R.PWR_ONYX_PCT = min 100 (storePct store) ∧ t.fld R.PWR_ONYX_DONE = 0
        ∧ t.fld R.PWR_CNT_ONYX = min 65535 (s.fld R.PWR_CNT_ONYX + 1) ∧ t.icu.level.getLsbD 0 = true ∧ t.fmem = s.fmem
        ∧ t.bar = (if bar then { s.bar with host := t.bar.host } else {}) ∧ t.ready 8 = (bar && s.ready 8)
        ∧ (∀ n : Fin 18, n.val ∉ [0, 1, 2, 5, 7, 8, 11] → t.ready n = false) ∧ t.pwr.task = firstTask s 0 mj)
  ∧ (∀ (s : State) (us : Fin 20000) (store mj : Nat), s.pwr.mode ≠ .on →
      ∃ t, exec (.vauxLost us store mj) s = .next t
        ∧ t = if s.pwr.vaux then { s with pwr := { s.pwr with vaux := false, warmWait := false } } else s)
  ∧ (∀ (s : State) (us mj k : Nat), s.pwr.mode = .onyx → s.pwr.task = some k → 1 ≤ k → k ≤ 3 →
      (s.pwr.warmWait = false →
        ∃ t, exec (.lastTaskComplete us mj) s = .next t ∧ t.pwr.mode = .onyx ∧ t.pwr.task = firstTask s k mj
          ∧ t.fld R.PWR_ONYX_DONE = (s.fld R.PWR_ONYX_DONE + 2 ^ (k - 1)) % 8
          ∧ (k = 2 → t.evr.ops.nandHead = s.evr.ops.head ∧ t.evr.sec.nandHead = s.evr.sec.head ∧ t.evr.met.nandHead = s.evr.met.head))
      ∧ (s.pwr.warmWait = false → ∃ t, exec .onyxDeadline s = .next t ∧ t.pwr.mode = .onyx ∧ t.pwr.task = none
          ∧ (∀ n : Fin 18, 3 ≤ n.val → t.ready n = false)
          ∧ t.fld R.PWR_ONYX_SKIPPED = (s.fld R.PWR_ONYX_SKIPPED ||| (8 - 2 ^ (k - 1))) % 8)
      ∧ (s.pwr.warmWait = true → ∃ t, exec .onyxDeadline s = .next t ∧ Started s t 1)
      ∧ (s.pwr.warmWait = true → s.fr.phase = .stopped → firstTask s k mj = none → ∃ t, exec (.lastTaskComplete us mj) s = .next t ∧ Started s t 1))

/-- 14 R345 to R352 and 05 R142: the store's discharge in ONYX leaves BACKUP or nothing, and nothing happens where VAUX has come back; the backup source's loss and return show in PWR_STAT; the
measured capacitance, the request for AGATE and the saving of the configuration take effect. The model's own choices that it rests on: log entries
43, 96, 122. -/
def Obligations.SupplyCommands : Prop :=
  (∀ s : State, s.pwr.mode = .onyx → s.pwr.vaux = false →
      ∃ t, exec .storeLost s = .next t ∧ t.pwr.mode = (if s.pwr.vbkp then .backup else .off)
      ∧ t.pwr.task = none ∧ t.fr.phase = .stopped ∧ (s.fr.phase = .stopped → t.regs = s.regs) ∧ t.nand = s.nand ∧ t.rtc = s.rtc)
  ∧ (∀ s : State, s.pwr.vaux = true → exec .storeLost s = .next s)
  ∧ (∀ s : State, ∃ t, exec .vbkpLost s = .next t ∧ t.pwr.vbkp = false ∧ t.pwr.mode = (if s.pwr.mode = .backup then .off else s.pwr.mode)
      ∧ t.bit R.PWR_STAT_VBKP_OK = false ∧ (∀ a, a ≠ R.PWR_STAT_VBKP_OK.addr → t.rd a = s.rd a) ∧ t.fmem = s.fmem ∧ t.beads = s.beads)
  ∧ (∀ s : State, s.pwr.mode ≠ .off → ∃ t, exec .vbkpValid s = .next t ∧ t.pwr = { s.pwr with vbkp := true }
      ∧ t.bit R.PWR_STAT_VBKP_OK = true ∧ (∀ a, a ≠ R.PWR_STAT_VBKP_OK.addr → t.rd a = s.rd a) ∧ t.fmem = s.fmem ∧ t.beads = s.beads)
  ∧ (∀ s : State, s.pwr.mode = .off → ∃ t, exec .vbkpValid s = .next t ∧ t.pwr.mode = .backup ∧ t.pwr.vbkp = true ∧ t.wch = {})
  ∧ (∀ (s : State) (us : Fin 20000) (v w charge : Nat), s.pwr.mode = .on → v < 250 → v < w →
      let cap := min 255 (charge / (w - v))
      ∃ t, exec (.storeChargeEnd us v ⟨w, charge⟩) s = .next t ∧ OnlyRegs s t [R.PWR_STORE_CAP_CAP.addr, R.PWR_EVT_STORE_AGED.addr]
        ∧ t.fld R.PWR_STORE_CAP_CAP = cap ∧ t.bit R.PWR_EVT_STORE_AGED = (decide (cap < 35) || s.bit R.PWR_EVT_STORE_AGED))
  ∧ (∀ (s : State) (us : Fin 20000) (v w charge : Nat), s.pwr.mode = .on → (250 ≤ v ∨ w ≤ v) → exec (.storeChargeEnd us v ⟨w, charge⟩) s = .next s)
  ∧ (∀ (s : State) (who : Requester) (us : Fin 20000) (agate : Bool),
      WriteAccepted s who us R.PWR_REQ_AGATE.addr (if agate then 1 else 0) →
      ∃ t, exec (.pwrReqWrite who us agate) s = .next t ∧ t.bit R.PWR_REQ_AGATE = (agate && !s.pwr.quartzNow)
        ∧ Answered s t who .ok ∧ t.fmem = s.fmem ∧ t.beads = s.beads)
  ∧ (∀ (s : State) (us : Fin 20000), s.pwr.mode = .on →
      ∃ t, exec (.configSave us) s = .next t ∧ t.nand.links = s.flow.links ∧ t.nand.tfl = s.flow.tfl
        ∧ (∀ e ∈ t.nand.regs, e ∈ s.regs) ∧ t.fmem = s.fmem
        ∧ (s.bit R.LTAB_STAT_RESTORED = true → t.bit R.LTAB_STAT_UNSAVED = false ∧
            ∀ e, e ∈ t.nand.f ↔ e ∈ s.fmem ∧ e.1 < 0x280000 ∧ (0x200000 ≤ e.1 ∨ e.1 % 128 < 0x40)))

namespace Sys2Proof.Claims

open Machine

/-- F, I, C and the bead contexts are as before. -/
def DataKept (s t : State) : Prop := t.fmem = s.fmem ∧ t.imem = s.imem ∧ t.cmem = s.cmem ∧ t.beads = s.beads

/-- A fault class raised with no fault in service goes into service with its record (21 R449, R450). -/
def FaultTaken (s t : State) (cls count : Nat) (info : List Nat) : Prop :=
  s.pwr.mode ≠ .onyx → s.flt.cur = none → t.flt.cur = some ⟨cls, count, info⟩ ∧ t.fld R.ROD_FLT_STAT_INSVC = cls
    ∧ t.bit R.ROD_FLT_STAT_UNACK = true ∧ t.flt.step = s.flt.step

/-- A word as F keeps it: bytes 0x0F and 0x1B of a lantern record and bytes 2 to 7 of a group's attributes are reserved and stay 0 (05 R139, R146). -/
def wordKept (a : Nat) (v : Word) : Word :=
  if a < 0x200000 ∧ (a % 128 = 0x0C ∨ a % 128 = 0x18) then v &&& 0x00FFFFFF
  else if 0x208000 ≤ a ∧ a < 0x20A000 then (if a % 8 = 0 then v &&& 0x0000FFFF else 0)
  else v

/-- What a write log leaves of a store: its words in order, four bytes each. -/
def logged (m : SMap Byte) (ws : List (Nat × Word)) : SMap Byte := ws.foldl (fun m e => memPut State.fDflt m e.1 4 (wordKept e.1 e.2).toNat) m

/-- The log holds no PORTWR. -/
def portless (q : QLog) : Bool := q.olog.all (fun o => match o with | .portwr _ _ => false | _ => true)

end Sys2Proof.Claims

/-- 01 R13 to R15, 02 R34, R41, R44, R45, R61 and 10 R266, R281: the tick edge moves module time by the tick length, names the frame by it and opens SNAP,
unless GARNET begins at it; EXEC starts the first selected bead of an idle rod; the port's grant completes one access; the bar commits the bead logs in bar order, the image of
before it standing until its end, and with VAUX lost in it frames stop then; a bar that runs past 17.6 ms raises BAR. The model's own choices that it
rests on: log entries 7, 25, 26, 29, 30, 31, 134, 150. -/
def Obligations.FrameCommands : Prop :=
  (∀ (s : State) (x : Sense) (replays : Nat) (lost : List Nat), s.pwr.mode = .on → s.pwr.paused = false → s.fr.phase = .emit →
      s.halted = false → s.stepDue = none →
      let exact := 20000000 - clampI (s.fldI R.NTU_PHASE_NS) (-50000) 50000
      ∃ t, ∃ len : Nat, exec (.frameEdge x replays lost) s = .next t ∧ len % 2 = 0 ∧ exact - 1 ≤ (len : Int) ∧ (len : Int) ≤ exact + 1
        ∧ t.fr.edgeNs = s.fr.edgeNs + len ∧ t.fr.number = (s.fr.edgeNs + len + 9999999) / 20000000 ∧ t.fr.nowUs = 0
        ∧ t.fr.mono = s.fr.mono + 1
        ∧ (if (s.edgeUnits x).halted = true then t.fr.phase = .emit
            else t.fr.phase = .snap ∧ t.bar.old ≠ none ∧ t.ntu.stepped = false ∧ t.flow.snapReady = t.ready 9))
  ∧ (∀ s : State, s.fr.phase = .snap → s.halted = false →
      ∃ t, exec .execStart s = .next t ∧ t.fr = { s.fr with phase := .exec, nowUs := max s.fr.nowUs 400 } ∧ t.bar = { s.bar with old := none }
        ∧ t.fmem = s.fmem ∧ t.imem = s.imem ∧ t.cmem = s.cmem ∧ t.out = s.out
        ∧ ∀ (r : Fin 16) (q : Fin 64) (rest : List Nat), s.curSlot r = none → (s.rod r).stalled = false → s.rodRuns r = true →
            (s.rod r).waiting = [] → (s.rod r).select = q.val :: rest →
            t.curSlot r = some q.val ∧ (t.rod r).select = rest ∧ t.beadState (64 * r + q) = 2)
  ∧ (∀ (s : State) (us : Fin 20000), s.fr.phase ≠ .stopped →
      ∃ t, exec (.portAccessComplete us) s = .next t ∧ t.fmem = s.fmem ∧ t.imem = s.imem ∧ t.cmem = s.cmem ∧ t.out = s.out
        ∧ ∀ (a : Arb) (l : Leaf) (r q : Nat), serveOne s.fr.compat s.port s.portLeaves = (a, some l) → l.path = [r, q] →
            t.port = a ∧ (∀ k, k ≠ r → t.rod k = s.rod k) ∧ ((s.rod r).stalled = false → (q, false) ∉ (t.rod r).waiting))
  ∧ (∀ (s : State) (bad : List Nat), s.fr.phase = .exec → s.halted = false →
      ∃ t, exec (.barOpen bad) s = .next t ∧ t.fr.phase = .bar ∧ t.bar.old = some s.fmem ∧ t.bar.overrun = false
        ∧ (bad = [] → s.bar.host = [] → s.bar.queue.all portless = true → s.beads.all (fun e => decide (s.beadState e.1 ≠ 2)) = true →
            t.fmem = (barOrder s.bar.queue).foldl (fun m q => logged m q.wlog) s.fmem ∧ t.bar.queue = []
            ∧ t.bar.released = barOrder s.bar.queue ∧ t.imem = s.imem ∧ t.cmem = s.cmem))
  ∧ (∀ (s : State) (d : Fin 40000), s.fr.phase = .bar → s.pwr.mode = .onyx → s.pwr.warmWait = false →
      ∃ t, exec (.barComplete d) s = .next t ∧ t.fr.phase = .stopped ∧ t.pwr.mode = .onyx ∧ t.bar = {} ∧ t.ready 8 = false
        ∧ t.fld R.ROD_BAR_TIME_LAST = d ∧ t.fmem = s.fmem ∧ t.imem = s.imem ∧ t.cmem = s.cmem)
  ∧ (∀ (s : State) (d : Fin 40000), s.fr.phase = .bar → s.pwr.mode = .on →
      ∃ t, exec (.barComplete d) s = .next t ∧ t.fr.phase = .emit ∧ t.bar.old = none ∧ t.bar.released = []
        ∧ t.fld R.ROD_BAR_TIME_LAST = d ∧ t.fld R.ROD_BAR_MAX_MAX = max d.val (s.fld R.ROD_BAR_MAX_MAX) ∧ t.fr.number = s.fr.number)
  ∧ (∀ s : State, s.fr.phase = .bar → s.bar.overrun = false →
      ∃ t, exec .barOverrun s = .next t ∧ t.bar.overrun = true ∧ t.icu.level.getLsbD 5 = true ∧ FaultTaken s t 3 1 []
        ∧ (s.pwr.mode ≠ .onyx → s.flt.cur = none → DataKept s t))

namespace Sys2Proof.Claims

open Machine

/-- Nothing but bead `n`, the time inside the frame and what the block has sent differs. -/
def OnlyBeadOf (s t : State) (n : Nat) : Prop :=
  t = { s with beads := t.beads, fr := { s.fr with nowUs := t.fr.nowUs }, out := t.out } ∧ ∀ m, m ≠ n → t.bead m = s.bead m

/-- Bead `n` is FAULTED with this cause, at the word index `pc`, its logs are gone, and no STOP stays pending (03 R103, 02 R34). -/
def BeadFaulted (t : State) (n cause pc : Nat) : Prop :=
  t.beadState n = 6 ∧ t.fld R.ROD_BEAD_FAULT_CAUSE n = cause ∧ t.fld R.ROD_BEAD_FAULT_PC n = pc % 2 ^ 24
    ∧ (t.bead n).wlog = [] ∧ (t.bead n).olog = [] ∧ (t.bead n).openB = none ∧ (t.bead n).stopReq = false

/-- The word index of the access that bead `n` waits for, or of its next instruction where it waits for none (02 R66). -/
def accessAt (s : State) (n : Nat) : Nat := ((s.bead n).parked.map (·.2)).getD (s.bead n).pc

end Sys2Proof.Claims

/-- 02 R35, R50, R51, R58, R59 and 21 R457: START, STOP and RESET are accepted in the states that allow them and refused otherwise; the admission limit
takes a value that no rod's load exceeds; a count above the budget aborts the bead; a replayed access goes on; a word of F whose twin is good is
restored from it and a bead replay starts the pass again from its checkpoint; an unresolved read faults the bead at its access; a missed watchdog deadline resets the rod, faulting its READY and RUNNING beads, after which a pending source may start one that waits for it (04 R477), and
no bead of another rod. The model's own choices that it rests on: log entries 26, 38, 160. -/
def Obligations.BeadCommands : Prop :=
  (∀ (s : State) (who : Requester) (us : Fin 20000) (n : Fin 1024), WriteAccepted s who us (0x31014 + 32 * n) 1 →
      ∃ t, exec (.beadStart who us n) s = .next t ∧ (if s.beadValid n = true ∧ s.beadState n = 0 then OnlyBeadOf s t n ∧ Answered s t who .ok
        ∧ t.bead n = { s.bead n with startReq := true, startSeq := s.nextStart } else OnlyRegs s t [] ∧ Answered s t who .refusedState))
  ∧ (∀ (s : State) (who : Requester) (us : Fin 20000) (n : Fin 1024), WriteAccepted s who us (0x31014 + 32 * n) 2 →
      ∃ t, exec (.beadStop who us n) s = .next t ∧ (if s.beadValid n = true ∧ s.beadState n = 3 then
          OnlyRegs s t [R.ROD_BEAD_STATE_STATE.at n 0] ∧ Answered s t who .ok ∧ t.beadState n = 0
        else if s.beadValid n = true ∧ (s.beadState n = 1 ∨ s.beadState n = 2 ∨ s.beadState n = 4) then
          OnlyBeadOf s t n ∧ Answered s t who .ok ∧ t.bead n = { s.bead n with stopReq := true }
        else OnlyRegs s t [] ∧ Answered s t who .refusedState))
  ∧ (∀ (s : State) (who : Requester) (us : Fin 20000) (n : Fin 1024), WriteAccepted s who us (0x31014 + 32 * n) 4 →
      ∃ t, exec (.beadReset who us n) s = .next t ∧ (if s.beadValid n = true ∧ (s.beadState n = 5 ∨ s.beadState n = 6) then
          OnlyBeadOf s t n ∧ Answered s t who .ok ∧ t.bead n = { s.bead n with resetReq := true }
        else OnlyRegs s t [] ∧ Answered s t who .refusedState))
  ∧ (∀ (s : State) (who : Requester) (us : Fin 20000) (v : Word), WriteAccepted s who us 0x30000 v →
      let limit := v.toNat % 128
      ∃ t, exec (.rodAdmitLimitWrite who us v) s = .next t
        ∧ (if ∀ r : Fin 16, s.fld R.ROD_LOAD_CYCLES r ≤ 7800000 * limit / 100 then
            OnlyRegs s t [0x30000] ∧ Answered s t who .ok ∧ t.fld R.ROD_ADMIT_LIMIT_LIMIT = limit
          else OnlyRegs s t [] ∧ Answered s t who .refusedState))
  ∧ (∀ (s : State) (n : Fin 1024), s.fr.phase ≠ .stopped → s.beadValid n = true → s.beadState n = 2 →
      (s.fld R.ROD_BEAD_BUDGET_BUDGET n < (s.bead n).cycles → ∃ t, exec (.budgetAbort n) s = .next t ∧ BeadFaulted t n 0x0D (s.bead n).pc
        ∧ FaultTaken s t 2 1 [n] ∧ t.fmem = s.fmem ∧ t.imem = s.imem ∧ t.cmem = s.cmem)
      ∧ ∀ (addr : Nat) (inF : Bool) (e : ReplayEnd), ∃ t, exec (.accessReplay n addr inF e) s = .next t
        ∧ t.fmem = (if e = .twinGood ∧ inF = true then
            memPut State.fDflt s.fmem (addr - addr % 4) 4 (memNat State.fDflt s.ftwin (addr - addr % 4) 4) else s.fmem)
        ∧ t.imem = s.imem ∧ t.cmem = s.cmem
        ∧ t.fld R.ROD_PARITY_ACCESS = min (s.fld R.ROD_PARITY_ACCESS + 1) 65535
        ∧ (e = .firstPass ∨ e = .secondPass → OnlyRegs s t [R.ROD_PARITY_ACCESS.addr])
        ∧ (e = .twinGood → inF = true → s.replayAllowed n = true →
            let b := t.bead n
            t.beadState n = 2 ∧ t.bit R.ROD_BEAD_STATE_REPLAYED n = true ∧ b.replayed = true ∧ b.pc = b.entry ∧ b.fl = 0 ∧ b.wlog = [] ∧ b.olog = []
            ∧ (b.s, b.v, b.m, b.posts) = ((s.bead n).ckpt.s, (s.bead n).ckpt.v, (s.bead n).ckpt.m, (s.bead n).ckpt.posts)
            ∧ t.fld R.ROD_PARITY_BEAD = min (s.fld R.ROD_PARITY_BEAD + 1) 65535)
        ∧ (e = .unresolved ∨ (e = .twinGood ∧ (inF = false ∨ s.replayAllowed n = false)) →
            BeadFaulted t n 0x07 (accessAt s n) ∧ FaultTaken s t 1 1 [addr]))
  ∧ (∀ (s : State) (r : Fin 16) (us : Fin 20000), s.rodClocked r = true → s.fr.phase ≠ .stopped → s.ready 8 = true →
      (s.flt.step = 0 ∨ s.flt.step = 6) →
      ∃ t, exec (.rodWatchdog r us) s = .next t ∧ (t.rod r).resetIn = 2 ∧ t.bit R.ROD_WDG_RESETTING r = true
        ∧ t.fld R.ROD_WDG_EXPIRED r = min (s.fld R.ROD_WDG_EXPIRED r + 1) 65535 ∧ t.icu.level.getLsbD 2 = true ∧ FaultTaken s t 4 1 [r]
        ∧ t.fmem = s.fmem ∧ t.imem = s.imem ∧ t.cmem = s.cmem
        ∧ ∀ n : Fin 1024, (n.val / 64 ≠ r.val → t.beadState n = s.beadState n)
          ∧ (n.val / 64 = r.val → if s.beadValid n = true ∧ (s.beadState n = 1 ∨ s.beadState n = 2) then
              t.beadState n = 6 ∧ t.fld R.ROD_BEAD_FAULT_CAUSE n = Status.timeout.code
            else t.beadState n = s.beadState n ∨ t.beadState n = 2))

namespace Sys2Proof.Claims

open Machine

/-- Nothing but the registers that exist once for each requester, the time inside the frame and what the block has sent differs, and no other
requester's registers do (19 R430). -/
def OnlyOwn (s t : State) (who : Requester) : Prop :=
  t = { s with host := { s.host with own := t.host.own }, fr := { s.fr with nowUs := t.fr.nowUs }, out := t.out }
    ∧ ∀ w a, w ≠ who → t.ownReg w a = s.ownReg w a

/-- A requester's read at `a` passes the checks of 01 R26 and 19 R430. -/
def ReadAccepted (s : State) (who : Requester) (us : Fin 20000) (a : Nat) : Prop :=
  s.asks who = true ∧ (s.atUs us).readStatus who a = .ok

/-- The read is answered with what the requester sees there, and what the read latches is kept for that requester alone. -/
def LatchedRead (s t : State) (who : Requester) (us : Fin 20000) (a : Nat) : Prop :=
  t.out = s.out ++ [.data who [(s.atUs us).regSeen who a]] ∧ (∀ b ∈ State.latches a, t.ownReg who b = some ((s.atUs us).live b))
    ∧ t.host = { s.host with own := t.host.own } ∧ (∀ w b, w ≠ who → t.ownReg w b = s.ownReg w b)
    ∧ t.regs = s.regs ∧ DataKept s t ∧ t.evr = s.evr ∧ t.ntu = s.ntu ∧ t.rtc = s.rtc

end Sys2Proof.Claims

/-- 00 R8, R9, R476 and 01 R26: a write that only sets fields sets the RW ones to what is written, clears and sets by ones in the W1C and W1S ones,
leaves the others and every other register, and is answered OK; where it ends the condition of a source whose claim is in service, ICU_LATE_DROP
counts it (04 R122); a write that a check refuses changes nothing and has the check's status. 03 R81: a
GSP read of a register with RCLR fields answers with them and clears them. 10 R287, 13 R344, 15 R364 and 19 R430: a read of a _LO register, of
NTU_TIME_S_LO or of RTC_DATE latches its partners for its requester. 16 R386: EVR_RD_SEQ_HI selects a record for its requester. The model's own
choices that it rests on: log entries 4, 101, 102. -/
def Obligations.RegisterAccess : Prop :=
  (∀ (s : State) (who : Requester) (us : Fin 20000) (a : Nat) (v : Word) (r : Reg) (i j : Nat), WriteAccepted s who us a v →
      (s.atUs us).unitWrite who a v = none → findReg a = some (r, i, j) → State.classAReg a = false →
      ∃ t, exec (.registerWrite who us a v) s = .next t ∧ Answered s t who .ok
        ∧ t = { s with regs := t.regs, icu := { s.icu with late := t.icu.late, busyAt := t.icu.busyAt }, fr := { s.fr with nowUs := t.fr.nowUs }, out := t.out }
        ∧ (State.regSource a = none → OnlyRegs s t [a])
        ∧ (∀ n, State.regSource a = some n → (∀ b, b ≠ a → b ≠ 0x21008 + 16 * n → t.rd b = s.rd b)
            ∧ t.fld R.ICU_LATE_DROP_COUNT n = (if s.srcCond n = true ∧ t.srcCond n = false ∧ s.bit R.ICU_SRC_STAT_INSVC n = true then
                min (s.fld R.ICU_LATE_DROP_COUNT n + 1) 65535 else s.fld R.ICU_LATE_DROP_COUNT n))
        ∧ ∀ f ∈ r.fields, let x := getBits v f.lo f.width
            let y := getBits (s.rd a) f.lo f.width
            getBits (t.rd a) f.lo f.width = match f.acc with
              | .rw => x
              | .w1c => y &&& (2 ^ f.width - 1 - x)
              | .w1s => y ||| x
              | _ => y)
  ∧ (∀ (s : State) (who : Requester) (us : Fin 20000) (a : Nat) (v : Word) (st : Status), s.asks who = true →
      (s.atUs us).writeStatus who a v = st → st ≠ .ok → st ≠ .auth →
      ∃ t, exec (.registerWrite who us a v) s = .next t ∧ OnlyRegs s t [] ∧ Answered s t who st)
  ∧ (∀ (s : State) (i : Fin 8) (us : Fin 20000) (a : Nat) (r : Reg) (k j : Nat), ReadAccepted s (.gsp i) us a →
      findReg a = some (r, k, j) → r.has .rclr = true → State.latches a = [] →
      ∃ t, exec (.rclrRead i us a) s = .next t ∧ OnlyRegs s t [a] ∧ t.out = s.out ++ [.data (.gsp i) [(s.atUs us).regSeen (.gsp i) a]]
        ∧ ∀ f ∈ r.fields, getBits (t.rd a) f.lo f.width = if f.acc = .rclr then 0 else getBits (s.rd a) f.lo f.width)
  ∧ (∀ (s : State) (who : Requester) (us : Fin 20000) (a : Nat), ReadAccepted s who us a → State.latches a ≠ [] →
      ∃ t, exec (.loLatchRead who us a) s = .next t ∧ LatchedRead s t who us a)
  ∧ (∀ (s : State) (who : Requester) (us : Fin 20000), ReadAccepted s who us R.NTU_TIME_S_LO_S.addr →
      ∃ t, exec (.ntuTimeRead who us) s = .next t ∧ LatchedRead s t who us R.NTU_TIME_S_LO_S.addr)
  ∧ (∀ (s : State) (who : Requester) (us : Fin 20000), ReadAccepted s who us R.RTC_DATE_DAY.addr →
      ∃ t, exec (.rtcDateRead who us) s = .next t ∧ LatchedRead s t who us R.RTC_DATE_DAY.addr)
  ∧ (∀ (s : State) (who : Requester) (us : Fin 20000) (v : Word), WriteAccepted s who us 0xD0208 v →
      let log := ((s.ownReg who 0xD0200).getD 0).toNat
      let q := ((s.ownReg who 0xD0204).getD 0).toNat + v.toNat % 65536 * 4294967296
      ∃ t, exec (.evrRdSelect who us v) s = .next t ∧ OnlyOwn s t who ∧ Answered s t who .ok ∧ t.rdSelected who = (log, q)
        ∧ t.ownReg who 0xD020C =
          some (if (s.evrLog log).recs.getLast?.any (fun r => decide (r.seq ≤ q)) = true ∧ q ≤ (s.evrLog log).head then 0 else 4))

namespace Sys2Proof.Claims

open Machine

/-- Source `n` has been entered on target `t` in the state `u`: claimed, in service with the RP to restore kept, RP at its priority, the interval timer
started (04 R114), and on a rod its bound bead started with its 8 entry cycles charged (04 R115). -/
def Entered (u z : State) (t : Fin 18) (n : Nat) : Prop :=
  let w := (z.claim t).toNat
  z.bit R.ICU_SRC_STAT_INSVC n = true ∧ z.icu.level.getLsbD n = false ∧ z.fld R.ICU_RUNPRI_RP t = u.fld R.ICU_SRC_CFG_PRIO n
    ∧ z.fld R.ICU_TAKEN_COUNT n = min (u.fld R.ICU_TAKEN_COUNT n + 1) (2 ^ 32 - 1)
    ∧ w % 256 = n ∧ w / 256 % 16 = u.fld R.ICU_SRC_CFG_PRIO n ∧ w / 65536 % 2 = (if n < 8 then 1 else 0) ∧ w / 131072 = 1
    ∧ (if n < 8 then (z.target t).priv = u.rp t :: (u.target t).priv else w / 4096 % 16 = u.rp t ∧ (z.target t).priv = (u.target t).priv)
    ∧ (z.target t).svc = some (if n < 8 then 0 else u.rp t) ∧ (z.target t).timerNs = u.nowNs + u.fld R.ICU_MOD_US t * 1000
    ∧ (z.target t).stack = (u.entryContext t).toList ++ (u.target t).stack ∧ z.fmem = u.fmem ∧ z.imem = u.imem ∧ z.cmem = u.cmem ∧ z.bar = u.bar
    ∧ z.out = u.out
    ∧ (if t.val < 16 then
        let slot := u.fld R.ICU_SRC_CFG_SLOT n
        let b := 64 * t.val + slot
        z.curSlot t = some slot ∧ (z.rod t).handler = some slot ∧ z.beadState b = 2 ∧ (z.bead b).pc = (u.bead b).entry ∧ (z.bead b).cycles = 8 ∧ (z.rod t).used = (u.rod t).used + 8
          ∧ (z.bead b).fl = 0 ∧ (z.bead b).wlog = [] ∧ ∀ m, m ≠ b → z.bead m = u.bead m
      else z.beads = u.beads)

end Sys2Proof.Claims

/-- 04 R107, R110, R113 to R115, R125: a dispatch enters the highest source that its target may take, and does nothing when there is none; the end of a
moderation interval dispatches the same way; writes of ICU_SWSET assert software sources, writes of ICU_SRC_CFG are refused or take effect by what
the source is bound to. 03 R100, RAISE: asserts SRC[192 + n], n immediate or S[a][5:0]; in register form a source outside the RAISE grant faults
with AUTH. The model's own choices that it rests on: log entries 7, 18. -/
def Obligations.EventCommands : Prop :=
  (∀ (s : State) (t : Fin 18) (us : Fin 20000), s.part.hasTarget t = true →
      let u := s.atUs us
      ∃ z, exec (.icuDispatch t us .quiet) s = .next z ∧ (u.nextSource t (u.rp t) = none → z = u)
        ∧ ∀ n, u.nextSource t (u.rp t) = some n → Entered u z t n)
  ∧ (∀ (s : State) (t : Fin 18), s.part.hasTarget t = true → s.nowNs < (s.target t).timerNs →
      let v := s.atUs (((s.target t).timerNs - s.fr.edgeNs) / 1000)
      let u := v.setTarget t { s.target t with timerNs := v.nowNs }
      ∃ z, exec (.moderationExpire t) s = .next z ∧ (u.nextSource t (u.rp t) = none → z = u)
        ∧ ∀ n, u.nextSource t (u.rp t) = some n → Entered u z t n)
  ∧ (∀ (s : State) (who : Requester) (us : Fin 20000) (k : Fin 2) (v : Word), WriteAccepted s who us (0x20008 + 4 * k) v →
      ∃ t, exec (.icuSwsetWrite who us k v) s = .next t ∧ t = { s with icu := t.icu, fr := t.fr, out := t.out } ∧ Answered s t who .ok
        ∧ ∀ i : Fin 256, t.icu.level.getLsbD i =
            (s.icu.level.getLsbD i || (decide (192 + 32 * k.val ≤ i.val ∧ i.val < 224 + 32 * k.val) && v.getLsbD (i.val - 192 - 32 * k.val))))
  ∧ (∀ (s : State) (who : Requester) (us : Fin 20000) (n : Fin 256) (v : Word), WriteAccepted s who us (0x21000 + 16 * n) v →
      let g := v.toNat / 16 % 32
      let p := if n.val = 1 then s.fld R.ICU_SRC_CFG_PRIO n else v.toNat % 16
      let bound := s.bit R.ICU_SRC_CFG_BOUND n
      let st : Status := if s.legalTarget g = false then .range else if bound = true ∧ who ≠ .sup ∧ g ≠ s.fld R.ICU_SRC_CFG_TARGET n then .locked
        else if bound = false ∧ g ≠ 16 ∧ g ≠ 17 then .invalid
        else if p ≠ s.fld R.ICU_SRC_CFG_PRIO n ∧ s.bit R.ICU_SRC_STAT_INSVC n = true then .busy else .ok
      ∃ t, exec (.icuSrcCfgWrite who us n v) s = .next t ∧ Answered s t who st
        ∧ (st ≠ .ok → OnlyRegs s t [])
        ∧ (st = .ok → OnlyRegs s { t with icu := s.icu } [0x21000 + 16 * n] ∧ t.icu = { s.icu with busyAt := t.icu.busyAt } ∧ t.fld R.ICU_SRC_CFG_PRIO n = p ∧ t.fld R.ICU_SRC_CFG_TARGET n = g
            ∧ t.fld R.ICU_SRC_CFG_SLOT n = (if who = .sup then v.toNat / 512 % 64 else s.fld R.ICU_SRC_CFG_SLOT n) ∧ t.bit R.ICU_SRC_CFG_BOUND n = bound))
  ∧ ∀ (s : State) (r : Fin 16) (n : Nat) (a : Fin 32) (q : BitVec 6), Issues s r n → (a.val = 0 ∨ q = 0) →
      let b := s.bead n
      let k := if a.val = 0 then q.toNat else (b.rs a).toNat % 64
      (a.val = 0 ∨ (s.mpi b).raise k = true → ∃ t, exec (.raise r a q) s = .next t ∧ OnlyBead s { t with icu := s.icu } r n 2
        ∧ t.bead n = { b with touched := true, pc := (t.bead n).pc, loops := (t.bead n).loops, cycles := b.cycles + 2 }
        ∧ t.icu.level.getLsbD (192 + k) = true ∧ (∀ i : Fin 256, i.val ≠ 192 + k → t.icu.level.getLsbD i = s.icu.level.getLsbD i))
      ∧ (a.val ≠ 0 → (s.mpi b).raise k = false → ∃ t, exec (.raise r a q) s = .next t ∧ FaultedBy s t n .auth)

namespace Sys2Proof.Claims

open Machine

/-- A REQUEST that its session may make, seen for the first time (19 R424, R425): sessions are served, the session is OPEN, its role reaches `least`,
and the ID is neither cached, nor running, nor older than the cache. -/
def Fresh (s : State) (i : Fin 8) (id least : Nat) (un : Bool) : Prop :=
  s.hostRuns = true ∧ s.sessState i = 2 ∧ s.roleOk i least un = true ∧ (∀ r ∈ (s.sess i).cache, r.id ≠ id) ∧ id ∉ (s.sess i).running
    ∧ id ∉ (s.sess i).repeated ∧ (s.sess i).cache.getLast?.any (fun r => olderId id r.id) = false

/-- The request has its one RESPONSE, which the cache keeps unless it holds 256 newer IDs; nothing else was sent. -/
def Responded (s t : State) (i : Fin 8) (id : Nat) (st : Status) (res : List Int) : Prop :=
  t.out = s.out ++ [.response i id false st res] ∧ id ∉ (t.sess i).running
    ∧ (((s.sess i).cache.filter (fun r => olderId id r.id)).length < 256 → ⟨id, st, res⟩ ∈ (t.sess i).cache)

/-- The module's data stand: the three memories, the bead contexts and the images. -/
def StoresKept (s t : State) : Prop := DataKept s t ∧ t.images = s.images

end Sys2Proof.Claims

/-- 05 R134 to R138 and R141: an image arrives in the first free slot and is VERIFYING with its last byte; the first failing check refuses it, and
without one it is LOADED; ACTIVATE, DEACTIVATE and UNLOAD act in the states that allow them, and beads left in their places wait for the edge; an activation that waits 50 edges for a running bead is
BUSY; images verified again keep or lose their place; a word written into the data window waits for the bar. The model's own choices that it rests
on: log entries 10, 26, 39, 117, 138. -/
def Obligations.ImageCommands : Prop :=
  (∀ (s : State) (i : Fin 8) (id len : Nat) (data : List Byte), Fresh s i id 3 false → s.sessFeature i 0 = true →
      s.bit R.LTAB_STAT_RESTORED = true → s.imgOfRequest i id = none →
      ∃ t, exec (.imageLoad i id len data false) s = .next t ∧ DataKept s t
        ∧ (s.freeSlot = none → Responded s t i id .noSpace [13] ∧ t.images = s.images)
        ∧ ∀ slot, s.freeSlot = some slot → data.length ≤ len → t.out = s.out ∧ t.imgHandle slot = s.freeHandle
            ∧ (∀ j, j ≠ slot → t.image j = s.image j)
            ∧ (if data.length < len then t.imgState slot = 1 ∧ (t.sess i).streams.any (fun x => decide (x.id = id ∧ x.len = len ∧ x.bytes = data)) = true
              else t.imgState slot = 2 ∧ (t.image slot).bytes = data))
  ∧ (∀ (s : State) (i : Fin 64) (us : Fin 20000), s.imgState i = 2 → s.pwr.mode = .on →
      let x := s.image i
      ∃ t, exec (.imageVerify i us) s = .next t ∧ DataKept s t ∧ (∀ j, j ≠ i.val → t.image j = s.image j)
        ∧ (s.checkImage i false = none → t.imgState i = 3 ∧ (t.image i).bytes = x.bytes ∧ (t.image i).stored = true
            ∧ t.fld R.LTAB_IMG_RES_STATUS i = 0 ∧ t.fld R.LTAB_IMG_RES_REASON i = 0)
        ∧ ∀ st r, s.checkImage i false = some (st, r) → t.imgState i = 6 ∧ (t.image i).bytes = [] ∧ t.fld R.LTAB_IMG_RES_STATUS i = st.code
            ∧ t.fld R.LTAB_IMG_RES_REASON i = r % 256)
  ∧ (∀ (s : State) (who : Requester) (us : Fin 20000) (i : Fin 64),
      (WriteAccepted s who us 0x50020 (BitVec.ofNat 32 (i.val + 0x100)) → ∃ t, exec (.imageActivate who us i) s = .next t ∧ DataKept s t
        ∧ (s.imgState i = 0 → OnlyRegs s t [] ∧ Answered s t who .invalid)
        ∧ (s.imgState i ≠ 0 → s.ready 8 = false → OnlyRegs s t [] ∧ Answered s t who .notReady)
        ∧ (s.imgState i ≠ 0 → s.ready 8 = true → s.imgState i ≠ 3 → OnlyRegs s t [] ∧ Answered s t who .refusedState)
        ∧ (s.imgState i = 3 → s.ready 8 = true → ∀ st r, s.checkPlace i = .error (st, r) →
            OnlyRegs s t [0x51004 + 16 * i.val] ∧ (st ≠ .auth → Answered s t who st) ∧ t.fld R.LTAB_IMG_RES_STATUS i = st.code
              ∧ t.fld R.LTAB_IMG_RES_REASON i = r % 256)
        ∧ (s.imgState i = 3 → s.ready 8 = true → ∀ ps, s.checkPlace i = .ok ps → Answered s t who .ok ∧ t.imgState i = 4
            ∧ t.image i = { s.image i with edges := 0 } ∧ ∀ j, j ≠ i.val → t.image j = s.image j))
      ∧ (WriteAccepted s who us 0x50020 (BitVec.ofNat 32 (i.val + 0x200)) → ∃ t, exec (.imageDeactivate who us i) s = .next t
        ∧ t.fmem = s.fmem ∧ t.imem = s.imem ∧ t.cmem = s.cmem
        ∧ (s.imgState i ≠ 5 → OnlyRegs s t [] ∧ Answered s t who (if s.imgState i = 0 then .invalid else .refusedState))
        ∧ (s.imgState i = 5 → Answered s t who .ok ∧ t.imgState i = 3 ∧ t.image i = { s.image i with unloading := true, wasActive := false }
            ∧ (∀ u ∈ (s.image i).mpi.subs, u.source < 256 → t.bit R.ICU_SRC_CFG_BOUND u.source = false ∧ t.fld R.ICU_SRC_CFG_PRIO u.source = 0
                ∧ t.fld R.ICU_SRC_CFG_TARGET u.source = 16)
            ∧ ((∀ u ∈ (s.image i).mpi.subs, u.source < 256) → ∀ q ∈ (s.image i).placed, q.2 < 1024 →
                (s.beadState q.2 = 3 ∨ s.beadState q.2 = 4 → t.beadState q.2 = 0)
                ∧ (s.beadState q.2 = 1 ∨ s.beadState q.2 = 2 → t.beadState q.2 = s.beadState q.2 ∧ (t.bead q.2).stopReq = true))))
      ∧ (WriteAccepted s who us 0x50020 (BitVec.ofNat 32 (i.val + 0x300)) → ∃ t, exec (.imageUnload who us i) s = .next t
        ∧ t.fmem = s.fmem ∧ t.imem = s.imem ∧ t.cmem = s.cmem
        ∧ (s.imgState i ≠ 3 → s.imgState i ≠ 6 → OnlyRegs s t [] ∧ Answered s t who (if s.imgState i = 0 then .invalid else .refusedState))
        ∧ (s.imgState i = 3 ∨ s.imgState i = 6 → Answered s t who .ok ∧ t.imgState i = 0 ∧ t.image i = {}
            ∧ (∀ j < 64, j ≠ i.val → t.image j = s.image j)
            ∧ ((s.image i).placed = [] → ∀ j, j ≠ i.val → t.image j = s.image j)
            ∧ ((s.image i).placed ≠ [] → ∃ k, 64 ≤ k ∧ (t.image k).unloading = true ∧ (t.image k).placed = (s.image i).placed
                ∧ ∀ j, j ≠ i.val → j ≠ k → t.image j = s.image j))))
  ∧ (∀ (s : State) (i : Fin 64) (j : Nat), s.fr.phase ≠ .stopped → s.imgState i = 4 → 50 ≤ (s.image i).edges → s.replacedBy i = some j →
      s.imageRuns j = true → ∃ t, exec (.imageActivateTimeout i) s = .next t ∧ OnlyRegs s t [0x51000 + 16 * i.val, 0x51004 + 16 * i.val]
        ∧ t.imgState i = 3 ∧ t.fld R.LTAB_IMG_RES_STATUS i = 1)
  ∧ (∀ (s : State) (us : Fin 20000), s.pwr.mode = .on → s.ready 8 = true → s.flt.reverify = true →
      ∃ t, exec (.imageReverify us) s = .next t ∧ t.flt.reverify = false ∧ DataKept s t
        ∧ (∀ j, t.image j = { s.image j with wasActive := (t.image j).wasActive })
        ∧ ((∀ i ∈ s.storedImages, s.checkImage i true = none) → t = { s.atUs us with flt := { s.flt with reverify := false } })
        ∧ ∀ i st r, i < 64 → s.storedImages = [i] → s.checkImage i true = some (st, r) →
            i ∉ t.flt.images ∧ (t.image i).wasActive = false ∧ t.fld R.LTAB_IMG_RES_STATUS i = st.code ∧ t.fld R.LTAB_IMG_RES_REASON i = r % 256)
  ∧ (∀ (s : State) (i : Fin 8) (us : Fin 20000) (k : Fin 8192) (v : Word), WriteAccepted s (.gsp i) us (0x58000 + 4 * k) v →
      let fa := getBits ((s.ownReg (.gsp i) 0x50000).getD 0) 0 7 * 0x8000 + 4 * k.val
      ∃ t, exec (.ltabDataWrite i us k v) s = .next t ∧ Answered s t (.gsp i) .ok
        ∧ t = { s with bar := { s.bar with host := s.bar.host ++ [⟨i, none, [(0x10000000 + fa, v)]⟩] }, fr := t.fr, out := t.out })

/-- 06 R155, R169 to R173: an update takes its snapshot, checks a pending shadow and runs, or with RUN 0 only discards the detections; while one still runs
the next keeps its inputs; its end hands the
presence over; APPLY, CLEAR and RUN take effect at the next update; a peer's message waits for the snapshot and ends LOST; a peer silent for 30
frames is lost. The model's own choices that it rests on: log entries 52, 53, 54, 169. -/
def Obligations.FlowCommands : Prop :=
  (∀ (s : State) (replays : Nat), s.ready 9 = true → s.flow.busy = false → s.fr.phase ≠ .stopped → s.halted = false →
      ∃ t, exec (.flowUpdate replays []) s = .next t ∧ DataKept s t
        ∧ (s.bit R.FLOW_CTRL_RUN = false → t = { s.atUs 16600 with flow := { s.flow with snapDets := [] } })
        ∧ (s.bit R.FLOW_CTRL_RUN = true → t.flow.busy = true ∧ t.flow.ready = false ∧ t.flow.snapDets = [] ∧ t.flow.snapMsgs = []
            ∧ t.flow.clearReq = false ∧ t.bit R.FLOW_STAT_PENDING = false ∧ t.flow.shadow = s.flow.shadow
            ∧ (s.fr.number % 10 ≠ 0 → t.out = s.out) ∧ (s.fr.number % 10 = 0 → t.flow.outSum = [])
            ∧ (s.bit R.FLOW_STAT_PENDING = false → t.flow.links = s.flow.links ∧ t.flow.bnd = s.flow.bnd)
            ∧ (s.bit R.FLOW_STAT_PENDING = true → ∀ st reason idx,
                shadowCheck s.flow.shadow (fun b => s.rd (R.FLOW_BND_CFG_VALID.at b 0)) s.peerEn = some (st, reason, idx) →
                t.flow.links = s.flow.links ∧ t.flow.bnd = s.flow.bnd ∧ t.fld R.FLOW_CFG_RES_STATUS = st.code)
            ∧ (s.bit R.FLOW_STAT_PENDING = true →
                shadowCheck s.flow.shadow (fun b => s.rd (R.FLOW_BND_CFG_VALID.at b 0)) s.peerEn = none →
                t.flow.links = s.flow.shadow ∧ t.fld R.FLOW_CFG_RES_STATUS = 0)))
  ∧ (∀ (s : State) (replays : Nat) (lost : List Nat), s.ready 9 = true → s.flow.busy = true → s.bit R.FLOW_CTRL_RUN = true →
      s.fr.phase ≠ .stopped → s.halted = false →
      exec (.flowUpdate replays lost) s = .next { s.atUs 16600 with flow := { s.flow with missed := true } })
  ∧ (∀ (s : State) (us : Nat), s.flow.busy = true →
      ∃ t, exec (.flowUpdateComplete us) s = .next t ∧ t = { s with regs := t.regs, flow := { s.flow with busy := false, ready := true } }
        ∧ t.fld R.FLOW_TIME_LAST = min us 65535 ∧ t.fld R.FLOW_TIME_MAX = max (min us 65535) (s.fld R.FLOW_TIME_MAX)
        ∧ ∀ a, a ≠ R.FLOW_TIME_LAST.addr → t.rd a = s.rd a)
  ∧ (∀ s : State, s.ready 9 = true →
      (∃ t, exec .flowApply s = .next t ∧ OnlyRegs s t [R.FLOW_STAT_PENDING.addr] ∧ t.bit R.FLOW_STAT_PENDING = true)
      ∧ (∃ t, exec .flowClear s = .next t ∧ t = { s with flow := { s.flow with clearReq := true } })
      ∧ ∀ run : Bool, ∃ t, exec (.flowRunWrite run) s = .next t ∧ OnlyRegs s t [R.FLOW_CTRL_RUN.addr] ∧ t.bit R.FLOW_CTRL_RUN = run)
  ∧ (∀ (s : State) (p : Fin 8) (us : Fin 20000) (format frame : Nat) (elems : List FlowElem), s.peerEn p = true →
      s.fld R.HOST_PEER_STAT_STATE p = 2 →
      ∃ t, exec (.flowXchgReceive p us format frame elems) s = .next t ∧ StoresKept s t ∧ t.out = s.out
        ∧ t.icu.level.getLsbD (130 + p) = true
        ∧ (format ≠ 1 → t.flow = { s.flow with badFormat := t.flow.badFormat, badFrame := t.flow.badFrame }
            ∧ SMap.find 0 t.flow.badFormat p = SMap.find 0 s.flow.badFormat p + 1)
        ∧ (format = 1 → t.flow.msgs = s.flow.msgs ++ [⟨(s.atUs us).nowNs, p, frame, elems⟩] ∧ t.flow.cells = s.flow.cells
            ∧ t.peerLost p = false ∧ ∀ b : Fin 64, bndPeer (SMap.find 0 s.flow.bnd b) = p.val →
              t.bit R.FLOW_BND_STAT_LOST b = false ∧ t.fld R.FLOW_BND_STAT_AGE b = 0))
  ∧ (∀ (s : State) (p : Fin 8), SMap.find 0 s.flow.heard p + 30 ≤ s.fr.mono + 1 → s.peerLost p = false →
      ∃ t, exec (.peerLost p) s = .next t ∧ StoresKept s t ∧ t.out = s.out ∧ (t.fld R.FLOW_EVT_LOST).testBit p = true
        ∧ t.peerLost p = true ∧ ∀ b : Fin 64, t.bit R.FLOW_BND_STAT_LOST b = (s.bit R.FLOW_BND_STAT_LOST b || s.ofPeer p b)
            ∧ (s.ofPeer p b = true → SMap.find {} t.flow.inflow b = {}))

namespace Sys2Proof.Claims

open Machine

/-- A LAP record of a commissioned lantern that has not been heard before (07 R180, 09 R256). -/
def LapNew (s : State) (lid : Fin 16384) (n : Nat) : Prop :=
  s.pwr.mode = .on ∧ lid.val < s.part.lanterns ∧ recComm s.fmem lid = true ∧ n ∉ SMap.find [] s.links.recNos lid

/-- A module time lies in the frame in progress or before it. -/
def Due (s : State) (ns : Nat) : Prop := ns ≤ s.fr.edgeNs + 20000000

/-- Nothing but the segment's own state, the time inside the frame and the record numbers heard differs, and of the leaves only `l`. -/
def OnlyLeaf (s t : State) (l : Nat) : Prop :=
  t = { s with seg := t.seg, fr := { s.fr with nowUs := t.fr.nowUs }, links := { s.links with recNos := t.links.recNos } }
    ∧ ∀ k, k ≠ l → t.leaf k = s.leaf k

/-- Code, payload and transaction ID of a lantern's waiting commands. -/
def cmdList (s : State) (lid : Nat) : List (Nat × List Byte × Nat) := (s.leaf lid).cmds.map (fun c => (c.code, c.payload, c.txn))

/-- A code cleared within the last 60 s before `us` µs into the frame: raised again, it is the same fault (07 R208). -/
def flapping (s : State) (us : Fin 20000) (lid code : Nat) : Bool :=
  (s.leaf lid).cleared.any (fun x => decide (x.1 = code ∧ (s.atUs us).nowNs ≤ x.2 + 60000000000))

/-- The lantern has a fault code active. -/
def codeOn (s : State) (lid code : Nat) : Bool := (s.leaf lid).codes.any (fun x => decide (x.1 = code))

end Sys2Proof.Claims

/-- 07 R179, R180, R184, R185, R198, R207 to R209, 06 R160 and 09 R256: a join, a status report and a detection wait for the next SNAP; a record heard
again is only counted; failsafe values that differ from those last sent are queued; a lantern silent for three periods is STALE; fault codes are
raised into the ring or cleared; a lantern long unreachable has code 0x41; a summary period ends with its entries sent. The model's own choices that
it rests on: log entries 65, 67. -/
def Obligations.SegmentReports : Prop :=
  (∀ (s : State) (us : Fin 20000) (q : JoinReq), s.pwr.mode = .on →
      ∃ t, exec (.joinReq us q) s = .next t
        ∧ t = { s.atUs us with seg := { s.seg with joins := s.seg.joins ++ [⟨q, (s.atUs us).nowNs, none⟩] } })
  ∧ (∀ (s : State) (lid : Fin 16384), s.fr.phase ≠ .stopped → recComm s.fmem lid = true → lid.val < s.part.lanterns → (s.leaf lid).joined = true →
      let v := s.lan lid 0x1C 2
      let f := s.fullFade lid
      ∃ t, exec (.setFailsafe lid) s = .next t ∧ ((s.leaf lid).fsSent = some (v, f) → t = s)
        ∧ ((s.leaf lid).fsSent ≠ some (v, f) → (t.leaf lid).fsSent = some (v, f) ∧ t = { s with seg := t.seg, links := t.links }
            ∧ cmdList t lid = cmdList s lid ++ [(0x02, leBytes 2 v ++ leBytes 2 f, (s.leaf lid).txn)] ∧ ∀ k, k ≠ lid.val → t.leaf k = s.leaf k))
  ∧ (∀ (s : State) (lid : Fin 16384) (us : Fin 20000) (n : Nat),
      (LapNew s lid n → ∀ r : StatusReport, ∃ t, exec (.statusReport lid us n r) s = .next t ∧ OnlyLeaf s t lid ∧ t.leaf lid = s.leaf lid
        ∧ t.seg.reports = s.seg.reports ++ [(lid.val, (s.atUs us).nowNs, s.fr.number, r)] ∧ n ∈ SMap.find [] t.links.recNos lid)
      ∧ (LapNew s lid n → ∀ cls dir speed timeNs : Nat, ∃ t, exec (.detectionReport lid us n cls dir speed timeNs) s = .next t ∧ StoresKept s t
        ∧ t.flow = { s.flow with dets := s.flow.dets ++ [⟨(s.atUs us).nowNs, timeNs, lid, cls, dir, speed⟩] }
        ∧ (t.leaf lid) = { s.leaf lid with detects := (s.leaf lid).detects + 1 } ∧ (∀ k, k ≠ lid.val → t.leaf k = s.leaf k) ∧ t.regs = s.regs)
      ∧ (LapNew s lid n → ∀ code : Fin 256, codeOn s lid code = false → flapping s us lid code = true →
        ∃ t, exec (.lanternFaultReport lid us n code true) s = .next t ∧ StoresKept s t ∧ codeOn t lid code = true ∧ t.icu = s.icu
          ∧ State.flapsOf (t.leaf lid) code = State.flapsOf (s.leaf lid) code + 1 ∧ t.fld R.LTAB_FAULT_WR_COUNT = s.fld R.LTAB_FAULT_WR_COUNT
          ∧ (∀ c : Fin 12, t.fld R.SEG_FAULT_CNT_RAISED c = s.fld R.SEG_FAULT_CNT_RAISED c)
          ∧ ∀ l, l ≠ lid.val → t.leaf l = s.leaf l)
      ∧ (LapNew s lid n → ∀ code : Fin 256, codeOn s lid code = false → flapping s us lid code = false →
        let k := s.fld R.LTAB_FAULT_WR_COUNT % 64
        ∃ t, exec (.lanternFaultReport lid us n code true) s = .next t ∧ StoresKept s t ∧ codeOn t lid code = true
          ∧ t.fld R.LTAB_FAULT_LID k = lid ∧ t.fld R.LTAB_FAULT_CODE k = code ∧ t.fld R.LTAB_FAULT_FRAME_FRAME k = s.fr.number % 2 ^ 32
          ∧ t.fld R.LTAB_FAULT_WR_COUNT = (s.fld R.LTAB_FAULT_WR_COUNT + 1) % 2 ^ 32 ∧ t.icu.level.getLsbD 70 = true
          ∧ (∀ c, faultIndex code = some c → t.fld R.SEG_FAULT_CNT_RAISED c = min (s.fld R.SEG_FAULT_CNT_RAISED c + 1) 65535)
          ∧ ∀ l, l ≠ lid.val → t.leaf l = s.leaf l)
      ∧ (LapNew s lid n → ∀ code : Fin 256, codeOn s lid code = true →
        ∃ t, exec (.lanternFaultReport lid us n code false) s = .next t ∧ StoresKept s t ∧ codeOn t lid code = false
          ∧ t.fld R.LTAB_FAULT_WR_COUNT = s.fld R.LTAB_FAULT_WR_COUNT ∧ (∀ c : Fin 256, c ≠ code → codeOn t lid c = codeOn s lid c)
          ∧ ∀ l, l ≠ lid.val → t.leaf l = s.leaf l)
      ∧ (s.pwr.mode = .on → lid.val < s.part.lanterns → recComm s.fmem lid = true → n ∈ SMap.find [] s.links.recNos lid → ∀ r : StatusReport,
        ∃ t, exec (.statusReport lid us n r) s = .next t ∧ OnlyRegs s t [R.RAD_LINK_CNT_APPDUP.addr]))
  ∧ (∀ (s : State) (lid : Fin 16384) (x : Nat), (s.leaf lid).reportNs = some x → Due s (x + 3 * s.reportPeriod lid) →
      ∃ t, exec (.staleTimeout lid) s = .next t ∧ OnlyLeaf s t lid ∧ t.leaf lid = { s.leaf lid with stale := true })
  ∧ (∀ (s : State) (lid : Fin 16384), (s.leaf lid).reportNs = none → (s.leaf lid).known ≠ none → Due s ((s.leaf lid).sinceNs + 3 * s.reportPeriod lid) →
      ∃ t, exec (.staleTimeout lid) s = .next t ∧ OnlyLeaf s t lid ∧ t.leaf lid = { s.leaf lid with stale := true })
  ∧ (∀ (s : State) (lid : Fin 16384) (x : Nat), (s.leaf lid).badNs = some x → Due s (x + s.fld R.SEG_REPORT_UNREACH * 1000000000) →
      ∃ t, exec (.unreachableTimeout lid) s = .next t ∧ StoresKept s t ∧ codeOn t lid 0x41 = true
        ∧ t.fld R.LTAB_FAULT_WR_COUNT = s.fld R.LTAB_FAULT_WR_COUNT ∧ ∀ l, l ≠ lid.val → t.leaf l = s.leaf l)
  ∧ (∀ s : State, s.pwr.mode = .on →
      let p := s.fld R.SEG_FAULT_CFG_AGG * 1000000000
      let due := s.seg.aggNs + p
      let u := s.atUs (ceilDiv (due - s.fr.edgeNs) 1000)
      Due s due → ∃ t, exec .faultSummary s = .next t
        ∧ t.seg = { s.seg with notes := [], aggNs := s.seg.aggNs + (u.nowNs - s.seg.aggNs) / p * p } ∧ StoresKept s t
        ∧ (s.seg.notes = [] → t.out = s.out)
        ∧ ∀ i : Fin 8, s.seg.notes ≠ [] → s.sessState i = 2 → (s.sess i).topics.testBit 0 = true → 4 ≤ s.sessVersion i →
            s.summaryEntries.length ≤ 512 → s.summaryEntries ≠ [] → Output.notify i 0 s.summaryEntries.flatten ∈ t.out)

namespace Sys2Proof.Claims

open Machine

/-- The command at the head of a lantern's queue has ended with a result: the next one is sent, a command of a program or a session has its entry in
the ring, and a session has its answer; another lantern's command that waited for room may go out. -/
def CmdEnded (s t : State) (lid : Fin 16384) (c : SegCmd) (st : Status) (dup : Bool) : Prop :=
  let w := s.fld R.SEG_CMD_RES_WR_COUNT
  cmdList t lid = (cmdList s lid).tail ∧ StoresKept s t
    ∧ (∀ l, l ≠ lid.val → cmdList t l = cmdList s l ∧ { t.leaf l with cmds := (s.leaf l).cmds } = s.leaf l)
    ∧ (c.handle = 0 → c.session = none → t.regs = s.regs ∧ t.out = s.out)
    ∧ (c.handle ≠ 0 → t.fld R.SEG_CMD_RES_WR_COUNT = (w + 1) % 2 ^ 32 ∧ t.fld R.SEG_CMD_RES_HANDLE (w % 64) = c.handle % 2 ^ 32
        ∧ t.fld R.SEG_CMD_STAT_STATUS (w % 64) = st.code ∧ t.bit R.SEG_CMD_STAT_DUPLICATE (w % 64) = dup ∧ t.fld R.SEG_CMD_STAT_LID (w % 64) = lid
        ∧ t.icu.level.getLsbD 71 = true)
    ∧ (∀ i < 8, c.session = some i → s.sessState i = 2 → c.handle ∈ (s.sess i).running → c.handle ∉ (s.sess i).repeated →
        ∃ res, t.out = s.out ++ [.response i c.handle false st res])

end Sys2Proof.Claims

/-- 07 R191 to R198, R206, R210, R211: an answer with the code and transaction ID of the command in flight ends it; a command is sent three times before
its timeout ends it; a hold that ends, and a safety entry past its frame, hand their leaves to the next source; shedding lowers every leaf under
traffic or schedule in proportion; a reconciliation period ends feeder by feeder, one without its data leaving what earlier periods found. The model's own
choices that it rests on: log entries 7, 61, 66, 68, 174, 176. -/
def Obligations.SegmentCommands : Prop :=
  (∀ (s : State) (lid : Fin 16384) (us : Fin 20000) (a : CmdAnswer) (c : SegCmd), s.pwr.mode = .on → a.code ≠ 0x32 → a.code ≠ 0x33 →
      (s.leaf lid).cmds.head? = some c →
      ∃ t, exec (.cmdResponse lid us a) s = .next t
        ∧ (c.code = a.code → c.txn = a.txn → CmdEnded s t lid c (State.answerStatus a.st) a.cached
            ∧ t.seg.reports = s.seg.reports ++ (a.report.map (fun r => (lid.val, (s.atUs us).nowNs, s.fr.number, r))).toList)
        ∧ (c.code ≠ a.code ∨ c.txn ≠ a.txn → t = s))
  ∧ (∀ (s : State) (lid : Fin 16384) (c : SegCmd), s.pwr.mode = .on → (s.leaf lid).cmds.head? = some c →
      (c.sends ≠ 0 → c.sends < 3 → Due s (c.sentNs + s.fld R.SEG_TIMING_CMD_TIMEOUT * 1000000000 / 3) →
        ∃ t, exec (.cmdRetry lid) s = .next t ∧ cmdList t lid = cmdList s lid ∧ StoresKept s t ∧ t.regs = s.regs ∧ t.out = s.out
          ∧ (t.leaf lid).cmds.head?.map (fun d => d.sends) = some (c.sends + 1) ∧ t.links.queue.length = s.links.queue.length + 1
          ∧ ∀ l, l ≠ lid.val → t.leaf l = s.leaf l)
      ∧ (c.sends ≠ 0 → Due s (c.firstNs + s.fld R.SEG_TIMING_CMD_TIMEOUT * 1000000000) →
        ∃ t, exec (.cmdTimeout lid) s = .next t ∧ CmdEnded s t lid c .timeout false))
  ∧ (∀ (s : State) (l : Fin 16408), s.fr.phase = .emit → (s.leaf l).traf.isSome = true → (s.leaf l).hold ≤ s.fr.number → l.val ∈ s.allLeaves →
      ∃ t, exec (.trafficHoldEnd l) s = .next t ∧ DataKept s t ∧ (∀ k, k ≠ l.val → t.leaf k = s.leaf k)
        ∧ (t.leaf l).source = (governing s.switchPos (s.safeLevel l) s.fr.number (s.leaf l)).1
        ∧ ∀ v, s.switchPos = 0 → (s.leaf l).garnet = false → s.safeLevel l = none → (s.leaf l).sched = some v →
            (t.leaf l).source = 1 ∧ (v ≤ (s.leaf l).sent → (s.leaf l).source = 2 → (t.leaf l).sent = v))
  ∧ (∀ (s : State) (k : Fin 16), s.fr.phase = .emit → s.bit R.SEG_SAFE_KIND k = true → s.safeInForce k s.fr.number = false →
      ∃ t, exec (.safetyExpire k) s = .next t ∧ DataKept s t
        ∧ ∀ l ∈ s.allLeaves, (t.leaf l).source = (governing s.switchPos (s.safeLevel l) s.fr.number (s.leaf l)).1)
  ∧ (∀ s : State, s.fr.phase = .emit → s.seg.tally.shed = true → s.seg.tally.delay ≤ s.seg.overRun → s.seg.tally.cap < s.totalLoad →
      ∃ t, exec .loadShed s = .next t ∧ DataKept s t ∧ t.bit R.PWR_TALLY_STAT_SHEDDING = true
        ∧ ∀ l ∈ s.allLeaves,
            let g := s.leaf l
            let v := g.sent * s.seg.tally.cap / s.totalLoad
            if (g.source = 1 ∨ g.source = 2) ∧ v < g.sent then (t.leaf l).sent = v ∧ (t.leaf l).shed = true else t.leaf l = g)
  ∧ (∀ s : State, s.part.meter = true → s.ready 13 = true → s.pwr.mode = .on →
      let p := s.fld R.SEG_RECON_CFG_PERIOD * 60
      let b := s.utcMs / 1000 / p * p
      s.seg.reconDone < b → b * 1000 + p * 1000 / 3 ≤ s.utcMs →
      ∃ t, exec .reconPeriodEnd s = .next t ∧ StoresKept s t ∧ t.seg.reconDone = b ∧ t.out = s.out ∧ ∀ f : Fin 6,
        (s.meterEnergy f (b - p) b = none ∨ s.lanternEnergy f (b - p) b = none →
          t.bit R.SEG_RECON_FLAGS_INCOMPLETE f = true ∧ t.bit R.SEG_RECON_FLAGS_HIGH f = s.bit R.SEG_RECON_FLAGS_HIGH f
            ∧ t.bit R.SEG_RECON_FLAGS_NEG f = s.bit R.SEG_RECON_FLAGS_NEG f)
        ∧ (∀ m, s.meterEnergy f (b - p) b = some m →
            t.fld R.SEG_RECON_MET_E f = m % 2 ^ 32 ∧ t.bit R.SEG_RECON_FLAGS_LOW f = decide (m < 1000))
        ∧ ∀ m l, s.meterEnergy f (b - p) b = some m → s.lanternEnergy f (b - p) b = some l →
            t.fld R.SEG_RECON_LANT_E f = l % 2 ^ 32 ∧ t.bit R.SEG_RECON_FLAGS_INCOMPLETE f = false)

namespace Sys2Proof.Claims

open Machine

/-- The campaign has gone to state `st`: SRC[73] is raised, and nothing but the campaign, the link queue and registers differs. -/
def CampIn (s t : State) (st : Nat) : Prop :=
  t.campState = st ∧ t.icu.level.getLsbD 73 = true
    ∧ t = { s with regs := t.regs, seg := { s.seg with camp := t.seg.camp }, links := { s.links with queue := t.links.queue }, icu := t.icu,
                   fr := { s.fr with nowUs := t.fr.nowUs }, out := t.out }

end Sys2Proof.Claims

/-- 07 R212, R213: a campaign starts for the joined lanterns of the hardware with an older image, announces, sends, polls and sends again for up to
ROUNDS rounds, verifies, waits READY, is activated at a frame far enough ahead, and ends 600 s after it; an ABORT ends it at once. The model's own
choices that it rests on: log entries 7, 69. -/
def Obligations.CampaignCommands : Prop :=
  (∀ (s : State) (who : Requester) (us : Fin 20000) (i : Fin 16),
      (WriteAccepted s who us R.SEG_FW_CTRL_IMAGE.addr (BitVec.ofNat 32 (i.val + 0x100)) → ∃ t, exec (.fwCampaignStart who us i) s = .next t
        ∧ (s.campState ≠ 0 → OnlyRegs s t [] ∧ Answered s t who .refusedState)
        ∧ (s.campState = 0 → s.carried i = none → OnlyRegs s t [] ∧ Answered s t who .invalid)
        ∧ (s.campState = 0 → s.carried i ≠ none → s.ready 11 = false → OnlyRegs s t [] ∧ Answered s t who .notReady)
        ∧ (s.campState = 0 → ∀ p, s.carried i = some p → s.ready 11 = true → CampIn s t 1 ∧ Answered s t who .ok
            ∧ t.seg.camp.image = i ∧ t.seg.camp.version = p.version ∧ t.seg.camp.bytes = p.bytes
            ∧ t.seg.camp.targets.map (fun x => x.lid) = (commissioned s.fmem s.part.lanterns).filter (fun l =>
                decide ((s.leaf l).hw = p.hw) && (s.leaf l).joined && decide (s.lan l 0x56 2 < p.version))
            ∧ t.seg.camp.targets.all (fun x => !x.failed) = true ∧ t.fld R.SEG_FW_STAT_ROUND = 0 ∧ t.fld R.SEG_FW_COUNT_FAILED = 0))
      ∧ (WriteAccepted s who us R.SEG_FW_CTRL_IMAGE.addr (BitVec.ofNat 32 (i.val + 0x200)) →
        let ahead := (s.fld R.SEG_FW_ACT_FRAME + 2 ^ 32 - s.fr.number % 2 ^ 32) % 2 ^ 32
        ∃ t, exec (.fwCampaignActivate who us i) s = .next t
          ∧ (s.campState ≠ 5 → OnlyRegs s t [] ∧ Answered s t who .refusedState)
          ∧ (s.campState = 5 → ahead < 50 ∨ 2 ^ 31 ≤ ahead → OnlyRegs s t [] ∧ Answered s t who .late)
          ∧ (s.campState = 5 → 50 ≤ ahead → ahead < 2 ^ 31 → CampIn s t 6 ∧ Answered s t who .ok ∧ t.seg.camp.actFrame = s.fr.number + ahead
              ∧ t.seg.camp.targets = s.seg.camp.targets))
      ∧ (WriteAccepted s who us R.SEG_FW_CTRL_IMAGE.addr (BitVec.ofNat 32 (i.val + 0x300)) → ∃ t, exec (.fwCampaignAbort who us i) s = .next t
        ∧ (s.campState = 0 → OnlyRegs s t [] ∧ Answered s t who .refusedState)
        ∧ (s.campState ≠ 0 → CampIn s t 0 ∧ Answered s t who .ok ∧ t.seg.camp.targets = [] ∧ t.seg.camp.bytes = []
            ∧ t.links.queue.all (fun x => match x.msg with | .bulk _ _ _ => false | _ => true) = true)))
  ∧ (∀ (s : State) (us : Fin 20000),
      (s.campState = 1 → s.seg.camp.actNs + 2400000000 ≤ (s.atUs us).nowNs → s.bulkWaits 0x30 = false →
        ∃ t, exec (.campaignAnnounceDone us) s = .next t ∧ CampIn s t 2 ∧ t.seg.camp.targets = s.seg.camp.targets ∧ t.out = s.out)
      ∧ (s.campState = 2 → s.bulkWaits 0x31 = false → ∃ t, exec (.campaignPassSent us) s = .next t ∧ CampIn s t 3 ∧ t.out = s.out
        ∧ t.seg.camp.targets = s.seg.camp.targets.map (fun x => { x with maps := State.mapsOf x.lap s.seg.camp.bytes.length, missing := [] }))
      ∧ (s.campState = 3 → s.seg.camp.actNs + 2 * s.fld R.SEG_TIMING_CMD_TIMEOUT * 1000000000 ≤ (s.atUs us).nowNs ∨
          s.seg.camp.targets.all (fun x => x.failed || x.maps.isEmpty) = true →
        let whole := s.seg.camp.targets.all (fun x => x.failed || x.missing.isEmpty)
        let again := !whole && decide (s.fld R.SEG_FW_STAT_ROUND < s.fld R.SEG_FW_CFG_ROUNDS)
        ∃ t, exec (.campaignPollEnd us) s = .next t ∧ CampIn s t (if again then 2 else 4) ∧ t.out = s.out
          ∧ (again = true → t.fld R.SEG_FW_STAT_ROUND = s.fld R.SEG_FW_STAT_ROUND + 1 ∧ t.seg.camp.targets = s.seg.camp.targets)
          ∧ (again = false → t.seg.camp.targets.map (fun x => (x.lid, x.failed)) =
              s.seg.camp.targets.map (fun x => (x.lid, x.failed || (!whole && !(x.maps.isEmpty && x.missing.isEmpty))))))
      ∧ (s.campState = 4 → s.campChecked = true →
        ∃ t, exec (.campaignVerifyEnd us) s = .next t ∧ CampIn s t 5 ∧ t.seg.camp.targets = s.seg.camp.targets ∧ t.out = s.out))
  ∧ (∀ (s : State) (lid : Fin 16384) (us : Fin 20000) (a : CmdAnswer), s.pwr.mode = .on →
      (a.code = 0x32 → s.campState = 3 → (lid.val, 0x32, leNat (a.data.take 1)) ∈ s.seg.camp.asked →
        ∃ t, exec (.cmdResponse lid us a) s = .next t ∧ t.seg.camp.targets = s.seg.camp.targets.map (fun x =>
          if x.lid = lid.val ∧ x.failed = false then { x with
            maps := x.maps.filter (fun k => decide (k ≠ leNat (a.data.take 1)))
            missing := x.missing ++ a.missing.filter (fun b => decide (b / State.mapBlocks x.lap = leNat (a.data.take 1))) } else x))
      ∧ (a.code = 0x33 → s.campState = 4 → (lid.val, 0x33, 0) ∈ s.seg.camp.asked →
        ∃ t, exec (.cmdResponse lid us a) s = .next t ∧ t.seg.camp.targets = s.seg.camp.targets.map (fun x =>
          if x.lid = lid.val ∧ x.failed = false then { x with checked := true, failed := decide (a.st ≠ Status.ok) } else x)))
  ∧ (∀ s : State, s.campState = 6 → Due s (s.seg.camp.actFrame * 20000000 + 600000000000) →
      ∃ t, exec .campaignActivateEnd s = .next t ∧ CampIn s t 0 ∧ t.out = s.out
        ∧ t.seg.camp.targets.map (fun x => (x.lid, x.failed)) = s.seg.camp.targets.map (fun x =>
            (x.lid, x.failed || decide (s.lan x.lid 0x56 2 ≠ s.seg.camp.version % 65536))))

namespace Sys2Proof.Claims

open Machine

/-- Nothing but registers, the two radio layers, the time inside the frame and what the block has sent differs. -/
def RadioOnly (s t : State) : Prop :=
  t = { s with regs := t.regs, rad := t.rad, links := t.links, fr := { s.fr with nowUs := t.fr.nowUs }, out := t.out }

/-- Where a frame falls: transceiver, mode and channel of its demodulator, and module time of the end of its SFD (08 R232). -/
def rxTrx (s : State) (f : RxFrame) : Nat := s.demodTrx f.demod
def rxMode (s : State) (f : RxFrame) : Nat := (s.demodTune f.demod).1
def rxSfd (s : State) (f : RxFrame) : Nat := f.sfdNs - s.fld R.RAD_TS_CORR_NS (rxMode s f)
def rxEnd (s : State) (f : RxFrame) : Nat := State.frameEnd f (rxMode s f) (rxSfd s f)

/-- A period in which the frame's demodulator takes nothing: its transceiver transmits, is to send an acknowledgement, or it retunes (08 R223,
R224). -/
def RxOff (s : State) (f : RxFrame) (q : Nat × Nat) : Prop :=
  q ∈ SMap.find [] s.rad.txSpans (rxTrx s f) ∨ q ∈ SMap.find [] s.rad.deafSpans f.demod
    ∨ ∃ a ∈ s.rad.acks, a.trx = rxTrx s f ∧ s.ackBarred a = false ∧ q = s.ackSpan a.mode a.octets a.endNs

/-- Reception was off as the SFD of the frame ended: the frame is not in progress. -/
def Unheard (s : State) (f : RxFrame) : Prop := ∃ q, RxOff s f q ∧ q.1 ≤ rxSfd s f ∧ rxSfd s f < q.2

/-- Reception of the frame stops between its SFD and the module time `upto`. -/
def Preempted (s : State) (f : RxFrame) (upto : Nat) : Prop := ∃ q, RxOff s f q ∧ rxSfd s f < q.1 ∧ q.1 < upto

/-- Its partition has room for it: stored frames, and those in progress, hold the rest (08 R230). -/
def RoomFor (s : State) (f : RxFrame) : Prop :=
  let p := s.fld R.RAD_DEMOD_PART f.demod
  ((s.rad.stored.filter (fun r => decide (r.part = p))).map (fun r => r.space)).sum
    + ((s.rad.inAir.filter (fun r => decide (r.part = p))).map (fun r => r.space)).sum + rxSpace f.psdu ≤ s.fld R.RAD_RXPART_SIZE p

/-- The reservation is that of the frame. -/
def Its (f : RxFrame) (a : RxAir) : Prop := a.demod = f.demod ∧ a.sfdNs = f.sfdNs

/-- The frame has the space that was reserved at its PHR. -/
def Reserved (s : State) (f : RxFrame) : Prop := ∃ a ∈ s.rad.inAir, Its f a

/-- The frame's space is free again, and the other reservations stand. -/
def Freed (s t : State) (f : RxFrame) : Prop := ∀ a, a ∈ t.rad.inAir ↔ a ∈ s.rad.inAir ∧ ¬ Its f a

/-- A frame that a running demodulator has taken whole, in the space reserved for it (08 R224, R230). -/
def Taken (s : State) (f : RxFrame) : Prop := s.demodRuns f.demod = true ∧ Reserved s f ∧ ¬ Preempted s f (rxEnd s f)

/-- The frame is dropped: one counter of its transceiver shows it, and its space is free again (08 R225, R230). -/
def RxDropped (s t : State) (f : RxFrame) (cnt : Fld) : Prop :=
  let x := rxTrx s f
  t = { s with regs := t.regs, rad := { s.rad with inAir := t.rad.inAir }, fr := { s.fr with nowUs := t.fr.nowUs } } ∧ Freed s t f
    ∧ (∀ a, a ≠ cnt.at x 0 → t.rd a = s.rd a) ∧ t.fld cnt x = min (s.fld cnt x + 1) 65535

/-- The frame is stored behind the others, with a descriptor of 64 bytes, and counted (08 R230, R231). -/
def RxStoredAs (s t : State) (f : RxFrame) (r : RxStored) : Prop :=
  r.part = s.fld R.RAD_DEMOD_PART f.demod ∧ r.space = rxSpace f.psdu ∧ r.arrNs = rxEnd s f ∧ r.desc.length = 64
    ∧ t.rad.stored = s.rad.stored ++ [r] ∧ t.fld R.RAD_RX_CNT_FRAMES (rxTrx s f) = min (s.fld R.RAD_RX_CNT_FRAMES (rxTrx s f) + 1) 4294967295

/-- What the PA-enable line of a transceiver shows of a transmit period: nothing with EN = 0, else its level from LEAD before the signal to LAG after
it (08 R234). -/
def paOut (s : State) (x : Nat) (span : Nat × Nat) : List Output :=
  if s.bit R.RAD_PA_EN x then
    [.paEnable x (span.1 + 200000 - s.fld R.RAD_PA_LEAD x * 1000) (span.2 - 200000 + s.fld R.RAD_PA_LAG x * 1000) (!s.bit R.RAD_PA_POL x)]
  else []

/-- One attempt to launch the head `e` of the queue of `x` in the state `u` (08 R236, R237): late, it is dropped, counted, and its item is back with the
links layer; held back by CCA, it is to be tried again in 500 µs; else it goes out, its SFD ending where its plan says. -/
def LaunchTried (s u t : State) (x : Fin 2) (e : TlqEntry) (rest : List TlqEntry) (energy : Int) : Prop :=
  let p := u.launchPlan x e
  let d := p.1 + u.leadNs e
  let limit := e.due + s.fld R.RAD_TLQ_CFG_LATE_LIMIT x * 1000
  RadioOnly s t
    ∧ (limit < d → t.tlqOf x = rest ∧ t.out = s.out ∧ t.fld R.RAD_TLQ_CNT_LATE x = min (s.fld R.RAD_TLQ_CNT_LATE x + 1) 65535
        ∧ t.bit (if x.val = 0 then R.RAD_EVT_LATE_A else R.RAD_EVT_LATE_B) = true
        ∧ (e.item.dest = 0xFFFF → t.links = s.links)
        ∧ (e.item.dest ≠ 0xFFFF → (∀ k ev si an, e.item.msg ≠ .beacon k ev si an) → (∀ q, e.item.msg ≠ .lastGasp q) →
            t.links = { s.links with queue := e.item :: s.links.queue }))
    ∧ (d ≤ limit → e.cca = true → s.fldI R.RAD_CCA_THRESH ≤ energy →
        t.tlqOf x = { e with retryNs := some (u.nowNs + 500000) } :: rest ∧ t.out = s.out ∧ t.links = s.links
        ∧ ∀ d : Fin 8, d.val < s.part.demods → s.demodTrx d = x.val →
            (p.1 - 200000, u.nowNs + 500000) ∈ SMap.find [] t.rad.deafSpans d)
    ∧ (d ≤ limit → e.cca = false ∨ energy < s.fldI R.RAD_CCA_THRESH →
        ∃ form, t.tlqOf x = rest ∧ t.out = s.out ++ .radio x d e.item.dest e.seq e.item.msg form :: paOut s x (u.launchSpan e d)
          ∧ form.mode = e.mode ∧ form.chan = p.2.chan ∧ form.power = min e.power (s.txPower x) ∧ form.octets = e.octets
          ∧ (e.flex = false → form.chan = e.chan) ∧ form.wake.length = e.wake
          ∧ t.fld R.RAD_TLQ_CNT_SENT x = min (s.fld R.RAD_TLQ_CNT_SENT x + 1) 65535
          ∧ t.fld R.RAD_TLQ_STAT_DELAY x = min 65535 ((d - e.due) / 1000)
          ∧ SMap.find [] t.rad.txSpans x = u.launchSpan e d :: SMap.find [] s.rad.txSpans x
          ∧ (∀ q ∈ t.rad.acks, q ∈ s.rad.acks ∧ (q.trx = x.val → overlaps (u.launchSpan e d) (s.ackSpan q.mode q.octets q.endNs) = false))
          ∧ (e.item.dest = 0xFFFF → t.links = s.links)
          ∧ (e.item.dest ≠ 0xFFFF → ∃ g : Flight, t.links = { s.links with flight := s.links.flight ++ [g] } ∧ g.trx = x.val ∧ g.seq = e.seq
              ∧ g.tries = e.tries ∧ g.item = e.item ∧ g.hop = s.itemHop e.item))

/-- An item that its transceiver's queue can take, as its entry stands (08 R235, 09 R261). -/
def Takes (u : State) (i : DownItem) : Prop :=
  let x := u.itemTrx i
  let e := (u.nextSeq).2.itemEntry x i (u.nextSeq).1
  u.classRoom x i = true ∧ (u.tlqOf x).length < 64 ∧ u.txArea + e.octets ≤ 524288 ∧ u.nowNs ≤ e.due + u.fld R.RAD_TLQ_CFG_LATE_LIMIT x * 1000
    ∧ e.due ≤ u.nowNs + 60000000000 ∧ e.mode ≤ 3 ∧ e.chan < chanCount u.part.bandU e.mode ∧ -20 ≤ e.power ∧ e.power ≤ u.maxPower
    ∧ u.ready (11 + x) = true

/-- The item has gone from the downlink queue into the launch queue, at its place (08 R236). -/
def Offered (s u t : State) (i : DownItem) : Prop :=
  let x := u.itemTrx i
  let e := (u.nextSeq).2.itemEntry x i (u.nextSeq).1
  RadioOnly s t ∧ t.out = s.out ∧ t.links.queue = s.links.queue.erase i ∧ t.tlqOf x = State.insertTlq e (s.tlqOf x)
    ∧ t.fld R.RAD_TLQ_STAT_DEPTH x = (s.tlqOf x).length + 1 ∧ t.links.seq = (s.links.seq + 1) % 256

end Sys2Proof.Claims

/-- 08 R223 to R231, R234 to R238 and 09 R254, R255, R261 to R263: at its PHR a frame has space reserved, or is counted lost or dropped; at its last bit
it is counted lost or dropped by the first test it fails; an acknowledgement ends the unicast it answers, a duplicate is counted, and a frame that passes all tests is stored with its acknowledgement due; an acknowledgement goes
out 1 ms after its frame, or is suppressed where the transmitter is taken; the head of a launch queue goes out when it is due and its transceiver
free, is dropped when it is late, and is tried again 500 µs after a busy CCA; the next item by class, then by the deficit tree, goes into a launch
queue; in ONYX none does. The model's own choices that it rests on: log entries 55, 70, 71, 178. -/
def Obligations.RadioTraffic : Prop :=
  (∀ (s : State) (f : RxFrame) (us : Fin 20000),
      let x := rxTrx s f
      let p := s.fld R.RAD_DEMOD_PART f.demod
      let u := s.atUs us
      let late := Preempted u f (State.phrEnd (rxMode s f) (rxSfd s f))
      (s.demodRuns f.demod = false ∨ Unheard u f → exec (.radioFrameReceive true f us) s = .next u)
      ∧ (s.demodRuns f.demod = true → ¬ Unheard u f →
        (late → ∃ t, exec (.radioFrameReceive true f us) s = .next t
          ∧ OnlyRegs s t [R.RAD_RX_LOST_PREEMPT.at x 0] ∧ t.fld R.RAD_RX_LOST_PREEMPT x = min (s.fld R.RAD_RX_LOST_PREEMPT x + 1) 65535)
        ∧ (¬ late → f.phrOk = false ∨ State.lengthOk f = false → ∃ t, exec (.radioFrameReceive true f us) s = .next t
          ∧ OnlyRegs s t [R.RAD_RX_DROP_MALFORMED.at x 0] ∧ t.fld R.RAD_RX_DROP_MALFORMED x = min (s.fld R.RAD_RX_DROP_MALFORMED x + 1) 65535)
        ∧ (¬ late → f.phrOk = true → State.lengthOk f = true → ¬ RoomFor s f →
          ∃ t, exec (.radioFrameReceive true f us) s = .next t ∧ OnlyRegs s t [R.RAD_RXPART_STAT_DROP.at p 0, R.RAD_EVT_OVR.addr]
            ∧ t.fld R.RAD_RXPART_STAT_DROP p = min (s.fld R.RAD_RXPART_STAT_DROP p + 1) 1023 ∧ t.bit R.RAD_EVT_OVR = true)
        ∧ (¬ late → f.phrOk = true → State.lengthOk f = true → RoomFor s f →
          ∃ t, exec (.radioFrameReceive true f us) s = .next t ∧ t = { u with rad := { s.rad with inAir := t.rad.inAir } }
            ∧ ∀ a, a ∈ t.rad.inAir ↔ (a ∈ s.rad.inAir ∧ a.demod ≠ f.demod) ∨ a = ⟨f.demod, f.sfdNs, p, rxSpace f.psdu⟩)))
  ∧ (∀ (s : State) (f : RxFrame) (us : Fin 20000),
      let u := s.atUs us
      let x := rxTrx s f
      (s.demodRuns f.demod = false ∨ ¬ Reserved s f → ∃ t, exec (.radioFrameReceive false f us) s = .next t
        ∧ t = { u with rad := { s.rad with inAir := t.rad.inAir } } ∧ Freed s t f)
      ∧ (s.demodRuns f.demod = true → Reserved s f → Preempted u f (rxEnd s f) →
        ∃ t, exec (.radioFrameReceive false f us) s = .next t ∧ RxDropped s t f R.RAD_RX_LOST_PREEMPT))
  ∧ (∀ (s : State) (f : RxFrame) (us : Fin 20000),
      let u := s.atUs us
      Taken u f →
      let x := rxTrx s f
      (f.fcsOk = false → ∃ t, exec (.radioFrameReceive false f us) s = .next t ∧ RxDropped s t f R.RAD_RX_LOST_FCS)
      ∧ (f.fcsOk = true → State.formOk f = false → ∃ t, exec (.radioFrameReceive false f us) s = .next t ∧ RxDropped s t f R.RAD_RX_DROP_MALFORMED)
      ∧ (f.fcsOk = true → State.formOk f = true → f.isAck = true → ∃ (t : State) (r : RxStored), exec (.radioFrameReceive false f us) s = .next t
          ∧ RadioOnly s t ∧ t.out = s.out ∧ RxStoredAs s t f r ∧ Freed s t f ∧ t.rad.acks = s.rad.acks
          ∧ (∀ g ∈ s.links.flight, g.trx = x → g.seq = f.seq → s.links.flight = [g] → rxEnd s f ≤ g.limitNs → t.links.flight = [])
          ∧ ((∀ g ∈ s.links.flight, g.trx ≠ x ∨ g.seq ≠ f.seq ∨ g.limitNs < rxEnd s f) → t.links = s.links))
      ∧ (f.fcsOk = true → State.formOk f = true → f.isAck = false →
          (s.filterMatch f = none → ∃ t, exec (.radioFrameReceive false f us) s = .next t ∧ RxDropped s t f R.RAD_RX_DROP_FILTER)
          ∧ ∀ m, s.filterMatch f = some m →
            (∀ e, (u.peerEntries f.src).find? (fun e => decide (e.seq = f.seq)) = some e →
              ∃ t, exec (.radioFrameReceive false f us) s = .next t ∧ RadioOnly s t ∧ t.out = s.out
                ∧ t.fld R.RAD_LINK_CNT_DUP = min (s.fld R.RAD_LINK_CNT_DUP + 1) 65535 ∧ Freed s t f
                ∧ (f.ar = false ∨ s.rad.acks = [] → t.rad.stored = s.rad.stored) ∧ (f.ar = false → t.rad.acks = s.rad.acks)
                ∧ (f.ar = true → s.rad.acks = [] → m = 2 ∨ m = 3 ∨ m = 4 →
                    ∃ a, t.rad.acks = [a] ∧ a.seq = f.seq ∧ a.trx = x ∧ a.endNs = rxEnd s f ∧ a.pend = e.pend))
            ∧ ((∀ e ∈ u.peerEntries f.src, e.seq ≠ f.seq) →
              ∃ t, exec (.radioFrameReceive false f us) s = .next t ∧ RadioOnly s t ∧ t.out = s.out ∧ t.rad.tlq = s.rad.tlq
                ∧ t.rad.stored.length = s.rad.stored.length + 1 ∧ Freed s t f
                ∧ (f.ar = false ∨ s.rad.acks = [] → ∃ r, RxStoredAs s t f r) ∧ (f.ar = false → t.rad.acks = s.rad.acks)
                ∧ (f.ar = true → s.rad.acks = [] → m = 2 ∨ m = 3 ∨ m = 4 →
                    ∃ a, t.rad.acks = [a] ∧ a.seq = f.seq ∧ a.trx = x ∧ a.endNs = rxEnd s f ∧ a.pend = u.pendFor f.src))))
  ∧ (∀ (s : State) (x : Fin 2) (a : AckDue), s.firstAck x = some a → Due s (a.endNs + 1000000) →
      let span := s.ackSpan a.mode a.octets a.endNs
      let u := s.atUs (ceilDiv (a.endNs + 1000000 - s.fr.edgeNs) 1000)
      let clash := (s.tlqOf x).any (fun e => overlaps span (u.plannedSpan e)) || (SMap.find [] s.rad.txSpans x).any (overlaps span)
      (clash = false → s.trxReady x = true → s.pwr.mode ≠ .onyx →
        ∃ t, exec (.ackTransmit x) s = .next t ∧ RadioOnly s t
          ∧ t.out = s.out ++ .ack x a.mode a.chan a.seq a.pend a.enh a.corr :: paOut s x span
          ∧ t.rad.acks = s.rad.acks.filter (fun b => decide (b ≠ a)) ∧ t.fld R.RAD_ACK_CNT_SENT x = min (s.fld R.RAD_ACK_CNT_SENT x + 1) 65535
          ∧ SMap.find [] t.rad.txSpans x = span :: SMap.find [] s.rad.txSpans x ∧ t.links.queue = s.links.queue)
      ∧ (clash = true ∨ s.trxReady x = false ∨ s.pwr.mode = .onyx →
        ∃ t, exec (.ackTransmit x) s = .next t ∧ RadioOnly s t ∧ t.out = s.out ∧ t.links = s.links
          ∧ t.rad.acks = s.rad.acks.filter (fun b => decide (b ≠ a)) ∧ t.rad.txSpans = s.rad.txSpans
          ∧ t.fld R.RAD_ACK_CNT_SUPPR x = min (s.fld R.RAD_ACK_CNT_SUPPR x + 1) 65535))
  ∧ (∀ (s : State) (x : Fin 2) (us : Fin 20000) (energy : Int) (e : TlqEntry) (rest : List TlqEntry),
      s.tlqOf x = e :: rest → e.retryNs = none → s.trxReady x = true →
      let u := s.atUs us
      ((u.launchPlan x e).1 < u.nowNs + 201000 → ∃ t, exec (.launch x us energy) s = .next t ∧ LaunchTried s u t x e rest energy)
      ∧ (u.nowNs + 201000 ≤ (u.launchPlan x e).1 → exec (.launch x us energy) s = .next u)
      ∧ (e.flex = false → s.busyUntil x ≤ u.nowNs → u.nowNs + 200000 ≤ e.due - s.leadNs e + 1000 → (u.launchPlan x e).1 = e.due - s.leadNs e))
  ∧ (∀ (s : State) (x : Fin 2) (energy : Int) (e : TlqEntry) (rest : List TlqEntry) (r : Nat),
      s.tlqOf x = e :: rest → e.retryNs = some r → Due s r → s.trxReady x = true →
      let u := s.atUs (ceilDiv (r - s.fr.edgeNs) 1000)
      let e0 := { e with retryNs := none }
      (u.launchPlan x e0).1 < u.nowNs + 201000 → ∃ t, exec (.ccaRetry x energy) s = .next t ∧ LaunchTried s u t x e0 rest energy)
  ∧ (∀ (s : State) (us : Fin 20000), let u := s.atUs us
      (s.pwr.mode = .onyx → exec (.downlinkOffer us) s = .next s)
      ∧ (s.pwr.mode ≠ .onyx →
        (∀ i, u.firstUrgent = some i → Takes u i → ∃ t, exec (.downlinkOffer us) s = .next t ∧ Offered s u t i)
        ∧ (∀ i arb l, u.firstUrgent = none → u.downLeaves ≠ [] →
            serveOne (u.bit R.RAD_DL_CFG_COMPAT) u.links.arb u.downLeaves = (arb, some l) →
            u.links.queue.find? (fun i => decide (2 ≤ i.cls) && !i.link && u.launchable i && decide (u.itemPath i = l.path)) = some i →
            Takes u i → ∃ t, exec (.downlinkOffer us) s = .next t ∧ Offered s u t i ∧ t.links.arb = arb)
        ∧ (u.firstUrgent = none → u.downLeaves = [] → exec (.downlinkOffer us) s = .next u)))

/-- 08 R221, R223, R229 and 09 R241, R249, R251: a demodulator, a receive window, a hop map and a receive partition take a legal write and refuse an
illegal one with the status of the first test it fails; a channel map of at least two entries is announced, and takes effect at the first whole
minute at least 70 s later. The model's own choices that it rests on: log entry 72. -/
def Obligations.RadioConfiguration : Prop :=
  (∀ (s : State) (who : Requester) (us : Fin 20000) (d : Fin 8) (v : Word), WriteAccepted s who us (0x60040 + 4 * d) v →
      let x := getBits v 1 1
      let mode := getBits v 2 2
      let chan := getBits v 8 8
      let lock := s.anyGen1 = true ∧ d.val = s.fld R.RAD_LINK_CFG_G1DEMOD
      let far := s.part.trxs ≤ x ∨ chanCount s.part.bandU mode ≤ chan ∨ s.inWindow mode chan (s.fld R.RAD_WIN_CENTRE x) = false
      ∃ t, exec (.radDemodWrite who us d v) s = .next t
        ∧ (lock → OnlyRegs s t [] ∧ Answered s t who .locked) ∧ (¬ lock → far → OnlyRegs s t [] ∧ Answered s t who .range)
        ∧ (¬ lock → ¬ far → s.fld R.RAD_RXPART_SIZE (getBits v 16 3) = 0 → OnlyRegs s t [] ∧ Answered s t who .invalid)
        ∧ (¬ lock → ¬ far → s.fld R.RAD_RXPART_SIZE (getBits v 16 3) ≠ 0 → RadioOnly s t ∧ Answered s t who .ok
            ∧ t.rd (0x60040 + 4 * d) = v &&& 0x0007FF0F)
        ∧ (¬ lock → ¬ far → s.fld R.RAD_RXPART_SIZE (getBits v 16 3) ≠ 0 → s.bit R.PWR_STAT_STATE = false → (∀ a, a ≠ 0x60040 + 4 * d.val → t.rd a = s.rd a)
            ∧ t.rad = { s.rad with deafSpans := t.rad.deafSpans }
            ∧ (v &&& 0x0007FF0F = s.rd (0x60040 + 4 * d) → t.rad = s.rad ∧ t.links = s.links)
            ∧ (v &&& 0x0007FF0F ≠ s.rd (0x60040 + 4 * d) → ∀ k : Fin 8, k.val < s.part.demods →
                k = d ∨ s.fld R.RAD_DEMOD_TRX k = x ∨ s.fld R.RAD_DEMOD_TRX k = s.fld R.RAD_DEMOD_TRX d →
                SMap.find [] t.rad.deafSpans k = ((s.atUs us).nowNs, (s.atUs us).nowNs + 200000) :: SMap.find [] s.rad.deafSpans k)))
  ∧ (∀ (s : State) (who : Requester) (us : Fin 20000) (x : Fin 2) (v : Word), WriteAccepted s who us (0x60100 + 64 * x) v →
      ∃ t, exec (.radWinWrite who us x v) s = .next t ∧ RadioOnly s t ∧ Answered s t who .ok
        ∧ t.fld R.RAD_WIN_CENTRE x = v.toNat % 2 ^ 20 ∧ (∀ a, a ≠ 0x60100 + 64 * x.val → t.rd a = s.rd a)
        ∧ (s.fld R.RAD_WIN_CENTRE x = v.toNat % 2 ^ 20 → t.rad.deafSpans = s.rad.deafSpans ∧ t.links = s.links)
        ∧ (s.fld R.RAD_WIN_CENTRE x ≠ v.toNat % 2 ^ 20 → ∀ d : Fin 8, d.val < s.part.demods → s.demodTrx d = x.val →
            SMap.find [] t.rad.deafSpans d = ((s.atUs us).nowNs, (s.atUs us).nowNs + 200000) :: SMap.find [] s.rad.deafSpans d))
  ∧ (∀ (s : State) (who : Requester) (us : Fin 20000) (v : Word), WriteAccepted s who us R.RAD_AGATE_DEMOD.addr v → s.bit R.PWR_STAT_STATE = false →
      ∃ t, exec (.registerWrite who us R.RAD_AGATE_DEMOD.addr v) s = .next t ∧ OnlyRegs s t [R.RAD_AGATE_DEMOD.addr] ∧ Answered s t who .ok
        ∧ t.fld R.RAD_AGATE_DEMOD = getBits v 0 3)
  ∧ (∀ (s : State) (who : Requester) (us : Fin 20000) (v : Word),
      (∀ h : Fin 4, WriteAccepted s who us (0x60800 + 4 * h) v →
        let mode := getBits v 0 2
        let valid := v.getLsbD 31
        ∃ t, exec (.radHopCfgWrite who us (h.castLE (by decide)) v) s = .next t
          ∧ (s.hopValid h = true → mode ≠ s.hopMode h → OnlyRegs s t [] ∧ Answered s t who .locked)
          ∧ (s.hopValid h = true → mode = s.hopMode h → valid = false → s.mapInUse h = true → OnlyRegs s t [] ∧ Answered s t who .busy)
          ∧ (s.hopValid h = false → valid = true → s.hopLegal h mode = false → OnlyRegs s t [] ∧ Answered s t who .range)
          ∧ (s.hopValid h = false → valid = true → s.hopLegal h mode = true → Answered s t who .ok ∧ t.hopValid h = true
              ∧ t.hopMode h = mode ∧ h.val ∈ t.links.advDue ∧ RadioOnly s t ∧ ∀ a, a ≠ 0x60800 + 4 * h.val → t.rd a = s.rd a)
          ∧ ((s.hopValid h = true ∧ mode = s.hopMode h ∧ (valid = true ∨ s.mapInUse h = false)) ∨ (s.hopValid h = false ∧ valid = false) →
              OnlyRegs s t [0x60800 + 4 * h.val] ∧ Answered s t who .ok ∧ t.hopValid h = valid ∧ t.hopMode h = mode))
      ∧ ∀ k : Fin 64, WriteAccepted s who us (0x60900 + 4 * k) v →
        ∃ t, exec (.radHopCfgWrite who us ⟨k + 4, by omega⟩ v) s = .next t
          ∧ (s.hopValid (k / 16) = true → OnlyRegs s t [] ∧ Answered s t who .locked)
          ∧ (s.hopValid (k / 16) = false → OnlyRegs s t [0x60900 + 4 * k.val] ∧ Answered s t who .ok ∧ t.rd (0x60900 + 4 * k) = v))
  ∧ (∀ (s : State) (who : Requester) (us : Fin 20000) (p : Fin 8) (v : Word), WriteAccepted s who us (0x60080 + 4 * p) v →
      let n := getBits v 0 22
      let odd := n ≠ 0 ∧ (n % 64 ≠ 0 ∨ n < 2112)
      let full := 3670016 < (((List.range 8).filter (fun q => decide (q ≠ p.val))).map (fun q => s.fld R.RAD_RXPART_SIZE q)).sum + n
      let used := ∃ d, d < s.part.demods ∧ s.bit R.RAD_DEMOD_EN d = true ∧ s.fld R.RAD_DEMOD_PART d = p.val
      ∃ t, exec (.radRxpartWrite who us p v) s = .next t ∧ (odd → OnlyRegs s t [] ∧ Answered s t who .range)
        ∧ (¬ odd → full → OnlyRegs s t [] ∧ Answered s t who .noSpace)
        ∧ (¬ odd → ¬ full → used → OnlyRegs s t [] ∧ Answered s t who .busy)
        ∧ (¬ odd → ¬ full → ¬ used → OnlyRegs s t [0x60080 + 4 * p.val] ∧ Answered s t who .ok ∧ t.fld R.RAD_RXPART_SIZE p = n))
  ∧ (∀ (s : State) (who : Requester) (us : Fin 20000) (v : Word), WriteAccepted s who us 0x60208 v →
      let m := s.fld R.RAD_LINK_MAP_LO_MAP + v.toNat * 2 ^ 32
      ∃ t, exec (.radLinkMapCommit who us v) s = .next t
        ∧ ((mapEntries m).length < 2 → OnlyRegs s t [] ∧ Answered s t who .invalid)
        ∧ (2 ≤ (mapEntries m).length → RadioOnly s t ∧ Answered s t who .ok ∧ t.links.map = s.links.map
            ∧ (∃ ms, t.links.mapNext = some (m, ms) ∧ ms % 60000 = 0 ∧ (s.atUs us).nowNs + 70000000000 ≤ ms * 1000000
                ∧ ms * 1000000 < (s.atUs us).nowNs + 130000000000)
            ∧ ∀ a, a ≠ 0x60208 → t.rd a = s.rd a))
  ∧ (∀ (s : State) (m ms : Nat), s.links.mapNext = some (m, ms) → Due s (ms * 1000000) →
      ∃ t, exec .channelMapSwitch s = .next t ∧ t.links = { s.links with map := m, mapNext := none }
        ∧ t.fld R.RAD_LINK_MAP_VER_VERSION = (s.fld R.RAD_LINK_MAP_VER_VERSION + 1) % 256 ∧ RadioOnly s t ∧ t.rad = s.rad ∧ t.out = s.out
        ∧ ∀ a, a ≠ R.RAD_LINK_MAP_VER_VERSION.addr → t.rd a = s.rd a)

namespace Sys2Proof.Claims

open Machine

/-- Only the connection of `lid` differs among the connections. -/
def OnlyConn (s t : State) (lid : Nat) : Prop := ∀ k, k ≠ lid → t.conn k = s.conn k

end Sys2Proof.Claims

/-- 09 R249, R250, R252, R254, R257, R259, R260: a Gen-1 window opens around its event on the event's channel; one that closes without a frame makes the
connection WIDENING, and RESYNC at the sixth; a resync beacon goes out while in RESYNC; a unicast without acknowledgement is repeated three times
and then starts the supervision timer; at its timeout the connection is DROPPED and DST of the LID set for 60 s; a ROUTE_ERR makes a hop
unreachable. The model's own choices that it rests on: log entries 7, 56, 57, 73, 74, 143, 177. -/
def Obligations.LinkCommands : Prop :=
  (∀ (s : State) (lid : Fin 16384), s.g1Live lid = true → s.windowOpen = false →
      let c := s.conn lid
      let ev := c.evNs + c.si * 1000000
      let guard := (ev - c.heardNs) * 80 / 1000000 + 200000
      let at_ := ev - min 12500000 (guard * 2 ^ c.m)
      Due s at_ → (s.atUs (ceilDiv (at_ - s.fr.edgeNs) 1000)).nowNs ≤ ev + guard → c.newMap = none →
      ∃ t, exec (.g1WindowOpen lid) s = .next t ∧ RadioOnly s t ∧ OnlyConn s t lid ∧ t.regs = s.regs ∧ t.out = s.out
        ∧ t.conn lid = { c with evcnt := (c.evcnt + 1) % 65536, evNs := ev, window := true, got := false }
        ∧ t.rad = { s.rad with g1chan := some (s.chanOf (s.hopMap false) c.chmap ((c.evcnt + 1) % 65536) 0) })
  ∧ (∀ (s : State) (lid : Fin 16384), let c := s.conn lid
      c.window = true →
      (c.got = true → ∃ t, exec (.g1WindowClose lid) s = .next t ∧ RadioOnly s t ∧ OnlyConn s t lid ∧ t.rad = { s.rad with g1chan := none }
        ∧ t.conn lid = { c with window := false } ∧ t.regs = s.regs ∧ t.out = s.out)
      ∧ (c.got = false → Due s (c.evNs + min 12500000 (((c.evNs - c.heardNs) * 80 / 1000000 + 200000) * 2 ^ c.m)) →
        ∃ t, exec (.g1WindowClose lid) s = .next t ∧ RadioOnly s t ∧ OnlyConn s t lid ∧ t.rad = { s.rad with g1chan := none } ∧ t.regs = s.regs
          ∧ (c.st = 1 → (t.conn lid).st = 2 ∧ (t.conn lid).m = 1 ∧ (t.conn lid).supNs ≠ none)
          ∧ (c.st = 2 → c.m + 1 < 6 → t.conn lid = { c with window := false, m := c.m + 1 })
          ∧ (c.st = 2 → c.m + 1 = 6 → t.conn lid = { c with window := false, st := 3, m := 6 })))
  ∧ (∀ (s : State) (lid : Fin 16384) (x : Nat), (s.conn lid).supNs = some x → s.connected lid = true → Due s (x + (s.conn lid).supMs * 1000000) →
      ∃ t, exec (.supervisionTimeout lid) s = .next t ∧ RadioOnly s t ∧ OnlyConn s t lid ∧ t.out = s.out ∧ (t.conn lid).st = 4
        ∧ t.rad = (if (s.conn lid).window then { s.rad with g1chan := none } else s.rad)
        ∧ (t.conn lid).supNs = none ∧ t.bit R.RAD_LINK_EVT_DROP = true ∧ t.bit (R.RAD_FILT_DST (lid % 16)) (lid / 16) = true
        ∧ SMap.find 0 t.links.dst lid = t.nowNs + 60000000000 ∧ (s.firstHop lid = some lid.val → t.routeOk lid = false)
        ∧ t.fld R.RAD_LINK_CNT2_DROPS = min (s.fld R.RAD_LINK_CNT2_DROPS + 1) 65535)
  ∧ (∀ (s : State) (lid : Fin 16384) (us : Fin 20000) (at_ : Nat), let u := s.atUs us
      let x := u.pickTrx
      let c := s.conn lid
      s.pwr.mode ≠ .onyx → c.st = 3 → s.g1Live lid = true → u.nowNs ≤ at_ → at_ < u.nowNs + 1000 → at_ % 1000000 = 0 → at_ / 1000000 % 30000 ∈ [500, 1000, 1500] →
      (s.tlqOf x).length < 64 → s.txArea + 29 ≤ 524288 → s.ready (11 + x) = true → -20 ≤ s.txPower x → s.txPower x ≤ s.maxPower →
      s.chanOf (s.hopMap false) c.chmap 0 0 < chanCount s.part.bandU (s.hopMode (s.hopMap false)) →
      ∃ t e, exec (.resyncBeacon lid us) s = .next t ∧ RadioOnly s t ∧ t.out = s.out ∧ t.links = { s.links with seq := (s.links.seq + 1) % 256 }
        ∧ t.tlqOf x = State.insertTlq e (s.tlqOf x) ∧ e.seq = s.links.seq ∧ e.chan = s.chanOf (s.hopMap false) c.chmap 0 0
        ∧ e.item.dest = lid.val ∧ e.due = at_ + airNs (s.hopMode (s.hopMap false)) s.headOctets
        ∧ e.item.msg = .beacon ((c.evcnt + 1) % 65536) ((c.evNs + c.si * 1000000) / 1000000) c.si c.anchor)
  ∧ (∀ (s : State) (x : Fin 2) (seq : Fin 256) (us : Fin 20000) (delay : Fin 4) (g : Flight), let u := s.atUs us
      s.links.flight.find? (fun g => decide (g.trx = x.val ∧ g.seq = seq.val ∧ g.limitNs ≤ u.nowNs)) = some g →
      (3 ≤ g.tries → (s.conn g.hop).st = 1 → (s.conn g.hop).gen2 = true → (s.conn g.hop).supNs = none →
        ∃ t, exec (.ackWaitTimeout x seq us delay) s = .next t ∧ RadioOnly s t ∧ OnlyConn s t g.hop ∧ t.rad = s.rad ∧ t.regs = s.regs ∧ t.out = s.out
          ∧ t.conn g.hop = { s.conn g.hop with supNs := some u.nowNs } ∧ t.links.flight = s.links.flight.filter (fun q => decide (q ≠ g)))
      ∧ (g.tries < 3 → u.classRoom x g.item = false → exec (.ackWaitTimeout x seq us delay) s = .next u)
      ∧ (g.tries < 3 → u.classRoom x g.item = true → s.pwr.mode ≠ .onyx →
        let c := s.conn g.hop
        let c1 := if c.gen2 = false ∨ c.ci = 0 then c
          else if g.tries < 2 then { c with openNs := max c.openNs (u.nowNs + 10000000), openChan := g.chan } else { c with openNs := 0 }
        let w := if s.connected g.hop = true then u.setConn g.hop c1 else u
        let e := w.itemEntry x { g.item with due := u.nowNs + delay * 1000000 } g.seq
        (u.tlqOf x).length < 64 → u.txArea + e.octets ≤ 524288 → u.nowNs ≤ e.due + u.fld R.RAD_TLQ_CFG_LATE_LIMIT x * 1000 →
        e.due ≤ u.nowNs + 60000000000 → e.mode ≤ 3 → e.chan < chanCount s.part.bandU e.mode → -20 ≤ e.power →
        e.power ≤ s.maxPower → s.ready (11 + x) = true →
        ∃ t, exec (.ackWaitTimeout x seq us delay) s = .next t ∧ RadioOnly s t ∧ t.out = s.out ∧ OnlyConn s t g.hop
          ∧ t.links = { s.links with conns := w.links.conns, flight := s.links.flight.filter (fun q => decide (q ≠ g)) }
          ∧ t.tlqOf x = State.insertTlq { e with tries := g.tries + 1, item := g.item } (s.tlqOf x)))
  ∧ (∀ (s : State) (x : Nat), s.links.advNs = some x → s.hopValid (s.hopMap true) = true → Due s (x + 30000000000) →
      ∃ t i, exec .routeAdvSend s = .next t ∧ i.cls = 0 ∧ i.link = true
        ∧ t = { s with links := { s.links with queue := s.links.queue ++ i :: (if s.sampleCi = 0 then [] else [{ i with sampling := true }]), advNs := some t.nowNs }, fr := { s.fr with nowUs := t.fr.nowUs } }
        ∧ x + 30000000000 ≤ t.nowNs
        ∧ i.dest = 0xFFFF ∧ i.msg = .routeAdv 0 0 0 (s.fld R.RAD_LINK_MAP_VER_VERSION))
  ∧ (∀ (s : State) (lid : Fin 16384), ∃ t, exec (.routeErr lid) s = .next t ∧ RadioOnly s t ∧ t.bit R.RAD_LINK_EVT_ROUTE = true
      ∧ t.routeOk lid = false ∧ t.out = s.out ∧ (∀ k, k ∈ t.links.failed ↔ k ∈ s.links.failed ∨ k = lid.val ∨ k ∈ s.subtree lid)
      ∧ ∀ a, a ≠ R.RAD_LINK_EVT_ROUTE.addr → t.rd a = s.rd a)
  ∧ (∀ (s : State) (lid : Fin 16384), let x := SMap.find 0 s.links.dst lid
      x ≠ 0 → Due s x → ∃ t, exec (.dstExpire lid) s = .next t ∧ RadioOnly s t ∧ t.out = s.out ∧ SMap.find 0 t.links.dst lid = 0
        ∧ t.bit (R.RAD_FILT_DST (lid % 16)) (lid / 16) = false
        ∧ ∀ k : Fin 16384, k ≠ lid → t.bit (R.RAD_FILT_DST (k % 16)) (k / 16) = s.bit (R.RAD_FILT_DST (k % 16)) (k / 16))

namespace Sys2Proof.Claims

open Machine

/-- Nothing but the clock's own state, registers, the event logs and the time inside the frame differs. -/
def ClockOnly (s t : State) : Prop :=
  t = { s with
      regs := t.regs, ntu := t.ntu, evr := t.evr, icu := t.icu, out := t.out
      rtc := { s.rtc with hourNs := t.rtc.hourNs, steer := t.rtc.steer, checkNs := t.rtc.checkNs }
      fr := { s.fr with nowUs := t.fr.nowUs, leapDue := t.fr.leapDue } }

/-- The offset that a measurement on port `p` gives (10 R271, R272). -/
def ptpOffset (s : State) (p : Fin 2) (raw corr : Int) : Int :=
  raw - s.ingress p - s.fldI R.NTU_PORT_DELAY_NS p - s.fldI R.NTU_ASYM_NS p - corr

/-- A Sync or delay message that came so is one that port `p` takes (10 R269). -/
def Hears (s : State) (p : Fin 2) (via : PtpVia) : Prop :=
  s.ntuRuns p = true ∧ s.ntuHears p = true ∧ via.transport = s.fld R.NTU_PORT_CFG_TRANSPORT p ∧ via.unsupported = false
    ∧ via.domain = s.fld R.NTU_CTRL_DOMAIN

/-- A message on port `p` that relies on what 10 R269 does not support, or that came by another transport: the first counts in ERR, the
second does nothing. -/
def NotTaken (s t : State) (p : Fin 2) (via : PtpVia) : Prop :=
  (via.transport ≠ s.fld R.NTU_PORT_CFG_TRANSPORT p → OnlyRegs s t [])
    ∧ (via.transport = s.fld R.NTU_PORT_CFG_TRANSPORT p → via.unsupported = true → OnlyRegs s t [R.NTU_PORT_CNT_ERR.at p 0]
      ∧ t.fld R.NTU_PORT_CNT_ERR p = min (s.fld R.NTU_PORT_CNT_ERR p + 1) 65535)

/-- The one foreign master that port `p` knows is the sender of `a`, last heard no more than four intervals before `now`. -/
def HeardAgain (s : State) (p : Fin 2) (a : Announce) (now : Nat) : Prop :=
  ∃ f, (s.ntuPort p).foreign = [f] ∧ f.ann.source = a.source ∧ now ≤ f.lastNs + 4 * a.intervalMs * 1000000

/-- The integrator and the frequency after one action of the servo on `offset` (10 R272). -/
def ServoActs (s t : State) (offset logSync : Int) : Prop :=
  let e0 := max (-2147483648) (min (offset * 256) 2147483647)
  let e := if logSync < 0 then e0 * 2 ^ logSync.natAbs else Int.fdiv e0 (2 ^ logSync.natAbs)
  let slew : Int := 256000 * s.fld R.NTU_SLEW_PPM
  let p := Int.fdiv (s.fldI R.NTU_KP_KP * e) (2 ^ s.fld R.NTU_SHIFT_SP)
  let i := s.ntu.integ + Int.fdiv (s.fldI R.NTU_KI_KI * e) (2 ^ s.fld R.NTU_SHIFT_SI)
  t.ntu.integ = (if -slew ≤ p ∧ p ≤ slew then max (-128000000) (min i 128000000) else s.ntu.integ)
    ∧ t.fldI R.NTU_FREQ_F = max (-128000000) (min (t.ntu.integ + max (-slew) (min p slew)) 128000000)

end Sys2Proof.Claims

/-- 10 R267, R269 to R280: a message by another transport or with an unsupported form is not taken; a measurement on the active port steers module time
in LOCKED and TRACK, sets LOCKED when R273 is met, freezes it in HOLDOVER beyond the jump limit, resumes there within it, and in RTC steers the network
clock; an accepted jump becomes a step; a path delay, an Announce, a lost master and a link change show in the port's registers; a jump is accepted,
PTP disabled, a step applied at its edge, and a leap second counted. The model's own choices that it rests on: log entries 7, 46, 60, 75 to 80, 149. -/
def Obligations.TimeCommands : Prop :=
  (∀ (s : State) (p : Fin 2) (us : Fin 20000) (via : PtpVia) (raw corr : Int) (k : Fin 6),
      let go := exec (.ptpSyncMeasurement p us ⟨via, raw⟩ corr k) s
      let o := ptpOffset s p raw corr
      let limit := s.fld R.NTU_JUMP_LIMIT_NS
      let run := if o.natAbs ≤ s.fld R.NTU_LOCK_CFG_THRESH then s.ntu.run + 1 else 0
      (s.ntuRuns p = true → ∃ t, go = .next t ∧ NotTaken s t p via)
      ∧ (Hears s p via → ∃ t, go = .next t
      ∧ ClockOnly s t ∧ t.fldI R.NTU_PORT_OFS_NS p = max (-2147483648) (min o 2147483647)
      ∧ t.fld R.NTU_PORT_CNT_SYNC p = min (s.fld R.NTU_PORT_CNT_SYNC p + 1) 65535
      ∧ (s.ntuActive ≠ p.val → t.ntuState = s.ntuState ∧ t.ntu.integ = s.ntu.integ ∧ t.fldI R.NTU_FREQ_F = s.fldI R.NTU_FREQ_F)
      ∧ (s.ntuActive = p.val → s.ntuState = 1 ∨ s.ntuState = 2 →
          (o.natAbs ≤ limit → ServoActs s t o (k.val - 4) ∧ t.ntu.run = run
            ∧ t.ntuState = (if s.fld R.NTU_LOCK_CFG_COUNT ≤ run then 2 else s.ntuState))
          ∧ (limit < o.natAbs → t.ntuState = 3 ∧ t.bit R.NTU_STAT_JUMP = true ∧ t.bit R.NTU_EVT_JUMP = true
            ∧ t.ready 17 = false ∧ t.bit R.NTU_STAT_LOCK = false ∧ t.ntu.integ = s.ntu.integ))
      ∧ (s.ntuActive = p.val → s.ntuState = 3 → s.ntu.accept = false →
          (o.natAbs ≤ limit → t.ntuState = 1 ∧ t.bit R.NTU_STAT_JUMP = false ∧ ServoActs s t o (k.val - 4) ∧ t.ntu.run = run)
          ∧ (limit < o.natAbs → t.ntuState = 3 ∧ t.bit R.NTU_STAT_JUMP = true))
      ∧ (s.ntuActive = p.val → s.ntuState = 3 → s.ntu.accept = true → s.bit R.NTU_STAT_JUMP = true → t.ntu.accept = false
          ∧ (s.gmOf p = some s.ntu.jumpGm → t.ntuState = 1 ∧ t.bit R.NTU_STAT_JUMP = false ∧ t.ntu.step = some (-o))
          ∧ (s.gmOf p ≠ some s.ntu.jumpGm → t.ntuState = 3 ∧ t.bit R.NTU_STAT_JUMP = true ∧ t.ntu.step = s.ntu.step))
      ∧ (s.ntuActive = p.val → s.ntuState = 0 → s.ntu.net = none → t.ntuState = 0 ∧ t.ntu.net = some (-o) ∧ t.ntu.run = s.ntu.run + 1
          ∧ t.ntu.step = (if s.fld R.NTU_LOCK_CFG_COUNT ≤ s.ntu.run + 1 then some (-o) else s.ntu.step))))
  ∧ (∀ (s : State) (p : Fin 2) (us : Fin 20000) (via : PtpVia) (p2p : Bool) (sum : Int), let go := exec (.ptpDelayResponse p us ⟨via, p2p, sum⟩) s
      (s.ntuRuns p = true → ∃ t, go = .next t ∧ NotTaken s t p via)
      ∧ (Hears s p via → p2p = s.bit R.NTU_PORT_CFG_DELAY p → ∃ t, go = .next t ∧ OnlyRegs s t [R.NTU_PORT_DELAY_NS.at p 0]
        ∧ t.fldI R.NTU_PORT_DELAY_NS p = max (-2147483648) (min (Int.fdiv (sum - s.ingress p - s.egress p) 2) 2147483647))
      ∧ (Hears s p via → p2p ≠ s.bit R.NTU_PORT_CFG_DELAY p → ∃ t, go = .next t ∧ OnlyRegs s t []))
  ∧ (∀ (s : State) (p : Fin 2) (us : Fin 20000) (a : Announce), s.ntuRuns p = true → ∃ t, exec (.ptpAnnounce p us a) s = .next t
      ∧ ClockOnly s t ∧ NotTaken s t p ⟨a.transport, a.domain, a.unsupported⟩
      ∧ (a.transport = s.fld R.NTU_PORT_CFG_TRANSPORT p → a.unsupported = false → a.domain ≠ s.fld R.NTU_CTRL_DOMAIN → OnlyRegs s t [])
      ∧ (a.transport = s.fld R.NTU_PORT_CFG_TRANSPORT p → a.unsupported = false → a.domain = s.fld R.NTU_CTRL_DOMAIN →
          ((s.ntuPort p).foreign = [] → (s.ntuPort p).master = none → (t.ntuPort p).master = none ∧ t.ntuActive = s.ntuActive)
          ∧ (HeardAgain s p a (s.atUs us).nowNs → a.gm < 2 ^ 64 → (t.ntuPort p).master = some a
            ∧ t.fld R.NTU_PORT_GM_LO_ID p + 2 ^ 32 * t.fld R.NTU_PORT_GM_HI_ID p = a.gm
            ∧ (s.ntuActive = p.val → t.ntuActive = p.val ∧ t.ntuState = s.ntuState ∧ t.ntu.ptpOff = a.utcOffset
                ∧ t.bit R.NTU_UTC_PTP_VALID = a.utcOffset.isSome)
            ∧ (s.ntuActive ≠ p.val → (s.ntuPort s.ntuActive).master = none → t.ntuActive = p.val ∧ t.bit R.NTU_EVT_PORTSW = true
                ∧ t.ntuState = (if s.ntuState = 2 then 1 else s.ntuState)))))
  ∧ (∀ (s : State) (p : Fin 2) (a : Announce), s.pwr.mode = .on → (s.ntuPort p).master = some a →
      (∀ f ∈ (s.ntuPort p).foreign, f.ann.source = a.source) →
      Due s ((s.ntuPort p).annNs + s.fld R.NTU_PORT_CFG_ANN_TO p * a.intervalMs * 1000000) →
      ∃ t, exec (.masterLost p) s = .next t ∧ ClockOnly s t ∧ (t.ntuPort p).master = none
        ∧ (s.ntuActive = p.val → s.hasMaster (1 - p.val) = false → s.ntuState = 1 ∨ s.ntuState = 2 →
            t.ntuState = 3 ∧ t.bit R.NTU_EVT_LOST = true ∧ t.ready 17 = false ∧ t.bit R.NTU_STAT_JUMP = false
              ∧ (-128000000 ≤ s.ntu.integ → s.ntu.integ ≤ 128000000 → t.fldI R.NTU_FREQ_F = s.ntu.integ))
        ∧ (s.ntuActive = p.val → s.hasMaster (1 - p.val) = true → t.ntuActive = 1 - p.val ∧ t.bit R.NTU_EVT_PORTSW = true
            ∧ t.ntuState = (if s.ntuState = 2 then 1 else s.ntuState)))
  ∧ (∀ (s : State) (p : Fin 2) (us : Fin 20000) (k : Fin 4), s.pwr.mode = .on → ∃ t, exec (.ethernetLinkChange p us k) s = .next t
      ∧ ClockOnly s t ∧ (t.ntuPort p).speed = [0, 10, 100, 1000].getD k.val 0 ∧ t.ntuState = s.ntuState
      ∧ (s.bit R.NTU_PORT_CFG_EN p = true → k.val ≤ 1 → t.fld R.NTU_PORT_STAT_STATE p = 0 ∧ t.fld R.NTU_PORT_STAT_REASON p = 2 + k.val))
  ∧ (∀ (s : State) (us : Fin 20000) (a : Int), s.pwr.mode = .on → s.fr.phase = .emit → (s.atUs (max us (s.tickLen / 1000))).stepDue = some a →
      ∃ t, exec (.timeStep us) s = .next t ∧ t.fr.edgeNs = ((s.fr.edgeNs : Int) + a).toNat ∧ t.ntu.step = none ∧ t.bit R.NTU_EVT_STEP = true
        ∧ t.fldI R.NTU_STEP_US = max (-2147483648) (min (Int.fdiv a 1000) 2147483647) ∧ t.ntuState = (if s.ntuState = 0 then 2 else s.ntuState)
        ∧ t.ntu.stepped = true ∧ (∀ e ∈ t.beads, e.2.stepped = true) ∧ t.fmem = s.fmem ∧ t.imem = s.imem ∧ t.cmem = s.cmem
        ∧ t.images = s.images ∧ t.fr.mono = s.fr.mono)
  ∧ (∀ (s : State) (who : Requester) (us : Fin 20000), WriteAccepted s who us R.NTU_JUMP_ACCEPT_ACCEPT.addr 1 →
      ∃ t, exec (.ntuJumpAccept who us) s = .next t ∧ ClockOnly s t ∧ t.regs = s.regs
        ∧ (s.bit R.NTU_STAT_JUMP = false → Answered s t who .refusedState ∧ t.ntu = s.ntu)
        ∧ (s.bit R.NTU_STAT_JUMP = true → Answered s t who .ok ∧ t.ntu = { s.ntu with accept := true }))
  ∧ (∀ (s : State) (who : Requester) (us : Fin 20000),
      WriteAccepted s who us R.NTU_CTRL_PTP_EN.addr (s.rd R.NTU_CTRL_PTP_EN.addr &&& 0xFFFFFFFE) → s.bit R.NTU_CTRL_PTP_EN = true →
      ∃ t, exec (.ntuPtpDisable who us) s = .next t ∧ ClockOnly s t ∧ Answered s t who .ok ∧ t.bit R.NTU_CTRL_PTP_EN = false
        ∧ t.fld R.NTU_CTRL_DOMAIN = s.fld R.NTU_CTRL_DOMAIN
        ∧ (s.ntuState = 0 → t.ntuState = 0 ∧ t.ntu.net = none) ∧ (s.ntuState ≠ 0 → t.ntuState = 3 ∧ t.bit R.NTU_STAT_JUMP = false))
  ∧ (∀ (s : State) (ns : Nat) (pos : Bool), s.pwr.mode = .on ∨ s.pwr.mode = .onyx → s.fr.leapDue = some (ns, pos) →
      Due s (s.onModule (if pos then ns + 1000000000 else ns - 1000000000)) →
      let d : Int := if pos then 1 else -1
      ∃ t, exec .leapSecond s = .next t ∧ t = { s with
          ntu := { s.ntu with ptpOff := s.ntu.ptpOff.map (fun o => o + d) }
          regs := t.regs
          fr := { s.fr with leapDue := none, leapPast := some (s.onModule ns, pos), nowUs := t.fr.nowUs } }
        ∧ t.bit R.NTU_UTC_LEAP61 = false ∧ t.bit R.NTU_UTC_LEAP59 = false
        ∧ (-32768 < s.fldI R.NTU_UTC_OFFSET → s.fldI R.NTU_UTC_OFFSET < 32767 → t.fldI R.NTU_UTC_OFFSET = s.fldI R.NTU_UTC_OFFSET + d))

namespace Sys2Proof.Claims

open Machine

/-- Nothing but the local drive, registers, LOOP[0], the event logs, the drops of claimed sources and the time inside the frame differs. -/
def DriveOnly (s t : State) : Prop :=
  t = { s with
    regs := t.regs, drv := t.drv, lce := t.lce, evr := t.evr, icu := { s.icu with late := t.icu.late, busyAt := t.icu.busyAt }
    fr := { s.fr with nowUs := t.fr.nowUs } }

/-- START when DRV may: EN set, the store read, VLEDIN at 18 V or above; OFF otherwise (11 R296). -/
def startMode (s : State) (vledin : Nat) : Nat :=
  if s.drv.storeRead = true ∧ s.drv.off = false ∧ s.bit R.DRV_CTRL_EN = true ∧ 1800 ≤ vledin then 1 else 0

end Sys2Proof.Claims

/-- 11 R296, R297, R299, R301, R303: a compliance check takes the first condition it meets, and the third in a row is the channel's diagnosis; the
ramp's limit ends START and RECOVERY in SERVICE, at the learned value and 2.5 V; the bus stops when VLEDIN is lost and starts when it returns; 140
°C latches a shut-down, which a restart below 110 °C or one of three automatic retries within 60 minutes ends. The model's own choices that it rests on:
log entries 7, 81 to 84, 179. -/
def Obligations.DriveBus : Prop :=
  (∀ (s : State) (c : Fin 24) (us : Fin 20000) (ua head vbus : Nat), let u := s.atUs us
      s.drvRuns = true → u.checked c = true →
      let cur := ua * 261888
      let set := State.setCurrent s.drv.iset (s.chanCfg c) * 1000
      let x := s.dchan c
      ∃ t, exec (.complianceCheck c us ua head vbus) s = .next t ∧ DriveOnly s t ∧ t.out = s.out
        ∧ t.fld R.DRV_CHAN_MEAS_HEADROOM c = min head 65535
        ∧ (∀ k, (cur * 10 < set → k = 1) → (set ≤ cur * 10 → cur * 100 ≤ set * 95 ∨ head < 40 → k = 2) →
            cur * 10 < set ∨ cur * 100 ≤ set * 95 ∨ head < 40 →
            (x.cond ≠ k ∨ x.run < 2 → (t.dchan c).cond = k ∧ (t.dchan c).run = (if x.cond = k then x.run + 1 else 1)
              ∧ (t.dchan c).passNs = x.passNs ∧ t.fld R.DRV_CHAN_DIAG_STATE c = s.fld R.DRV_CHAN_DIAG_STATE c)
            ∧ (x.cond = k → 2 ≤ x.run → t.fld R.DRV_CHAN_DIAG_STATE c = k
              ∧ (s.fld R.DRV_CHAN_DIAG_STATE c ≠ k → t.bit (if k = 1 then R.DRV_EVT_OPEN else R.DRV_EVT_DROPOUT) = true
                ∧ (k = 2 → s.drvMode = 2 ∨ s.drvMode = 3 → t.drvMode = 4 ∧ t.drv.rampRate = 1000))))
        ∧ (set ≤ cur * 10 → set * 95 < cur * 100 → 40 ≤ head → t.fld R.DRV_CHAN_MEAS_VF c = min (vbus - head) 65535
            ∧ (t.dchan c).passNs = some u.nowNs))
  ∧ (∀ (s : State) (vbus : Nat), s.drvRuns = true → s.drvMode = 1 ∨ s.drvMode = 4 → s.drv.rampTo = s.vmax →
      Due s (s.drv.rampNs + ceilDiv ((s.vmax - s.drv.rampFrom) * 1000000) (max 1 s.drv.rampRate)) →
      ∃ t, exec (.busRampLimit vbus) s = .next t ∧ DriveOnly s t ∧ t.out = s.out ∧ t.drvMode = 2
        ∧ t.drv.rampTo = min s.vmax (t.fld R.DRV_BUS_LEARN_LEARNED + 250) ∧ t.drv.rampRate = 200
        ∧ t.bit R.DRV_STAT_HANDOVER = decide (vbus ≠ t.drv.rampTo)
        ∧ ∀ c ∈ s.chansOn, (s.dchan c).measured = true → s.fld R.DRV_CHAN_VF_LEARNED c = 0 →
            t.fld R.DRV_CHAN_VF_LEARNED c = s.fld R.DRV_CHAN_MEAS_VF c)
  ∧ (∀ s : State, s.drvRuns = true → s.bit R.DRV_STAT_HANDOVER = true → let d := s.drv
      Due s (d.rampNs + ceilDiv ((if d.rampFrom ≤ d.rampTo then d.rampTo - d.rampFrom else d.rampFrom - d.rampTo) * 1000000) (max 1 d.rampRate)) →
      ∃ t, exec .handoverEnd s = .next t ∧ OnlyRegs s t [R.DRV_STAT_HANDOVER.addr] ∧ t.bit R.DRV_STAT_HANDOVER = false
        ∧ t.drvMode = s.drvMode ∧ t.switchPos = s.switchPos ∧ t.out = s.out)
  ∧ (∀ (s : State) (us : Fin 20000) (v : Nat), s.pwr.mode = .on →
      (v < 1700 → ∃ t, exec (.vledinLost us v) s = .next t ∧ DriveOnly { s with pwr := t.pwr } t ∧ t.pwr = { s.pwr with vledin := (v, false) } ∧ t.bit R.DRV_STAT_NO_SUPPLY = true
        ∧ t.bit R.PWR_STAT_VLEDIN_OK = false ∧ t.fld R.DRV_VLEDIN_V = v ∧ t.drvMode = (if s.drvMode = 5 then 5 else 0)
        ∧ t.drv.chans = s.drv.chans ∧ t.drv.feeders = s.drv.feeders)
      ∧ (1800 ≤ v → ∃ t, exec (.vledinValid us v) s = .next t ∧ DriveOnly { s with pwr := t.pwr } t ∧ t.pwr = { s.pwr with vledin := (v, true) } ∧ t.bit R.DRV_STAT_NO_SUPPLY = false
        ∧ t.bit R.PWR_STAT_VLEDIN_OK = true ∧ t.fld R.DRV_VLEDIN_V = min v 65535
        ∧ t.drvMode = (if s.drvMode = 0 then startMode s (min v 65535) else s.drvMode) ∧ t.drv.feeders = s.drv.feeders
        ∧ (s.drvMode = 0 → t.drvMode = 1 → t.drv.rampFrom = min v 65535 ∧ t.drv.rampTo = s.vmax ∧ t.drv.rampRate = 1000)))
  ∧ (∀ (s : State) (us : Fin 20000) (v : Nat), s.pwr.mode ≠ .on →
      (v < 1700 → exec (.vledinLost us v) s = .next { s with pwr := { s.pwr with vledin := (v, false) } })
      ∧ (1800 ≤ v → exec (.vledinValid us v) s = .next { s with pwr := { s.pwr with vledin := (v, true) } }))
  ∧ (∀ (s : State) (us : Fin 20000) (bank : Int), s.drvRuns = true → s.drvMode ≠ 5 →
      ∃ t, exec (.thermalShutdown us bank) s = .next t ∧ t.drvMode = 5 ∧ t.sinksOn = false ∧ t.bit R.DRV_STAT_THERM_LATCH = true
        ∧ t.drv.noRetry = decide (3 ≤ (s.atUs us).retryCount) ∧ t.bit R.DRV_EVT_THERM = true ∧ t.drv.feeders = s.drv.feeders ∧ t.drv.staged = s.drv.staged ∧ t.seg = s.seg
        ∧ FaultTaken s t 5 1 [(bank % 65536).toNat] ∧ (s.flt.cur = none → DataKept s t))
  ∧ (∀ (s : State) (who : Requester) (us : Fin 20000), WriteAccepted s who us R.DRV_RESTART_RESTART.addr 1 →
      ∃ t, exec (.drvRestart who us) s = .next t ∧ DriveOnly { s with out := t.out } t
        ∧ (s.drvMode ≠ 5 ∨ 14080 ≤ s.fldI R.DRV_THERM_TEMP → OnlyRegs s t [] ∧ Answered s t who .refusedState)
        ∧ (s.drvMode = 5 → s.fldI R.DRV_THERM_TEMP < 14080 → Answered s t who .ok ∧ t.bit R.DRV_STAT_THERM_LATCH = false
            ∧ t.drvMode = startMode s (s.fld R.DRV_VLEDIN_V)))
  ∧ (∀ (s : State) (x : Nat), s.drv.coolNs = some x → s.drvRuns = true → s.drvMode = 5 → s.bit R.DRV_THERM_AUTO = true →
      Due s (x + 60000000000) →
      let u := s.atUs (ceilDiv (x + 60000000000 - s.fr.edgeNs) 1000)
      (s.drv.noRetry = true → exec .thermalAutoRetry s = .next s)
      ∧ (s.drv.noRetry = false → ∃ t, exec .thermalAutoRetry s = .next t ∧ DriveOnly s t ∧ t.out = s.out
        ∧ (u.retryCount < 3 → t.bit R.DRV_STAT_THERM_LATCH = false ∧ t.drvMode = startMode s (s.fld R.DRV_VLEDIN_V)
            ∧ t.drv.retries.head? = some u.nowNs)
        ∧ (3 ≤ u.retryCount → t = u)))

/-- 11 R289, R292, R296, R301, R304, R306: TEST runs from SERVICE and replaces the learned values; an OPEN channel is pulsed every 10 s and repaired by
a pulse that complies; a channel left in DROPOUT sends the bus to RECOVERY; set currents outside R289 are refused with RANGE; with the store read,
channels and contactors take their failsafe values, a contactor for which a command was written meanwhile its own, and the bus starts; a level bound to a
broadcast takes effect at its frame, from the next PWM period of its group. The model's own choices that it rests on: log entries 7, 82, 85. -/
def Obligations.DriveChannels : Prop :=
  (∀ (s : State) (who : Requester) (us : Fin 20000), WriteAccepted s who us R.DRV_CTRL_EN.addr 3 →
      ∃ t, exec (.drvTest who us) s = .next t ∧ DriveOnly { s with out := t.out } t
        ∧ (s.drvMode ≠ 2 → OnlyRegs s t [] ∧ Answered s t who .refusedState)
        ∧ (s.drvMode = 2 → Answered s t who .ok ∧ t.drvMode = 3 ∧ t.bit R.DRV_CTRL_EN = true ∧ t.bit R.DRV_STAT_HANDOVER = false
            ∧ t.drv.rampFrom = (s.atUs us).setPoint ∧ t.drv.rampTo = t.drv.rampFrom ∧ ∀ c, c < s.part.chans → (t.dchan c).measured = false))
  ∧ (∀ (s : State) (us : Fin 20000) (vbus : Nat) (vfs : List (Fin 24 × Nat)), s.drvRuns = true → s.drvMode = 3 →
      ∃ t, exec (.drvTestComplete us vbus vfs) s = .next t ∧ DriveOnly s t ∧ t.out = s.out ∧ t.drvMode = 2
        ∧ t.drv.rampTo = min s.vmax (t.fld R.DRV_BUS_LEARN_LEARNED + 250)
        ∧ ((vfs.map (fun e => e.1)).Nodup → ∀ e ∈ vfs, e.2 ≤ 65535 → e.1.val ∈ (s.atUs us).needed → t.fld R.DRV_CHAN_VF_LEARNED e.1 = e.2
            ∧ e.2 ≤ t.fld R.DRV_BUS_LEARN_LEARNED))
  ∧ (∀ (s : State) (c : Fin 24) (ua head vbus n : Nat), (s.dchan c).nextNs = some n → s.drvRuns = true → s.sinksOn = true → s.chanOn c = true →
      s.fld R.DRV_CHAN_DIAG_STATE c = 1 → s.chanLevel c s.nowNs ≠ 0 → Due s n →
      let cur := ua * 261888
      let set := State.setCurrent s.drv.iset (s.chanCfg c) * 1000
      ∃ t, exec (.openRetest c ua head vbus) s = .next t ∧ DriveOnly s t ∧ t.out = s.out
        ∧ (set ≤ cur * 10 → set * 95 < cur * 100 → 40 ≤ head → t.fld R.DRV_CHAN_DIAG_STATE c = 0 ∧ t.bit R.DRV_EVT_OPEN = true
            ∧ t.fld R.DRV_CHAN_MEAS_VF c = min (vbus - head) 65535 ∧ (s.drvMode = 2 → t.drvMode = 4))
        ∧ (cur * 10 < set ∨ cur * 100 ≤ set * 95 ∨ head < 40 → t.regs = s.regs ∧ (t.dchan c).nextNs = some (t.nowNs + 10000000000)))
  ∧ (∀ (s : State) (c : Fin 24) (n : Nat), (s.dchan c).nextNs = some n → s.drvRuns = true → s.drvMode = 2 → s.fld R.DRV_CHAN_DIAG_STATE c = 2 →
      Due s n → ∃ t, exec (.dropoutRetry c) s = .next t ∧ DriveOnly s t ∧ t.drvMode = 4 ∧ t.drv.rampFrom = s.fld R.DRV_BUS_STAT_VBUS
        ∧ t.drv.rampTo = s.vmax ∧ t.drv.rampRate = 1000 ∧ ∀ a, a ≠ R.DRV_STAT_MODE.addr → t.rd a = s.rd a)
  ∧ (∀ (s : State) (who : Requester) (us : Fin 20000) (v : Word), WriteAccepted s who us R.DRV_ISET_ISET.addr v → s.fld R.UPD_STATE_STATE ≠ 4 →
      let ok := s.currentsOk (getBits v 0 8) (fun d => s.rd (R.DRV_CHAN_CFG_TRIM.at d 0)) = true
      ∃ t, exec (.drvIsetWrite who us v) s = .next t ∧ (¬ ok → OnlyRegs s t [] ∧ Answered s t who .range)
        ∧ (ok → OnlyRegs s t [R.DRV_ISET_ISET.addr] ∧ Answered s t who .ok ∧ t.fld R.DRV_ISET_ISET = getBits v 0 8))
  ∧ (∀ (s : State) (who : Requester) (us : Fin 20000) (c : Fin 24) (v : Word), WriteAccepted s who us (R.DRV_CHAN_CFG_TRIM.at c 0) v →
      s.fld R.UPD_STATE_STATE ≠ 4 →
      let g := getBits v 16 11
      let ok := (g < 1024 ∨ g = 0x7FF) ∧ s.currentsOk (s.fld R.DRV_ISET_ISET) (fun d => if d = c.val then v else s.rd (R.DRV_CHAN_CFG_TRIM.at d 0)) = true
      ∃ t, exec (.drvChanCfgWrite who us c v) s = .next t ∧ (¬ ok → OnlyRegs s t [] ∧ Answered s t who .range)
        ∧ (ok → Answered s t who .ok ∧ DriveOnly { s with out := t.out } t ∧ t.rd (R.DRV_CHAN_CFG_TRIM.at c 0) = v &&& 0x07FF83FF
            ∧ t.chanCfg c = putBits (s.chanCfg c) 16 11 g ∧ (∀ d, d ≠ c.val → t.chanCfg d = s.chanCfg d)
            ∧ ∀ a, a ≠ R.DRV_CHAN_CFG_TRIM.at c 0 → t.rd a = s.rd a))
  ∧ (∀ (s : State) (us : Fin 20000), s.pwr.mode = .on → s.drv.storeRead = false →
      ∃ t, exec (.drvStoreLoaded us) s = .next t ∧ DataKept s t ∧ t.out = s.out ∧ t.drv.storeRead = true ∧ t.drv.off = false
        ∧ t.drv.iset = s.fld R.DRV_ISET_ISET ∧ (∀ f : Fin 6, t.bit R.DRV_FEEDER_CMD_CLOSE f =
            if (s.feeder f).written then s.bit R.DRV_FEEDER_CMD_CLOSE f else s.bit R.DRV_FEEDER_CFG_FS_CLOSE f)
        ∧ (∀ c, c < s.part.chans → (t.dchan c).goal = (if s.switchPos = 2 then 0 else s.fld R.DRV_FAILSAFE_LEVEL c))
        ∧ (s.drvMode = 0 → t.drvMode = (if s.bit R.DRV_CTRL_EN = true ∧ 1800 ≤ s.fld R.DRV_VLEDIN_V then 1 else 0)))
  ∧ (∀ (s : State) (x : DrvStaged), s.drv.bound = [x] → s.fr.phase ≠ .stopped → s.pwr.paused = false → s.switchPos = 0 → Due s (x.frame * 20000000) →
      ∃ t, exec .boundLevelApply s = .next t ∧ DriveOnly s t ∧ t.out = s.out ∧ t.drv.bound = [] ∧ (t.dchan x.chan).goal = x.level
        ∧ (t.dchan x.chan).fadeNs = x.fadeMs * 1000000 ∧ t.nowNs ≤ (t.dchan x.chan).startNs
        ∧ (let g := t.pwmGrp (x.chan : Nat)
           let len := periodLen (g.at t.nowNs).1
           (g.at t.nowNs).2 ≤ t.nowNs → (t.dchan x.chan).startNs < t.nowNs + len ∧ len ∣ (t.dchan x.chan).startNs - (g.at t.nowNs).2)
        ∧ ∀ c, c ≠ x.chan → (t.dchan c).goal = (s.dchan c).goal)

namespace Sys2Proof.Claims

open Machine

/-- Nothing but feeder `f`'s output and its registers, the time of the last closing and the time inside the frame differs. -/
def OnlyFeeder (s t : State) (f : Fin 6) : Prop :=
  t = { s with
    regs := t.regs
    drv := { s.drv with feeders := t.drv.feeders, closeNs := t.drv.closeNs }
    fr := { s.fr with nowUs := t.fr.nowUs }, out := t.out }
    ∧ (∀ g, g ≠ f.val → t.feeder g = s.feeder g)
    ∧ ∀ a, a ≠ R.DRV_FEEDER_CMD_CLOSE.at f 0 → a ≠ R.DRV_FEEDER_STAT_FB.at f 0 → t.rd a = s.rd a

end Sys2Proof.Claims

/-- 11 R305 to R307: in a forced position of the switch every contactor output and every local channel follows it at once, or where DRV does not run, at
its start; a contactor command is
carried out, or held PENDING by the limits of R306 and released when they allow; a feedback that disagrees sets FAULT; without feedback CLOSED
follows the output. The model's own choices that it rests on: log entries 7, 86. -/
def Obligations.FeederCommands : Prop :=
  (∀ (s : State) (us : Fin 20000) (pos : Fin 3), s.drvRuns = true → s.switchPos ≠ pos.val →
      ∃ t, exec (.overrideSwitchChange us pos) s = .next t ∧ DataKept s t ∧ t.switchPos = pos.val ∧ t.icu.level.getLsbD 3 = true
        ∧ (pos.val = 1 → (∀ f : Fin 6, (t.feeder f).out = true ∧ t.bit R.DRV_FEEDER_STAT_FORCED f = true)
            ∧ ∀ c, c < s.part.chans → (t.dchan c).goal = s.fld R.DRV_FAILSAFE_LEVEL c ∧ (t.leaf (chanLeaf c)).source = 5)
        ∧ (pos.val = 2 → (∀ f : Fin 6, (t.feeder f).out = false ∧ t.bit R.DRV_FEEDER_STAT_FORCED f = true)
            ∧ ∀ c, c < s.part.chans → (t.dchan c).goal = 0 ∧ (t.leaf (chanLeaf c)).source = 6)
        ∧ (pos.val = 0 → ∀ f : Fin 6, t.bit R.DRV_FEEDER_STAT_FORCED f = false))
  ∧ (∀ (s : State) (us : Fin 20000) (pos : Fin 3), s.drvRuns = false → s.switchPos ≠ pos.val →
      ∃ t, exec (.overrideSwitchChange us pos) s = .next t ∧ OnlyRegs s { t with icu := s.icu } [R.DRV_STAT_SWITCH.addr] ∧ t.switchPos = pos.val
        ∧ (s.pwr.mode = .on → t.icu.level.getLsbD 3 = true) ∧ (s.pwr.mode ≠ .on → t.icu = s.icu))
  ∧ (∀ (s : State) (who : Requester) (us : Fin 20000) (f : Fin 6) (close : Bool), let u := s.atUs us
      WriteAccepted s who us (R.DRV_FEEDER_CMD_CLOSE.at f 0) (if close then 1 else 0) → s.drvRuns = true → s.pwr.paused = false →
      ∃ t, exec (.drvFeederCmdWrite who us f close) s = .next t ∧ OnlyFeeder s t f ∧ Answered s t who .ok
        ∧ t.bit R.DRV_FEEDER_CMD_CLOSE f = close
        ∧ (s.switchPos ≠ 0 → (s.feeder f).out = decide (s.switchPos = 1) → s.switchPos ≤ 2 → (t.feeder f).out = (s.feeder f).out)
        ∧ (s.switchPos = 0 → (s.feeder f).out = close → (t.feeder f).out = close ∧ t.bit R.DRV_FEEDER_STAT_PENDING f = false)
        ∧ (s.switchPos = 0 → (s.feeder f).out ≠ close → u.feederHeld f close = true →
            (t.feeder f).out = (s.feeder f).out ∧ t.bit R.DRV_FEEDER_STAT_PENDING f = true)
        ∧ (s.switchPos = 0 → (s.feeder f).out ≠ close → u.feederHeld f close = false → (t.feeder f).out = close
            ∧ (t.feeder f).changeNs = some u.nowNs ∧ t.bit R.DRV_FEEDER_STAT_PENDING f = false ∧ (close = true → t.drv.closeNs = some u.nowNs)))
  ∧ (∀ (s : State) (f : Fin 6), s.drvRuns = true → s.switchPos = 0 → s.pwr.paused = false → s.bit R.DRV_FEEDER_STAT_PENDING f = true →
      let want := s.bit R.DRV_FEEDER_CMD_CLOSE f
      let x := max (((s.feeder f).changeNs.map (fun n => n + 5000000000)).getD 0)
        ((s.drv.closeNs.map (fun n => if want then n + 500000000 else 0)).getD 0)
      Due s x → (s.feeder f).out ≠ want → (∀ g : Fin 6, g ≠ f → (s.feeder g).out = s.bit R.DRV_FEEDER_CMD_CLOSE g) →
      ∃ t, exec (.feederChangeRelease f) s = .next t ∧ (t.feeder f).out = want ∧ t.bit R.DRV_FEEDER_STAT_PENDING f = false
        ∧ DriveOnly s t ∧ ∀ g, g ≠ f.val → t.feeder g = s.feeder g)
  ∧ (∀ (s : State) (f : Fin 6), s.drvRuns = true → s.bit R.DRV_FEEDER_CFG_FB_EN f = true → s.fbValue f ≠ (s.feeder f).out →
      s.bit R.DRV_FEEDER_STAT_FAULT f = false →
      Due s (((s.feeder f).changeNs.map (fun n => n + s.fld R.DRV_FEEDER_CFG_FB_TIME f * 10000000)).getD 0) →
      ∃ t, exec (.feederFeedbackFault f) s = .next t ∧ DriveOnly s t ∧ t.drv = s.drv ∧ t.bit R.DRV_FEEDER_STAT_FAULT f = true
        ∧ t.bit R.DRV_EVT_FEEDBACK = true)
  ∧ (∀ (s : State) (f : Fin 6), s.pwr.mode = .on → s.bit R.DRV_FEEDER_CFG_FB_EN f = false →
      Due s (((s.feeder f).changeNs.map (fun n => n + 100000000)).getD 0) →
      ∃ t, exec (.feederClosedSettle f) s = .next t ∧ OnlyFeeder s t f ∧ t.drv = s.drv ∧ t.out = s.out
        ∧ t.bit R.DRV_FEEDER_STAT_CLOSED f = (s.feeder f).out)
  ∧ (∀ (s : State) (f : Fin 6) (us : Fin 20000) (closed : Bool), s.pwr.mode = .on →
      let v := closed != s.bit R.DRV_FEEDER_CFG_FB_POL f
      ∃ t, exec (.feederFeedbackChange f us closed) s = .next t ∧ OnlyFeeder s t f ∧ t.out = s.out
        ∧ t.feeder f = { s.feeder f with raw := closed } ∧ t.bit R.DRV_FEEDER_STAT_FB f = v
        ∧ (s.bit R.DRV_FEEDER_CFG_FB_EN f = true → t.bit R.DRV_FEEDER_STAT_CLOSED f = v
            ∧ (v = (s.feeder f).out → t.bit R.DRV_FEEDER_STAT_FAULT f = false)
            ∧ (v ≠ (s.feeder f).out → t.bit R.DRV_FEEDER_STAT_FAULT f = s.bit R.DRV_FEEDER_STAT_FAULT f))
        ∧ (s.bit R.DRV_FEEDER_CFG_FB_EN f = false → t.bit R.DRV_FEEDER_STAT_CLOSED f = s.bit R.DRV_FEEDER_STAT_CLOSED f))
  ∧ (∀ (s : State) (f : Fin 6) (us : Fin 20000) (closed : Bool), s.pwr.mode ≠ .on →
      ∃ t, exec (.feederFeedbackChange f us closed) s = .next t ∧ t = { s with drv := { s.drv with feeders := t.drv.feeders } }
        ∧ (∀ g, g ≠ f.val → t.feeder g = s.feeder g) ∧ t.feeder f = { s.feeder f with raw := closed })

namespace Sys2Proof.Claims

open Machine

/-- Nothing but the loop engine, registers, the event logs and the time inside the frame differs. -/
def LoopOnly (s t : State) : Prop :=
  t = { s with regs := t.regs, lce := t.lce, evr := t.evr, fr := { s.fr with nowUs := t.fr.nowUs }, out := t.out, free := t.free }

/-- No register of another loop differs. -/
def OtherLoops (s t : State) (l : Fin 4) : Prop := ∀ a, 0x91000 ≤ a → a < 0x91400 → (a - 0x91000) / 256 ≠ l.val → t.rd a = s.rd a

/-- One sample of a CLOSED loop that needs no re-initialisation, from its measurement, set-point and feed-forward (12 R313, R314). -/
def SampleLaw (s t : State) (l : Fin 4) (y sp ff : Int) : Prop :=
  let e := sat32 (sp - y)
  let p := mulShift (s.fldI R.LCE_KP_KP l) e (s.fld R.LCE_SHIFT_SP l)
  let old := (SMap.find 0 s.lce.d l).toInt
  let raw := mulShift (s.fldI R.LCE_KD_KD l) (sat32 (e - s.fldI R.LCE_E_E l)) (s.fld R.LCE_SHIFT_SD l)
  let d := if s.bit R.LCE_CFG_DEN l = true then sat32 (old + mulShift (s.fldI R.LCE_KF_KF l) (sat32 (raw - old)) (s.fld R.LCE_SHIFT_SF l)) else 0
  let i := s.fldI R.LCE_I_I l
  let omin := s.fldI R.LCE_OUT_MIN_MIN l
  let omax := if l.val = 0 then min (s.fldI R.LCE_OUT_MAX_MAX l) 58982 else s.fldI R.LCE_OUT_MAX_MAX l
  let sum := sat32 (ff + p + i + d)
  let uc := max omin (min sum omax)
  let slew := s.fldI R.LCE_SLEW_STEP l
  let u := s.loopU l + max (-slew) (min (uc - s.loopU l) slew)
  let di := mulShift (s.fldI R.LCE_KI_KI l) e (s.fld R.LCE_SHIFT_SI l)
  let held := (uc = omax ∧ 0 < di) ∨ (uc = omin ∧ di < 0)
  let grown := max (s.fldI R.LCE_I_MIN_MIN l) (min (sat32 (i + di)) (s.fldI R.LCE_I_MAX_MAX l))
  t.fldI R.LCE_E_E l = e ∧ (0 ≤ slew → t.loopU l = u) ∧ (held → t.fldI R.LCE_I_I l = i) ∧ (¬ held → t.fldI R.LCE_I_I l = grown)
    ∧ t.bit R.LCE_STAT_ISAT l = decide (grown ≠ sat32 (i + di))
    ∧ t.bit R.LCE_STAT_OSAT l = decide (uc ≠ sum) ∧ t.bit R.LCE_STAT_RSAT l = decide (u ≠ uc)
    ∧ (0 ≤ slew → ∀ k, s.loopAout l = some k → t.fld R.LCE_AOUT_CODE k = (max 0 (min u 65535)).toNat)

/-- Nothing but the status, the integrator, the output and what a loop shows differs at the loop itself. -/
def LoopStays (s t : State) (l : Fin 4) : Prop :=
  t.loopU l = s.loopU l ∧ t.fldI R.LCE_I_I l = s.fldI R.LCE_I_I l ∧ ∀ k : Fin 2, t.fld R.LCE_AOUT_CODE k = s.fld R.LCE_AOUT_CODE k

end Sys2Proof.Claims

/-- 12 R310 to R320: a sample runs the control law, and the first after closing starts without a step; a loop closes with its inputs sound, and opens
holding its output; an AIN's WIRE fault holds the loops that use it until it clears; an AOUT takes a manual value while its loop is OPEN; a
set-point is staged for the next frame edge; the configuration of a loop that is not OPEN is LOCKED; pulses count and give the rate. The model's own
choices that it rests on: log entries 7, 87 to 90, 153, 166, 167, 168. -/
def Obligations.LoopCommands : Prop :=
  (∀ (s : State) (l : Fin 4) (us : Fin 20000) (x : LoopIn), s.pwr.mode = .on → s.drv.storeRead = true → s.loopState l = 1 →
      SMap.find 0 s.lce.nextNs l ≤ (s.atUs us).nowNs →
      let u := ((s.atUs us).sampleNext l).ainCodes x.ain
      ∃ t, exec (.loopSample l us x) s = .next t ∧ LoopOnly s t ∧ OtherLoops s t l ∧ t.out = s.out ∧ t.loopState l = 1
        ∧ SMap.find 0 t.lce.nextNs l = u.nowNs + (if l.val = 0 then 20000 else 1000 * (10000 / s.fld R.LCE_CFG_RATE l))
        ∧ (SMap.find false s.lce.reinit l = false → SampleLaw s t l (u.loopY l x) (u.loopSp l x) (u.loopFf l x))
        ∧ (SMap.find false s.lce.reinit l = true → SMap.find false t.lce.reinit l = false ∧
            let rest := u.loopFf l x + mulShift (s.fldI R.LCE_KP_KP l) (sat32 (u.loopSp l x - u.loopY l x)) (s.fld R.LCE_SHIFT_SP l)
            (s.fldI R.LCE_I_MIN_MIN l + rest ≤ s.loopU l → s.loopU l ≤ s.fldI R.LCE_I_MAX_MAX l + rest → s.fldI R.LCE_OUT_MIN_MIN l ≤ s.loopU l →
              s.loopU l ≤ s.fldI R.LCE_OUT_MAX_MAX l → (l.val = 0 → s.loopU l ≤ 58982) → 0 ≤ s.fldI R.LCE_SLEW_STEP l → t.loopU l = s.loopU l)))
  ∧ (∀ (s : State) (who : Requester) (us : Fin 20000) (l : Fin 4),
      (WriteAccepted s who us (R.LCE_CTRL_CLOSE.at l 0) 1 → ∃ t, exec (.loopClose who us l) s = .next t ∧ LoopOnly s t ∧ OtherLoops s t l
        ∧ (l.val = 0 → OnlyRegs s t [] ∧ Answered s t who .refusedState)
        ∧ (l.val ≠ 0 → s.loopState l = 0 → s.loopInputsOk l = false → OnlyRegs s t [] ∧ Answered s t who .refusedState)
        ∧ (l.val ≠ 0 → s.loopState l = 0 → s.loopInputsOk l = true → Answered s t who .ok ∧ t.loopState l = 1 ∧ LoopStays s t l
            ∧ SMap.find false t.lce.reinit l = true))
      ∧ (WriteAccepted s who us (R.LCE_CTRL_CLOSE.at l 0) 2 → ∃ t, exec (.loopOpen who us l) s = .next t ∧ LoopOnly s t ∧ OtherLoops s t l
        ∧ (l.val = 0 → OnlyRegs s t [] ∧ Answered s t who .refusedState)
        ∧ (l.val ≠ 0 → s.loopState l = 1 ∨ s.loopState l = 2 → Answered s t who .ok ∧ t.loopState l = 0 ∧ LoopStays s t l
            ∧ t.bit R.LCE_STAT_INFAULT l = false)))
  ∧ (∀ (s : State) (k : Fin 4) (us : Fin 20000), s.pwr.mode = .on →
      (s.bit R.LCE_AIN_CFG_MODE k = true → s.bit R.LCE_AIN_WIRE k = false → ∃ t, exec (.ainWireFault k us) s = .next t ∧ LoopOnly s t
        ∧ t.bit R.LCE_AIN_WIRE k = true ∧ (t.fld R.LCE_EVT_WIRE).testBit k = true ∧ ∀ l : Fin 4, LoopStays s t l ∧
            (if s.loopState l = 1 ∧ s.loopUses l k = true then t.loopState l = 2 ∧ t.bit R.LCE_STAT_INFAULT l = true else t.loopState l = s.loopState l))
      ∧ (s.bit R.LCE_AIN_WIRE k = true → ∃ t, exec (.ainWireClear k us) s = .next t ∧ LoopOnly s t
        ∧ t.bit R.LCE_AIN_WIRE k = false ∧ (t.fld R.LCE_EVT_WIRE).testBit k = true ∧ ∀ l : Fin 4, LoopStays s t l ∧
            (if s.loopState l = 2 ∧ s.loopUses l k = true ∧ (∀ j : Fin 4, j ≠ k → s.loopUses l j = true → s.bit R.LCE_AIN_WIRE j = false)
              then t.loopState l = 1 ∧ t.bit R.LCE_STAT_INFAULT l = false else t.loopState l = s.loopState l)))
  ∧ (∀ (s : State) (who : Requester) (us : Fin 20000) (k : Fin 2) (v : Word), WriteAccepted s who us (R.LCE_AOUT_MAN_CODE.at k 0) v →
      ∃ t, exec (.lceAoutManWrite who us k v) s = .next t ∧ LoopOnly s t
        ∧ (s.aoutLoop k = none → Answered s t who .ok ∧ t.fld R.LCE_AOUT_MAN_CODE k = getBits v 0 16 ∧ t.fld R.LCE_AOUT_CODE k = getBits v 0 16)
        ∧ ∀ l : Fin 4, s.aoutLoop k = some l.val → l.val ≠ 0 → s.fld R.LCE_CFG_OUTSEL l = k + 1 →
            (s.loopState l ≠ 0 → OnlyRegs s t [] ∧ Answered s t who .locked)
            ∧ (s.loopState l = 0 → Answered s t who .ok ∧ t.loopU l = getBits v 0 16 ∧ t.fld R.LCE_AOUT_CODE k = getBits v 0 16 ∧ t.loopState l = 0))
  ∧ (∀ (s : State) (who : Requester) (us : Fin 20000) (k : Fin 2) (v : Word), WriteAccepted s who us (R.LCE_AOUT_MAN_CODE.at k 0) v →
      (∀ l : Fin 4, l.val ≠ 0 → s.fld R.LCE_CFG_OUTSEL l = k + 1 → s.loopState l = 0) →
      ∃ t, exec (.lceAoutManWrite who us k v) s = .next t ∧ Answered s t who .ok ∧ t.fld R.LCE_AOUT_MAN_CODE k = getBits v 0 16
        ∧ t.fld R.LCE_AOUT_CODE k = getBits v 0 16)
  ∧ (∀ (s : State) (who : Requester) (us : Fin 20000) (l : Fin 4) (v : Word), WriteAccepted s who us (R.LCE_SP_SP.at l 0) v →
      ∃ t, exec (.lceSpWrite who us l v) s = .next t ∧ OnlyRegs s t [R.LCE_SP_SP.at l 0] ∧ Answered s t who .ok ∧ t.rd (R.LCE_SP_SP.at l 0) = v)
  ∧ (∀ (s : State) (who : Requester) (us : Fin 20000) (l : Fin 4) (k : Fin 64) (v : Word), WriteAccepted s who us (R.LCE_CTRL_CLOSE.at l 0 + 4 * k) v →
      k.val = 2 ∨ (4 ≤ k.val ∧ k.val < 40) →
      let most := if l.val = 0 then min (s.fldI R.LCE_OUT_MAX_MAX l) 58982 else s.fldI R.LCE_OUT_MAX_MAX l
      s.loopState l = 0 ∧ s.loopUnlocked l = true ∧ ∃ t, exec (.lceCfgWrite who us l k v) s = .next t
        ∧ OnlyRegs s t [R.LCE_CTRL_CLOSE.at l 0 + 4 * k.val]
        ∧ (s.loopUnlocked l = true → k.val ∈ [4, 6, 8, 9, 10, 11, 18] ∨ 20 ≤ k.val →
            Answered s t who .ok ∧ t.rd (R.LCE_CTRL_CLOSE.at l 0 + 4 * k) = v)
        ∧ (s.loopUnlocked l = true → k.val = 13 → most < v.toInt → t.regs = s.regs ∧ Answered s t who .range)
        ∧ (s.loopUnlocked l = true → k.val = 13 → v.toInt ≤ most → Answered s t who .ok ∧ t.fldI R.LCE_OUT_MIN_MIN l = v.toInt))
  ∧ (∀ (s : State) (who : Requester) (us : Fin 20000) (l : Fin 4) (k : Fin 64) (v : Word), k.val = 2 ∨ (4 ≤ k.val ∧ k.val < 40) →
      let a := R.LCE_CTRL_CLOSE.at l 0 + 4 * k.val
      (s.asks who = true → (s.atUs us).writeStatus who a v = .locked →
        ∃ t, exec (.lceCfgWrite who us l k v) s = .next t ∧ OnlyRegs s t [] ∧ Answered s t who .locked)
      ∧ (s.loopState l ≠ 0 → s.drv.storeRead = true → isRegister a = true → s.unitReady a = true → fitStatus s.part a = .ok →
          s.writeStatus .sup a v = .locked))
  ∧ (∀ (s : State) (k : Fin 2) (x : Nat), s.pwr.mode = .on → SMap.find 0 s.lce.pulseNs k = x + 1 →
      Due s (x + s.fld R.LCE_PIN_CFG_TIMEOUT k * 1000000000) →
      ∃ t, exec (.pinTimeout k) s = .next t ∧ LoopOnly s t ∧ t.out = s.out ∧ t.fld R.LCE_PIN_RATE_RATE k = 0
        ∧ ∀ a, a ≠ R.LCE_PIN_RATE_RATE.at k 0 → t.rd a = s.rd a)
  ∧ (∀ (s : State) (k : Fin 2) (us : Fin 20000), s.pwr.mode = .on →
      ∃ t, exec (.pulseEdge k us (!s.bit R.LCE_PIN_CFG_EDGE k)) s = .next t ∧ LoopOnly s t ∧ t.out = s.out
        ∧ t.fld R.LCE_PIN_COUNT_COUNT k = (s.fld R.LCE_PIN_COUNT_COUNT k + 1) % 2 ^ 32
        ∧ ∀ x, SMap.find 0 s.lce.pulseNs k = x + 1 → x + 31000 ≤ (s.atUs us).nowNs →
            t.fld R.LCE_PIN_RATE_RATE k = 65536000000 / (((s.atUs us).nowNs - x) / 1000))

namespace Sys2Proof.Claims

open Machine

/-- Nothing but the meter link, the island's frame counter and session, registers, the event logs, the time inside the frame and what was sent
differs. -/
def LinkOnly (s t : State) : Prop :=
  t = { s with
    regs := t.regs, met := t.met, isl := { s.isl with counter := t.isl.counter, acked := t.isl.acked }, evr := t.evr, out := t.out
    fr := { s.fr with nowUs := t.fr.nowUs } }

/-- The die has sent one more frame. -/
def dieSent (s : State) : State := { s with met := { s.met with counter := (s.met.counter + 1) % 65536 } }

/-- The bytes hold one valid frame of the TYPE, with payload `p`, and nothing else (13 R335). -/
def Carries (typ : Nat) (bytes p : List Byte) : Prop := linkPayloads typ bytes = ([p], 0)

/-- With no valid frame of its TYPE among the bytes, a command of the link only counts the `k` frames discarded. -/
def Discards (s : State) (typ : Nat) (bytes : List Byte) (k : Nat) (c : Instr) : Prop :=
  linkPayloads typ bytes = ([], k) → ∃ t, exec c s = .next t ∧ OnlyRegs s t [R.MET_LINK_CNT_ERR.addr]
    ∧ t.fld R.MET_LINK_CNT_ERR = min (s.fld R.MET_LINK_CNT_ERR + k) 65535 ∧ t.out = s.out

/-- The frames of a READ_REQ, from the die's counter `c` and the island's `k` on: the request, and what a running island holds of it. -/
def readFrames (s : State) (c k : Nat) (ask : Nat × Nat × Nat) : List Output :=
  .toIsland (linkFrame 0x20 (c % 65536) (leBytes 1 ask.1 ++ leBytes 4 ask.2.1 ++ leBytes 2 ask.2.2)) ::
    (if s.isl.run = true then
      (s.islHeld ask.1 ask.2.1 ask.2.2).zipIdx.map (fun p => .fromIsland (linkFrame p.1.1 ((k + p.2) % 65536) p.1.2)) else [])

/-- The same for several, one after the other. -/
def allFrames (s : State) (c k : Nat) : List (Nat × Nat × Nat) → List Output
  | [] => []
  | a :: as => readFrames s c k a ++ allFrames s (c + 1) (k + (readFrames s c k a).length - 1) as

/-- What is asked of MEAS records, where `n` are missing from SEQ `first` on: the last 900 of them (13 R338). -/
def askMeas (first n : Nat) : Nat × Nat × Nat := (0, (first + (n - 900)) % 2 ^ 32, min n 900)

/-- What the die asks for when a HELLO names the newest MEAS record and the count of log records: all that it does not hold. -/
def helloAsks (s : State) (newest logs : Nat) : List (Nat × Nat × Nat) :=
  (match s.met.last with
    | some q =>
      let n := (newest + 2 ^ 32 - q) % 2 ^ 32
      if 0 < n ∧ n < 2 ^ 31 then [askMeas ((q + 1) % 2 ^ 32) n] else []
    | none => [(0, (newest + 2 ^ 32 - 899) % 2 ^ 32, 900)])
  ++ (s.metLacks logs).map (fun p => (1, p.1, p.2))

/-- The counters of both directions are 16-bit numbers (13 R335). -/
def CountersOk (s : State) : Prop := s.met.counter < 65536 ∧ s.isl.counter < 65536

/-- The island is fitted and the die powered. -/
def LinkPowered (s : State) : Prop := s.part.meter = true ∧ s.pwr.mode = .on

/-- A session of the link is in being. -/
def LinkUp (s : State) : Prop := LinkPowered s ∧ s.met.sess = true

/-- A good frame of the session has been heard at `us`. -/
def Heard (s t : State) (us : Fin 20000) : Prop := t.met.heardNs = (s.atUs us).nowNs ∧ t.met.sess = true

/-- The session has ended (13 R336). -/
def LinkDown (t : State) : Prop :=
  t.met.sess = false ∧ t.ready 13 = false ∧ t.bit R.MET_ALARM_LINK_LOST = true ∧ t.met.next = none ∧ t.isl.acked = false

end Sys2Proof.Claims

/-- 13 R330, R333 to R336, R338, R341, R342: a frame is found by its MAGIC, VERSION, LENGTH and CRC, and a bad one is discarded and counted; a HELLO
that offers version 2 starts a session and asks for what is missing; a MEAS record sets MET and waits for the next SNAP, missing ones are asked for,
and those the island no longer holds are counted; log records, identification, time answers and challenges are taken; the session ends after 3 s
without a frame; IDENT_REQ and TSYNC_REQ go out when asked for; a sealed message goes to the island and its answer back. The model's own choices
that it rests on: log entries 7, 92, 136, 182. -/
def Obligations.MeterLink : Prop :=
  (∀ (typ c : Nat) (p : List Byte), typ < 256 → linkLength typ p.length = true → p.length < 65536 →
      Carries typ (linkFrame typ c p) p
      ∧ linkFrame typ c p = [0xA5, 0x5A, 0x02, BitVec.ofNat 8 typ] ++ leBytes 2 p.length ++ leBytes 2 c ++ p
          ++ leBytes 4 (crc32c ([0xA5, 0x5A, 0x02, BitVec.ofNat 8 typ] ++ leBytes 2 p.length ++ leBytes 2 c ++ p)).toNat)
  ∧ (∀ (s : State) (us : Fin 20000) (bytes : List Byte) (k : Nat), LinkPowered s →
      Discards s 0x01 bytes k (.meterHello us bytes) ∧ Discards s 0x10 bytes k (.meterMeas us bytes)
      ∧ Discards s 0x11 bytes k (.meterLogrec us bytes) ∧ Discards s 0x24 bytes k (.meterIdentRsp us bytes)
      ∧ Discards s 0x22 bytes k (.meterTsyncRsp us bytes) ∧ Discards s 0x30 bytes k (.meterChallenge us bytes)
      ∧ Discards s 0x31 bytes k (.meterSealedMsg us bytes))
  ∧ (∀ (s : State) (us : Fin 20000) (bytes p : List Byte), LinkPowered s → Carries 0x01 bytes p → let vmin := leAt p 0 1
      let vmax := leAt p 1 1
      (s.met.sess = false → ∃ t, exec (.meterHello us bytes) s = .next t ∧ LinkOnly s t
        ∧ (vmin ≤ 2 → 2 ≤ vmax → Heard s t us ∧ t.met.serial = leAt p 6 8 ∧ t.fld R.MET_STAT_VERSION = 2 ∧ t.isl.acked = true
            ∧ (CountersOk s → t.out = s.out ++ .toIsland (linkFrame 0x02 s.met.counter [2, 0])
                :: allFrames s (s.met.counter + 1) s.isl.counter (helloAsks s (leAt p 14 4) (leAt p 18 2))))
        ∧ (2 < vmin ∨ vmax < 2 → t.met = (dieSent s).met ∧ t.bit R.MET_ALARM_VERSION = true
            ∧ t.out = s.out ++ [.toIsland (linkFrame 0x02 s.met.counter [0, BitVec.ofNat 8 Status.version.code])]))
      ∧ (s.met.sess = true → vmin ≤ 2 → 2 ≤ vmax → ∃ t, exec (.meterHello us bytes) s = .next t
        ∧ t.bit R.MET_ALARM_LINK_LOST = true ∧ t.ready 13 = false ∧ Heard s t us))
  ∧ (∀ (s : State) (us : Fin 20000) (bytes p : List Byte), LinkUp s → Carries 0x10 bytes p → let m := measOf p
      ∃ t, exec (.meterMeas us bytes) s = .next t ∧ LinkOnly s t ∧ Heard s t us ∧ t.ready 13 = true
        ∧ (s.met.want = none → s.met.last = none → t.met.last = some m.seq ∧ t.met.next = some (t.nowNs, m) ∧ t.out = s.out)
        ∧ (∀ q, s.met.want = none → s.met.last = some q → q < 2 ^ 32 →
            let gap := (m.seq + 2 ^ 32 - q) % 2 ^ 32
            (gap = 0 ∨ 2 ^ 31 ≤ gap → t.met.last = some q ∧ t.met.next = s.met.next ∧ t.out = s.out)
            ∧ (0 < gap → gap < 2 ^ 31 → t.met.last = some m.seq ∧ t.met.next = some (t.nowNs, m)
                ∧ t.met.want = (if gap = 1 then none else some ((q + 1) % 2 ^ 32, gap - 1))
                ∧ (CountersOk s → t.out = s.out ++
                    (if gap = 1 then [] else readFrames s s.met.counter s.isl.counter (askMeas ((q + 1) % 2 ^ 32) (gap - 1))))))
        ∧ ∀ first n, s.met.want = some (first, n) → let d := (m.seq + 2 ^ 32 - first) % 2 ^ 32
            (d < n → t.fld R.MET_LINK_CNT_GAP = min (s.fld R.MET_LINK_CNT_GAP + d) 65535
              ∧ t.met.want = (if d + 1 < n then some ((m.seq + 1) % 2 ^ 32, n - d - 1) else none))
            ∧ (n ≤ d → d < 2 ^ 31 → t.fld R.MET_LINK_CNT_GAP = min (s.fld R.MET_LINK_CNT_GAP + n) 65535)
            ∧ (2 ^ 31 ≤ d → n ≤ d → t.fld R.MET_LINK_CNT_GAP = s.fld R.MET_LINK_CNT_GAP))
  ∧ (∀ (s : State) (us : Fin 20000) (bytes p : List Byte), LinkUp s →
      (Carries 0x11 bytes p → let index := leAt p 0 2
        ∃ t, exec (.meterLogrec us bytes) s = .next t ∧ LinkOnly s t ∧ Heard s t us ∧ (∀ a, a / 0x10000 ≠ 0xD → a ≠ R.MET_LINK_CNT_ERR.addr → t.rd a = s.rd a)
        ∧ t.out = s.out ∧ t.evr.ops.recs = s.evr.ops.recs ∧ t.evr.sec.recs = s.evr.sec.recs
        ∧ (s.ready 7 = true → (∀ y ∈ s.evr.met.recs, y ∈ t.evr.met.recs) ∧ ∃ x ∈ t.evr.met.recs, x.seq = index
            ∧ ((∀ y ∈ s.evr.met.recs, y.seq ≠ index) →
                x.key = [leAt p 2 2] ∧ x.firstMs = leAt p 4 6 * 1000 ∧ x.data = (fitBytes 20 ((p.drop 12).take 20)).map (fun b => b.toNat)))
        ∧ (s.ready 7 = false → t.evr.met = s.evr.met ∧ (s.evr.early.length < 256 → ∃ x, t.evr.early = s.evr.early ++ [(2, x)] ∧ x.seq = index)))
      ∧ (Carries 0x24 bytes p → ∃ t, exec (.meterIdentRsp us bytes) s = .next t ∧ LinkOnly s t ∧ Heard s t us ∧ t.out = s.out
        ∧ t.fld R.MET_FWID_FWID = leAt p 0 4 ∧ t.fld R.MET_FWCRC_CRC = leAt p 4 4 ∧ t.bit R.MET_STAT_FW_BUSY = false ∧ t.met.serial = leAt p 8 8)
      ∧ (Carries 0x22 bytes p → ∃ t, exec (.meterTsyncRsp us bytes) s = .next t ∧ LinkOnly s t ∧ Heard s t us ∧ t.out = s.out
        ∧ t.fld R.MET_TSYNC_RES_STATUS = leAt p 0 1 ∧ t.fld R.MET_TSYNC_RES_KIND = leAt p 1 1 % 4
        ∧ t.fld R.MET_TSYNC_BUDGET_MS = leAt p 6 2 % 16384 ∧ t.fldI R.MET_TSYNC_APPLIED_MS = (BitVec.ofNat 32 (leAt p 2 4)).toInt)
      ∧ (Carries 0x30 bytes p → ∃ t, exec (.meterChallenge us bytes) s = .next t ∧ LinkOnly s t ∧ Heard s t us ∧ t.out = s.out
        ∧ t.met.nonce = leNat p ∧ ∀ a, a ≠ R.MET_LINK_CNT_ERR.addr → t.rd a = s.rd a)
      ∧ (Carries 0x31 bytes p → ∃ t, exec (.meterSealedMsg us bytes) s = .next t ∧ Heard s t us ∧ StoresKept s t
        ∧ (∀ a, a ≠ R.MET_LINK_CNT_ERR.addr → t.rd a = s.rd a) ∧ t.evr = s.evr
        ∧ (s.met.waiting = none → t.out = s.out)
        ∧ ∀ i id, s.met.waiting = some (i, id) → t.met.waiting = none
            ∧ (i < 8 → s.sessState i = 2 → id ∈ (s.sess i).running → id ∉ (s.sess i).repeated →
                t.out = s.out ++ [.response i id false .ok (p.map (fun b => (b.toNat : Int)))])))
  ∧ (∀ s : State, LinkUp s → Due s (s.met.heardNs + 3000000000) → ∃ t, exec .meterLinkTimeout s = .next t ∧ LinkDown t
      ∧ (s.fld R.WCH_IN_VALUE 1 ≠ 0 → FaultTaken s t 9 1 [13]) ∧ (s.fld R.WCH_IN_VALUE 1 = 0 → StoresKept s t ∧ t.flt = s.flt))
  ∧ (∀ (s : State) (who : Requester) (us : Fin 20000),
      (WriteAccepted s who us R.MET_FW_REQ_REQ.addr 1 → ∃ t, exec (.metFwReq who us) s = .next t ∧ OnlyRegs (dieSent s) t [R.MET_STAT_FW_BUSY.addr]
        ∧ t.bit R.MET_STAT_FW_BUSY = true ∧ t.out = s.out ++ [.toIsland (linkFrame 0x23 s.met.counter []), .status who .ok])
      ∧ (WriteAccepted s who us R.MET_TSYNC_CTRL_REQ.addr 1 → ∃ t, exec (.metTsyncReq who us) s = .next t
        ∧ (s.ntuState ≠ 2 → OnlyRegs s t [] ∧ Answered s t who .refusedState)
        ∧ (s.ntuState = 2 → OnlyRegs (dieSent s) t []
            ∧ t.out = s.out ++ [.toIsland (linkFrame 0x21 s.met.counter
                (leBytes 6 ((s.atUs us).utcMs / 1000) ++ leBytes 4 ((s.atUs us).nowNs % 1000000000))), .status who .ok])))
  ∧ (∀ (s : State) (us : Fin 20000), LinkPowered s → s.ready 13 = true → s.ntuState = 2 →
      s.bit R.MET_TSYNC_CFG_AUTO = true → (s.atUs us).utcMs / 1000 % 3600 = 300 →
      let hour := (s.atUs us).utcMs / 3600000
      (s.met.autoHour ≠ hour → ∃ t, exec (.tsyncAuto us) s = .next t
        ∧ OnlyRegs { s with met := { (dieSent s).met with autoHour := hour } } t []
        ∧ t.out = s.out ++ [.toIsland (linkFrame 0x21 s.met.counter
            (leBytes 6 ((s.atUs us).utcMs / 1000) ++ leBytes 4 ((s.atUs us).nowNs % 1000000000)))])
      ∧ (s.met.autoHour = hour → exec (.tsyncAuto us) s = .next s))
  ∧ (∀ (s : State) (i : Fin 8) (id : Nat) (msg : List Byte), Fresh s i id 4 false →
      ∃ t, exec (.sealedMsg i id msg) s = .next t ∧ StoresKept s t
        ∧ (s.part.meter = false → Responded s t i id .invalid [] ∧ t.met = s.met)
        ∧ (s.part.meter = true → s.ready 13 = false → Responded s t i id .notReady [] ∧ t.met = s.met)
        ∧ (s.part.meter = true → s.ready 13 = true → s.met.waiting ≠ none → Responded s t i id .busy [] ∧ t.met = s.met)
        ∧ (s.part.meter = true → s.ready 13 = true → s.met.waiting = none → t.met = { (dieSent s).met with waiting := some (i.val, id) }
            ∧ t.out = s.out ++ [.toIsland (linkFrame 0x31 s.met.counter msg)] ∧ id ∈ (t.sess i).running))

namespace Sys2Proof.Claims

open Machine

/-- Nothing but the island, what was sent and the count of draws differs: the die's state is as it was (13 R324, R325). -/
def IslandOnly (s t : State) : Prop := t = { s with isl := t.isl, out := t.out, free := t.free }

/-- The island is fitted and runs. -/
def IslandRuns (s : State) : Prop := s.part.meter = true ∧ s.isl.run = true

/-- What has been slewed and stepped while SEALED in a UTC day of the island's clock, µs (13 R340). -/
def spentOn (s : State) (day : Nat) : Nat := ((s.isl.spent.find? (fun p => decide (p.1 = day))).map (fun p => p.2)).getD 0

/-- The budget of the present UTC day, µs: 10 s less what has been spent (13 R340). -/
def budgetOf (s : State) : Nat := 10000000 - spentOn s (s.isl.secs / 86400)

/-- The log has gained one record with the code, and nothing before it has changed. -/
def LogGains (s t : State) (code : Nat) : Prop := ∃ r, t.isl.log = s.isl.log ++ [r] ∧ r.code = code

/-- The legal registers and parameters are as before. -/
def LegalKept (s t : State) : Prop :=
  t.isl.energy = s.isl.energy ∧ t.isl.events = s.isl.events ∧ t.isl.cal = s.isl.cal ∧ t.isl.ctPri = s.isl.ctPri ∧ t.isl.ctSec1 = s.isl.ctSec1
    ∧ t.isl.mkey = s.isl.mkey ∧ t.isl.fwid = s.isl.fwid ∧ t.isl.code = s.isl.code ∧ t.isl.serial = s.isl.serial

/-- What register r gains of a second's energy `e`, 10 nWh at the CT secondary: whole units of 0.01 Wh of primary energy, with the rest it had (13
R327; the units of the rest are the model's, log entry 185). -/
def gains (s : State) (r e : Nat) : Nat :=
  (s.isl.energyRest.getD r 0 + e * s.isl.ctPri * (if s.isl.ctSec1 = true then 5 else 1)) / 5000000

end Sys2Proof.Claims

/-- 13 R325, R327 to R329, R331, R333, R336, R337, R340, R342: the island sets, slews or steps its clock when asked, within its daily budget while SEALED;
it computes its checksum afresh; every second adds to its registers through the CT ratio, per phase and by quadrant, applies the parameters accepted
before, and sends one MEAS record, with ten HELLOs where no session is acknowledged; demand periods and months close; sags and swells are counted when
they begin; it stops and starts with its registers kept; its cover is recorded. The die's state is untouched. The model's own choices that it rests
on: log entries 91, 93, 182, 183, 184, 185. -/
def Obligations.IslandCommands : Prop :=
  (∀ (s : State) (bytes p : List Byte) (frac : Fin 1000000), IslandRuns s → Carries 0x21 bytes p →
      let utcNs := leAt p 0 6 * 1000000000 + leAt p 6 4
      let d : Int := (utcNs / 1000 : Nat) + 20 - ((s.isl.secs : Int) * 1000000 + frac)
      let free := if s.isl.isOpen = true then 2 else 1
      ∃ t, exec (.islandTsync bytes frac) s = .next t ∧ IslandOnly s t ∧ LegalKept s t ∧ t.isl.isOpen = s.isl.isOpen
        ∧ (s.isl.timeValid = false → t.isl.timeValid = true ∧ t.isl.secs = utcNs / 1000000000 ∧ t.isl.spent = s.isl.spent ∧ t.isl.slew = 0
            ∧ (s.isl.log.length + free ≤ 8192 → LogGains s t 0x41))
        ∧ (s.isl.timeValid = true → s.isl.isOpen = false → budgetOf s = 0 → d ≠ 0 → t.isl.secs = s.isl.secs ∧ t.isl.slew = s.isl.slew
            ∧ t.isl.log = s.isl.log ∧ t.isl.alarm.testBit 8 = true
            ∧ t.out = s.out ++ [.fromIsland (linkFrame 0x22 s.isl.counter ([BitVec.ofNat 8 Status.refusedState.code] ++ List.replicate 7 0))])
        ∧ (s.isl.timeValid = true → s.isl.isOpen = true ∨ budgetOf s ≠ 0 → d.natAbs < 1000000 → t.isl.slew = d ∧ t.isl.secs = s.isl.secs
            ∧ t.isl.log = s.isl.log ∧ t.isl.spent = s.isl.spent)
        ∧ (s.isl.timeValid = true → s.isl.isOpen = true ∨ budgetOf s ≠ 0 → 1000000 ≤ d.natAbs →
            let n : Nat := if s.isl.isOpen = true then d.natAbs else min d.natAbs (budgetOf s)
            let a : Int := if 0 < d then n else -n
            (8192 < s.isl.log.length + free → t.isl.secs = s.isl.secs ∧ t.isl.log = s.isl.log ∧ t.isl.spent = s.isl.spent)
            ∧ (s.isl.log.length + free ≤ 8192 → LogGains s t 0x40 ∧ t.isl.slew = 0
                ∧ t.isl.secs = (Int.fdiv ((s.isl.secs : Int) * 1000000 + frac + a) 1000000).toNat
                ∧ (s.isl.isOpen = true → t.isl.spent = s.isl.spent)
                ∧ (s.isl.isOpen = false → spentOn t (s.isl.secs / 86400) = spentOn s (s.isl.secs / 86400) + n)
                ∧ (s.isl.secs / 900 = t.isl.secs / 900 → t.isl.perFlags.testBit 0 = true))))
  ∧ (∀ (s : State) (bytes p : List Byte), IslandRuns s → Carries 0x23 bytes p → ∃ t, exec (.islandIdent bytes) s = .next t
      ∧ t.isl = { s.isl with counter := (s.isl.counter + 1) % 65536 } ∧ IslandOnly s t
      ∧ t.out = s.out ++ [.fromIsland (linkFrame 0x24 s.isl.counter
          (leBytes 4 s.isl.fwid ++ leBytes 4 (crc32ieee s.isl.code).toNat ++ leBytes 8 s.isl.serial))])
  ∧ (∀ (s : State) (bytes : List Byte) (frac : Fin 1000000), IslandRuns s →
      ((linkPayloads 0x21 bytes).1 = [] → exec (.islandTsync bytes frac) s = .next s)
      ∧ ((linkPayloads 0x23 bytes).1 = [] → exec (.islandIdent bytes) s = .next s))
  ∧ (∀ (s : State) (q : IslandIn), IslandRuns s → let e (k : Nat) : Int := q.active.getD k 0
      let P := q.active.sum
      let Q := q.reactive.sum
      let quad := if 0 ≤ Q then (if 0 ≤ P then 0 else 1) else (if 0 ≤ P then 3 else 2)
      ∃ t h c m, exec (.islandSecond q) s = .next t ∧ IslandOnly s t ∧ t.isl.secs = s.isl.secs + 1
        ∧ t.out = s.out ++ h ++ [.fromIsland (linkFrame 0x10 c m)] ∧ m.length = 256 ∧ leAt m 0x00 4 = s.isl.seq % 2 ^ 32
        ∧ leAt m 0x04 6 = (s.isl.secs + 1) % 2 ^ 48 ∧ leAt m 0x24 8 = t.isl.energy.getD 3 0 % 2 ^ 64
        ∧ (s.isl.acked = true → h = [] ∧ c = s.isl.counter)
        ∧ (s.isl.acked = false → h.length = 10 ∧ ∀ x ∈ h, ∃ n p, x = .fromIsland (linkFrame 0x01 n p))
        ∧ t.isl.seq = (s.isl.seq + 1) % 2 ^ 32 ∧ t.isl.log = s.isl.log
        ∧ (∀ k, k < 3 →
            (0 ≤ e k → t.isl.energy.getD k 0 = s.isl.energy.getD k 0 + gains s k (e k).natAbs ∧ t.isl.energy.getD (4 + k) 0 = s.isl.energy.getD (4 + k) 0)
            ∧ (e k < 0 → t.isl.energy.getD (4 + k) 0 = s.isl.energy.getD (4 + k) 0 + gains s (4 + k) (e k).natAbs
                ∧ t.isl.energy.getD k 0 = s.isl.energy.getD k 0))
        ∧ t.isl.energy.getD 3 0 = t.isl.energy.getD 0 0 + t.isl.energy.getD 1 0 + t.isl.energy.getD 2 0
        ∧ t.isl.energy.getD 7 0 = t.isl.energy.getD 4 0 + t.isl.energy.getD 5 0 + t.isl.energy.getD 6 0
        ∧ (∀ j, j < 4 → t.isl.energy.getD (8 + j) 0 = s.isl.energy.getD (8 + j) 0 + (if j = quad then gains s (8 + j) Q.natAbs else 0))
        ∧ (let x := s.isl.params.foldl State.islSet s.isl
           t.isl.params = [] ∧ t.isl.cal = x.cal ∧ t.isl.ctPri = x.ctPri ∧ t.isl.ctSec1 = x.ctSec1 ∧ t.isl.mkey = x.mkey
            ∧ t.isl.testReactive = x.testReactive)
        ∧ t.isl.isOpen = s.isl.isOpen ∧ t.isl.events = s.isl.events ∧ t.isl.demMax = s.isl.demMax
        ∧ (s.isl.isOpen = true → t.isl.slew.natAbs = s.isl.slew.natAbs - 100)
        ∧ (s.isl.isOpen = false → 10000000 ≤ spentOn s ((s.isl.secs + 1) / 86400) → t.isl.slew = 0))
  ∧ (∀ s : State, IslandRuns s → s.isl.timeValid = true →
      (∀ st, s.isl.secs % 900 = 0 → s.isl.perMark ≠ s.isl.secs → s.isl.perStart = some st →
        let w := (s.isl.energy.getD 3 0 - s.isl.perBase) * 4 / 100
        ∃ t, exec .demandPeriodEnd s = .next t ∧ IslandOnly s t ∧ LegalKept s t ∧ t.isl.demLast = w ∧ t.isl.demFlags = s.isl.perFlags
          ∧ t.isl.demMax = max s.isl.demMax w ∧ (s.isl.demMax < w → t.isl.demPer = st / 900) ∧ (w ≤ s.isl.demMax → t.isl.demPer = s.isl.demPer)
          ∧ t.isl.perStart = some s.isl.secs ∧ t.isl.perFlags = 0)
      ∧ (s.isl.month < State.monthOf s.isl.secs → ∃ t, exec .demandMonthEnd s = .next t
        ∧ t = { s with isl := { s.isl with
            demPrev := if s.isl.month + 1 = State.monthOf s.isl.secs then s.isl.demMax else 0
            demMax := 0, demPer := 0, month := State.monthOf s.isl.secs } }))
  ∧ (∀ (s : State) (k : Fin 3) (swell : Bool) (v ms : Nat), IslandRuns s → let i := k.val + (if swell then 3 else 0)
      let on := s.isl.lasting.getD i false
      let beyond := if swell then 2530 < v else v < 2070
      let back := if swell then v < 2507 else 2093 < v
      ∃ t, exec (.sagSwell k swell v ms) s = .next t ∧ t = { s with isl := { s.isl with events := t.isl.events, lasting := t.isl.lasting } }
        ∧ (on = false → 10 ≤ ms → beyond → t.isl.events.getD i 0 = (s.isl.events.getD i 0 + 1) % 2 ^ 32 ∧ t.isl.lasting.getD i false = true)
        ∧ (on = false → ms < 10 ∨ ¬ beyond → t.isl.events.getD i 0 = s.isl.events.getD i 0 ∧ t.isl.lasting.getD i false = false)
        ∧ (on = true → t.isl.events.getD i 0 = s.isl.events.getD i 0 ∧ (t.isl.lasting.getD i false = false ↔ back))
        ∧ ∀ j, j < 6 → j ≠ i → t.isl.events.getD j 0 = s.isl.events.getD j 0 ∧ t.isl.lasting.getD j false = s.isl.lasting.getD j false)
  ∧ (∀ s : State, IslandRuns s → ∃ t, exec .islandStop s = .next t ∧ IslandOnly s t ∧ LegalKept s t ∧ t.isl.run = false
      ∧ t.isl.isOpen = s.isl.isOpen ∧ t.isl.perFlags.testBit 1 = true ∧ (s.isl.log.length < 7936 → LogGains s t 0x01))
  ∧ (∀ (s : State) (outage : Nat) (clock : Bool), s.part.meter = true → s.isl.run = false →
      ∃ t, exec (.islandStart outage clock) s = .next t ∧ IslandOnly s t ∧ LegalKept s t ∧ t.isl.run = true ∧ t.isl.isOpen = false
        ∧ (let on := clock || decide (outage ≤ 259200)
           t.isl.timeValid = (s.isl.timeValid && on) ∧ t.isl.secs = (if on then s.isl.secs + outage else s.isl.secs))
        ∧ t.isl.nonce = Config.free s.free % 2 ^ 128 ∧ t.isl.acked = false
        ∧ (s.isl.log.length < 7936 → (s.isl.log ++ [⟨0x02, t.isl.secs, leBytes 4 outage⟩]) <+: t.isl.log))
  ∧ (∀ (s : State) (removed : Bool), IslandRuns s → s.isl.cover ≠ removed →
      ∃ t, exec (.islandCoverChange removed) s = .next t ∧ IslandOnly s t ∧ LegalKept s t ∧ t.isl.cover = removed
        ∧ (s.isl.log.length < 7936 → LogGains s t (if removed then 0x03 else 0x04)))

namespace Sys2Proof.Claims

open Machine

/-- A signed message as 13 R330 asks: in form, for this island, with the nonce of its latest CHALLENGE, and with a signature that verifies. -/
def Signed (s : State) (m : SignedMsg) : Prop :=
  IslandRuns s ∧ m.formed = true ∧ m.serial = s.isl.serial ∧ m.nonce = s.isl.nonce ∧ Config.sigValid s.isl.mkey m.body m.sig = true

/-- The island has answered with a status and issued a fresh nonce of 16 bytes. -/
def IslandAnswers (s t : State) (st : Status) : Prop :=
  IslandOnly s t ∧ t.isl.nonce = Config.free s.free % 2 ^ 128 ∧ t.free = s.free + 1
    ∧ ∃ out k, t.out = s.out ++ out ++ [.fromIsland (linkFrame 0x31 k [BitVec.ofNat 8 st.code]),
        .fromIsland (linkFrame 0x30 ((k + 1) % 65536) (leBytes 16 (Config.free s.free)))]
      ∧ t.isl.counter = (k + 2) % 65536

/-- A message refused by the seal: answered, with nothing else changed. -/
def SealRefuses (s t : State) (st : Status) : Prop :=
  IslandAnswers s t st ∧ t.isl = { s.isl with nonce := t.isl.nonce, reseat := t.isl.reseat, counter := t.isl.counter }

/-- What every parameter message obeys (13 R331): refused while SEALED and without two free records. -/
def SealGuards (s t : State) : Prop :=
  (s.isl.isOpen = false → SealRefuses s t .refusedState) ∧ (s.isl.isOpen = true → 8192 < s.isl.log.length + 2 → SealRefuses s t .noSpace)

/-- A parameter message may be applied. -/
def SealAdmits (s : State) : Prop := s.isl.isOpen = true ∧ s.isl.log.length + 2 ≤ 8192

/-- It is accepted: answered OK, one record with the code, the seal OPEN and its four hours begun anew. -/
def SealAccepts (s t : State) (code : Nat) : Prop :=
  IslandAnswers s t .ok ∧ LogGains s t code ∧ t.isl.isOpen = true ∧ t.isl.openSecs = 0 ∧ t.isl.energy = s.isl.energy

/-- A parameter message is accepted, and applies from the next second (13 R331). -/
def ParamAccepted (s t : State) (code : Nat) (p : IslParam) : Prop :=
  SealAccepts s t code ∧ t.isl.params = s.isl.params ++ [p] ∧ LegalKept s t ∧ t.isl.testReactive = s.isl.testReactive

end Sys2Proof.Claims

/-- 13 R330 to R332, R342: any other structure, a wrong serial or nonce is refused with AUTH and counted; the seal opens with the jumper fitted and two
records free, and closes by message, by the jumper, or after 4 h; parameter messages are accepted in OPEN alone, with one record each, and apply from
the next second; FW_ACTIVATE wants the firmware key's signature. The model's own choices that it rests on: log entries 10, 93, 182, 183. -/
def Obligations.SealCommands : Prop :=
  (∀ (s : State) (m : SignedMsg) (jumper : Bool), IslandRuns s → ¬ Signed s m →
      ∃ t, exec (.sealOpen m jumper) s = .next t ∧ IslandAnswers s t .auth
        ∧ t.isl = { s.isl with nonce := t.isl.nonce, refused := s.isl.refused + 1, counter := t.isl.counter } ∧ exec (.sealClose m) s = .next t
        ∧ (∀ ch c, exec (.setCal m ch c) s = .next t) ∧ (∀ p b, exec (.setCt m p b) s = .next t) ∧ (∀ k, exec (.testMode m k) s = .next t)
        ∧ (∀ f c g, exec (.fwLoad m f c g) s = .next t) ∧ exec (.fwActivate m) s = .next t ∧ ∀ k, exec (.setMkey m k) s = .next t)
  ∧ (∀ (s : State) (m : SignedMsg), Signed s m →
      (∀ jumper : Bool, ∃ t, exec (.sealOpen m jumper) s = .next t ∧ LegalKept s t
        ∧ (s.isl.isOpen = true ∨ jumper = false ∨ (s.isl.reseat = true ∧ jumper = true) → SealRefuses s t .refusedState)
        ∧ (s.isl.isOpen = false → jumper = true → s.isl.reseat = false → 8192 < s.isl.log.length + 2 → SealRefuses s t .noSpace)
        ∧ (s.isl.isOpen = false → jumper = true → s.isl.reseat = false → s.isl.log.length + 2 ≤ 8192 → SealAccepts s t 0x10))
      ∧ (∃ t, exec (.sealClose m) s = .next t ∧ LegalKept s t ∧ (s.isl.isOpen = false → SealRefuses s t .refusedState)
        ∧ (s.isl.isOpen = true → IslandAnswers s t .ok ∧ t.isl.isOpen = false ∧ t.isl.testReactive = false
            ∧ (s.isl.log.length < 8192 → LogGains s t 0x11)))
      ∧ (∀ (ch : Fin 12) (c : List Byte), ∃ t, exec (.setCal m ch c) s = .next t ∧ SealGuards s t
        ∧ (SealAdmits s → ParamAccepted s t 0x20 (.cal ch c)))
      ∧ (∀ (p : Fin 65536) (b : Bool), ∃ t, exec (.setCt m p b) s = .next t ∧ SealGuards s t ∧ (SealAdmits s → ParamAccepted s t 0x21 (.ct p b)))
      ∧ (∀ mode : Nat, ∃ t, exec (.testMode m mode) s = .next t ∧ SealGuards s t
        ∧ (SealAdmits s → ParamAccepted s t 0x22 (.test (decide (mode ≠ 0)))))
      ∧ (∀ (f : Nat) (c g : List Byte), ∃ t, exec (.fwLoad m f c g) s = .next t ∧ SealGuards s t
        ∧ (SealAdmits s → IslandAnswers s t .ok ∧ t.isl.loaded = some (f, c, g) ∧ t.isl.log = s.isl.log ∧ LegalKept s t))
      ∧ (∃ t, exec (.fwActivate m) s = .next t ∧ SealGuards s t
        ∧ (SealAdmits s → s.isl.loaded = none → SealRefuses s t .refusedState)
        ∧ ∀ f c g, SealAdmits s → s.isl.loaded = some (f, c, g) →
            (Config.sigValid s.isl.fwKey c g = false → SealRefuses s t .integrity)
            ∧ (Config.sigValid s.isl.fwKey c g = true → SealAccepts s t 0x30 ∧ t.isl.fwid = f ∧ t.isl.code = c ∧ t.isl.loaded = none))
      ∧ (∀ key : List Byte, ∃ t, exec (.setMkey m key) s = .next t ∧ SealGuards s t ∧ (SealAdmits s → ParamAccepted s t 0x31 (.mkey key))))
  ∧ (∀ s : State, IslandRuns s → ∃ t, exec .sealJumperRemoved s = .next t ∧ IslandOnly s t ∧ LegalKept s t ∧ t.isl.reseat = false
      ∧ t.isl.isOpen = false ∧ (s.isl.isOpen = true → s.isl.log.length < 8192 → LogGains s t 0x11) ∧ (s.isl.isOpen = false → t.out = s.out))
  ∧ (∀ s : State, IslandRuns s → s.isl.isOpen = true → 14400 ≤ s.isl.openSecs →
      ∃ t, exec .sealOpenTimeout s = .next t ∧ IslandOnly s t ∧ LegalKept s t ∧ t.isl.isOpen = false ∧ t.isl.reseat = true
        ∧ (s.isl.log.length < 8192 → LogGains s t 0x11))

namespace Sys2Proof.Claims

open Machine

/-- Nothing but the watch core, registers, power requests, contactor outputs, records and the time inside the frame differs. -/
def WatchOnly (s t : State) : Prop :=
  t = { s with
    regs := t.regs, wch := t.wch, evr := t.evr, drv := { s.drv with feeders := t.drv.feeders, closeNs := t.drv.closeNs }
    pwr := { s.pwr with quartzNow := t.pwr.quartzNow }, fr := { s.fr with nowUs := t.fr.nowUs } }

/-- Nothing but the clock's own state, registers, power requests, records and the time inside the frame differs, and every register outside RTC, PWR and
EVR is as before. -/
def RtcOnly (s t : State) : Prop :=
  t = { s with
    regs := t.regs, rtc := t.rtc, evr := t.evr, out := t.out, pwr := { s.pwr with quartzNow := t.pwr.quartzNow }, fr := { s.fr with nowUs := t.fr.nowUs } }
    ∧ ∀ a, a / 0x10000 ≠ 0xB → a / 0x10000 ≠ 1 → a / 0x10000 ≠ 0xD → t.rd a = s.rd a

/-- An alarm at a tick that matches it: armed, it fires, or is suppressed within a period of its last firing; a one-shot disarms. -/
def AlarmAt (s t : State) (a : Fin 2) : Prop :=
  (s.bit R.RTC_ALM_CTRL_ARM a = false ∨ t.almMatch a t.rtcTime = false →
      (t.fld R.RTC_EVT_ALM).testBit a = (s.fld R.RTC_EVT_ALM).testBit a ∧ t.fld R.RTC_ALM_LAST_MONO a = s.fld R.RTC_ALM_LAST_MONO a
        ∧ t.bit R.RTC_ALM_CTRL_ARM a = s.bit R.RTC_ALM_CTRL_ARM a)
  ∧ (s.bit R.RTC_ALM_CTRL_ARM a = true → t.almMatch a t.rtcTime = true →
      let rep := s.bit R.RTC_ALM_CTRL_REPEAT a
      let since := (t.fld R.RTC_MONO_SECONDS + 2 ^ 32 - s.fld R.RTC_ALM_LAST_MONO a) % 2 ^ 32
      (rep = false ∨ s.almPeriod a ≤ since → (t.fld R.RTC_EVT_ALM).testBit a = true ∧ t.fld R.RTC_ALM_LAST_MONO a = t.fld R.RTC_MONO_SECONDS
          ∧ t.bit R.RTC_ALM_CTRL_ARM a = rep)
      ∧ (rep = true → since < s.almPeriod a → (t.fld R.RTC_EVT_SUPP).testBit a = true ∧ t.fld R.RTC_ALM_LAST_MONO a = s.fld R.RTC_ALM_LAST_MONO a
          ∧ t.bit R.RTC_ALM_CTRL_ARM a = true
          ∧ t.fld R.RTC_ALM_CTRL_SUPPRESSED a = min (s.fld R.RTC_ALM_CTRL_SUPPRESSED a + 1) 65535))

end Sys2Proof.Claims

/-- 14 R357 to R361: a sample shows its inputs; a running rule without filter compares the sample with its threshold and hysteresis and fires once the
condition has held its time, and a LOG, FLAG, WAKE or AGATE follows; a rule that does not run has no condition; the fallback arms with the DARK
state. The model's own choices that it rests on: log entries 94 to 97, 155. -/
def Obligations.WatchCore : Prop :=
  (∀ (s : State) (us : Fin 20000) (w : WatchIn), s.pwr.mode = .on → (s.atUs us).nowNs < s.wch.nextNs → exec (.watchSample us w) s = .next s)
  ∧ (∀ (s : State) (us : Fin 20000) (w : WatchIn), (s.pwr.mode = .on ∧ s.wch.nextNs ≤ (s.atUs us).nowNs) ∨ s.pwr.mode = .onyx →
      ∃ t, exec (.watchSample us w) s = .next t ∧ WatchOnly s t ∧ t.fr.nowUs = (if s.pwr.mode = .on then max s.fr.nowUs us else s.fr.nowUs + 100000)
        ∧ t.fld R.WCH_IN_VALUE 0 = min w.photo 65535 ∧ t.fld R.WCH_IN_VALUE 1 = w.mains % 8 ∧ t.fld R.WCH_IN_VALUE 2 = (if w.door then 1 else 0)
        ∧ t.fld R.WCH_IN_VALUE 3 = (if w.tamper then 1 else 0) ∧ t.fld R.WCH_IN_VALUE 4 = w.keys % 128
        ∧ t.fldI R.WCH_IN_VALUE 5 = max (-32768) (min w.temp 32767) ∧ t.fld R.WCH_IN_VALUE 6 = min w.vaux 65535
        ∧ t.fld R.WCH_IN_VALUE 7 = t.fld R.PWR_STORE_PCT ∧ t.fld R.WCH_IN_VALUE 8 = w.din % 16
        ∧ t.fld R.PWR_STORE_V = min w.store 65535
        ∧ t.fld R.PWR_STORE_PCT = (if w.store ≤ 180 then 0 else min 100 (100 * (w.store * w.store - 32400) / 217600))
        ∧ ∀ r : Fin 32, let i := s.fld R.WCH_RULE_CFG_INPUT r
            let v := watchInput w (t.fld R.PWR_STORE_PCT) i
            let th : Int := if i = 5 then s.fldI ⟨R.WCH_RULE_THR_THRESH.addr, R.WCH_RULE_THR_THRESH.stride, 0, 0, 16⟩ r else s.fld R.WCH_RULE_THR_THRESH r
            let hy : Int := s.fld R.WCH_RULE_THR_HYST r
            let was := s.bit R.WCH_RULE_STAT_TRUE r
            let x := s.wchRule r
            let fires := t.bit R.WCH_RULE_STAT_TRUE r = true ∧ x.fired = false ∧ s.fld R.WCH_RULE_TIME_HOLD r ≤ x.held
            (s.ruleRuns r = false → t.bit R.WCH_RULE_STAT_TRUE r = false)
            ∧ (s.ruleRuns r = true → s.fld R.WCH_RULE_CFG_FILTER r = 0 →
                t.bit R.WCH_RULE_STAT_TRUE r = (match s.fld R.WCH_RULE_CFG_CMP r with
                  | 0 => decide (th < v ∨ was = true ∧ th - hy < v)
                  | 1 => decide (v < th ∨ was = true ∧ v < th + hy)
                  | 2 => decide (v = th)
                  | 3 => decide (v ≠ th)
                  | 4 => decide ((v % 65536).toNat &&& (th % 65536).toNat ≠ 0)
                  | _ => decide ((v % 65536).toNat &&& (th % 65536).toNat = 0))
                ∧ (fires → (t.fld R.WCH_FIRED_RULE).testBit r = true
                    ∧ t.fld R.WCH_RULE_STAT_FIRES r = min (s.fld R.WCH_RULE_STAT_FIRES r + 1) 255
                    ∧ (s.fld R.WCH_RULE_CFG_ACTION r = 1 → s.pwr.mode = .on → t.bit R.PWR_REQ_AGATE = false)
                    ∧ (s.fld R.WCH_RULE_CFG_ACTION r = 4 → (t.fld R.WCH_BKP_FLAGS_FLAG).testBit (s.fld R.WCH_RULE_CFG_FLAG r) = true)
                    ∧ (s.fld R.WCH_RULE_CFG_ACTION r = 3 → (s.pwr.mode = .on ∧ s.ready 7 = true → ∃ q ∈ t.evr.ops.recs, q.event = .watchRule)
                        ∧ (s.pwr.mode = .onyx ∨ s.ready 7 = false → (s.wch.logq.length < 16 → s.wch.logq.length < t.wch.logq.length)
                          ∧ (16 ≤ s.wch.logq.length → s.fld R.WCH_LOGQ_DROPPED < t.fld R.WCH_LOGQ_DROPPED ∨ t.fld R.WCH_LOGQ_DROPPED = 65535))))
                ∧ (¬ fires → (t.fld R.WCH_FIRED_RULE).testBit r = (s.fld R.WCH_FIRED_RULE).testBit r
                    ∧ t.fld R.WCH_RULE_STAT_FIRES r = s.fld R.WCH_RULE_STAT_FIRES r)))
  ∧ (∀ (s : State) (us : Fin 20000), s.pwr.mode = .on → let u := s.atUs us
      let dark := s.bit R.WCH_PHOTO_STAT_DARK
      ∃ t, exec (.photoFallbackArm us) s = .next t ∧ WatchOnly s t ∧ t.wch = s.wch ∧ t.evr = s.evr ∧ t.bit R.WCH_PHOTO_STAT_DARK = dark
        ∧ (t.bit R.WCH_PHOTO_STAT_ARMED = true ↔ s.bit R.WCH_PHOTO_CFG_EN = true ∧ (s.ready 8 = false ∨ s.bit R.ROD_FLT_STAT_GARNET = true
            ∨ s.wch.schedNs = none ∨ ∃ n, s.wch.schedNs = some n ∧ n + s.fld R.WCH_PHOTO_CFG_STALE * 60000000000 < u.nowNs))
        ∧ (s.bit R.WCH_PHOTO_STAT_ARMED = false → t.bit R.WCH_PHOTO_STAT_ARMED = true →
            ∀ f : Fin 6, (s.fld R.WCH_PHOTO_CFG_FEEDERS).testBit f = true → t.bit R.DRV_FEEDER_CMD_CLOSE f = dark)
        ∧ (s.bit R.WCH_PHOTO_STAT_ARMED = true ∨ t.bit R.WCH_PHOTO_STAT_ARMED = false → t.drv = s.drv
            ∧ ∀ a, a ≠ R.WCH_PHOTO_STAT_ARMED.addr → t.rd a = s.rd a))

/-- 15 R363, R365 to R367, R369 to R373, R375: a tick counts the second and checks both alarms; a commit replaces the named groups as a whole or not at
all; a stopped crystal sets OSF; in LOCKED the clock is compared every 10 s and CAL adjusted every hour; an alarm is armed only where it can match;
a selected edge is time-stamped while its FIFO has room, and POP removes the head. The model's own choices that it rests on: log entries 7, 98, 99. -/
def Obligations.ClockCommands : Prop :=
  (∀ (s : State) (us : Nat), s.pwr.mode ≠ .off → let x := s.rtcTime.secs + 1
      ∃ t, exec (.rtcSecondTick us) s = .next t ∧ RtcOnly s t ∧ t.out = s.out ∧ t.evr = s.evr ∧ t.rtc.tickNs = t.nowNs ∧ t.rtc.base = 0
        ∧ t.fld R.RTC_MONO_SECONDS = (s.fld R.RTC_MONO_SECONDS + 1) % 2 ^ 32
        ∧ t.rtcTime = RtcTime.ofSecs x
        ∧ t.bit R.RTC_STATUS_OSF = (s.bit R.RTC_STATUS_OSF || decide (s.rtcTime = ⟨199, 12, 31, 23, 59, 59⟩))
        ∧ t.bit R.RTC_STATUS_STEERING = (s.bit R.RTC_STATUS_STEERING && decide (t.nowNs < s.rtc.steerEnd))
        ∧ ∀ a : Fin 2, AlarmAt s t a)
  ∧ (∀ (s : State) (who : Requester) (us : Fin 20000) (v : Word), WriteAccepted s who us R.RTC_SET_DATE.addr v →
      let locked := who ≠ .sup ∧ s.fld R.NTU_STAT_STATE = 2
      let r := s.rtcTime
      let d := s.rd R.RTC_SET_DATE_DATE.addr
      let m := s.rd R.RTC_SET_TIME_TIME.addr
      let x : RtcTime :=
        { year := if v.getLsbD 0 then getBits d 9 8 else r.year, month := if v.getLsbD 0 then getBits d 5 4 else r.month
          day := if v.getLsbD 0 then getBits d 0 5 else r.day, hour := if v.getLsbD 1 then getBits m 12 5 else r.hour
          min := if v.getLsbD 1 then getBits m 6 6 else r.min, sec := if v.getLsbD 2 then getBits m 0 6 else r.sec }
      let no := v.getLsbD 0 = false ∧ v.getLsbD 1 = false ∧ v.getLsbD 2 = false
      ∃ t, exec (.rtcSet who us v) s = .next t ∧ RtcOnly s t
        ∧ (no → OnlyRegs s t [] ∧ Answered s t who .invalid)
        ∧ (¬ no → locked → OnlyRegs s t [R.RTC_SET_RES_STATUS.addr] ∧ Answered s t who .refusedState
            ∧ t.fld R.RTC_SET_RES_STATUS = Status.refusedState.code)
        ∧ (¬ no → ¬ locked → x.valid = false → OnlyRegs s t [R.RTC_SET_RES_STATUS.addr] ∧ Answered s t who .dateInvalid
            ∧ t.fld R.RTC_SET_RES_STATUS = Status.dateInvalid.code)
        ∧ (¬ no → ¬ locked → x.valid = true → Answered s t who .ok ∧ t.rtcTime = x ∧ t.bit R.RTC_STATUS_OSF = false
            ∧ t.rtc.tickNs = (if v.getLsbD 2 then (s.atUs us).nowNs else s.rtc.tickNs) ∧ t.fld R.RTC_SET_RES_STATUS = Status.ok.code
            ∧ t.fld R.RTC_SET_RES_SOURCE = (if who = .sup then 2 else 0)))
  ∧ (∀ s : State, s.pwr.mode ≠ .off →
      ∃ t, exec .oscillatorStop s = .next t ∧ OnlyRegs s t [R.RTC_STATUS_OSF.addr] ∧ t.out = s.out ∧ t.bit R.RTC_STATUS_OSF = true
        ∧ t.bit R.RTC_STATUS_STEERING = s.bit R.RTC_STATUS_STEERING)
  ∧ (∀ (s : State) (us : Fin 20000), s.pwr.mode = .on → s.fld R.NTU_STAT_STATE = 2 → s.rtc.checkNs ≤ (s.atUs us).nowNs → let d := (s.atUs us).rtcDiff
      ∃ t, exec (.rtcSteerCheck us) s = .next t ∧ RtcOnly s t ∧ t.out = s.out ∧ t.rtcTime = s.rtcTime ∧ t.rtc.tickNs = s.rtc.tickNs
        ∧ t.bit R.RTC_STATUS_OSF = s.bit R.RTC_STATUS_OSF ∧ t.fldI R.RTC_STEER_DIFF = max (-2147483648) (min d 2147483647)
        ∧ t.rtc.checkNs = t.nowNs + 10000000000
        ∧ (d.natAbs < 2000000 → t.bit R.RTC_STATUS_STEERING = decide (61 ≤ d.natAbs) ∧ t.rtc.stepNs = s.rtc.stepNs
            ∧ (61 ≤ d.natAbs → t.rtc.steerEnd = t.nowNs + (d.natAbs - 60) * 1024000))
        ∧ (2000000 ≤ d.natAbs → ∃ n, t.rtc.stepNs = some n ∧ n % 1000000000 = 0 ∧ t.nowNs ≤ n ∧ n < t.nowNs + 1000000000))
  ∧ (∀ (s : State) (x : Nat), s.rtc.hourNs = some x → s.pwr.mode = .on → s.fld R.NTU_STAT_STATE = 2 → Due s (x + 3600000000000) →
      ∃ t, exec .rtcCalAuto s = .next t ∧ RtcOnly s t ∧ t.out = s.out ∧ t.rtc = { s.rtc with hourNs := some (x + 3600000000000), steer := 0 }
        ∧ (∀ a, a ≠ R.RTC_CAL_CAL.addr → t.rd a = s.rd a) ∧ (s.bit R.RTC_CAL_AUTO = false → t.regs = s.regs)
        ∧ (s.bit R.RTC_CAL_AUTO = true → ∃ u : Int, 2 * (u * 117964800 * 954 - s.rtc.steer * 1000000000).natAbs ≤ 117964800 * 954
            ∧ t.fldI R.RTC_CAL_CAL = max (-512) (min (s.fldI R.RTC_CAL_CAL + u) 511)))
  ∧ (∀ (s : State) (who : Requester) (us : Fin 20000) (k : Fin 2) (v : Word), WriteAccepted s who us (R.RTC_ALM_CTRL_ARM.at k 0) v →
      let has := fun i => (getBits v 3 7).testBit i
      let rep := v.getLsbD 1
      let d := s.rd (R.RTC_ALM_DATE_DATE.at k 0)
      let m := s.rd (R.RTC_ALM_TIME_TIME.at k 0)
      let bad := getBits v 3 7 = 0 ∨ rep = true ∧ has 6 = true
      let off := has 0 = true ∧ 60 ≤ getBits m 0 6 ∨ has 1 = true ∧ 60 ≤ getBits m 6 6 ∨ has 2 = true ∧ 24 ≤ getBits m 12 5
        ∨ has 3 = true ∧ 6 < getBits d 17 3 ∨ has 4 = true ∧ getBits d 0 5 = 0
        ∨ has 5 = true ∧ (getBits d 5 4 = 0 ∨ 12 < getBits d 5 4) ∨ has 6 = true ∧ 199 < getBits d 9 8
      let never := has 4 = true ∧ has 5 = true ∧ monthDays (if has 6 then 2000 + getBits d 9 8 else 2000) (getBits d 5 4) < getBits d 0 5
      let past := getBits v 3 7 = 127 ∧ rep = false ∧
        (RtcTime.mk (getBits d 9 8) (getBits d 5 4) (getBits d 0 5) (getBits m 12 5) (getBits m 6 6) (getBits m 0 6)).secs ≤ s.rtcTime.secs
      ∃ t, exec (.rtcAlmCtrlWrite who us k v) s = .next t ∧ OnlyRegs s t [R.RTC_ALM_CTRL_ARM.at k 0]
        ∧ (v.getLsbD 0 = false ∨ ¬ bad ∧ ¬ off ∧ ¬ never ∧ ¬ past → Answered s t who .ok ∧ t.bit R.RTC_ALM_CTRL_ARM k = v.getLsbD 0
            ∧ t.bit R.RTC_ALM_CTRL_REPEAT k = rep ∧ t.fld R.RTC_ALM_CTRL_CMP k = getBits v 3 7
            ∧ t.fld R.RTC_ALM_CTRL_SUPPRESSED k = s.fld R.RTC_ALM_CTRL_SUPPRESSED k)
        ∧ (v.getLsbD 0 = true → (bad → Answered s t who .invalid) ∧ (¬ bad → off → Answered s t who .range)
            ∧ (¬ bad → ¬ off → never → Answered s t who .dateInvalid) ∧ (¬ bad → ¬ off → ¬ never → past → Answered s t who .late)
            ∧ (bad ∨ off ∨ never ∨ past → t.regs = s.regs)))
  ∧ (∀ (s : State) (i : Fin 4) (us : Nat) (count : Fin 32768) (rising : Bool), s.part.evin = true → s.pwr.mode ≠ .off →
      let q := s.evin i
      let counted := (s.fld R.RTC_EVIN_CFG_EDGE i).testBit (if rising then 0 else 1) = true
      ∃ t, exec (.evinEdge i us count rising) s = .next t ∧ RtcOnly s t ∧ t.out = s.out ∧ t.evr = s.evr ∧ t.bit R.RTC_EVIN_STAT_LEVEL i = rising
        ∧ (∀ j : Fin 4, j ≠ i → t.evin j = s.evin j)
        ∧ (¬ counted → t.evin i = q)
        ∧ (counted → 8 ≤ q.length → t.evin i = q ∧ t.fld R.RTC_EVIN_STAT_OVERFLOW i = min (s.fld R.RTC_EVIN_STAT_OVERFLOW i + 1) 255)
        ∧ (counted → q.length < 8 → t.fld R.RTC_EVIN_STAT_DEPTH i = q.length + 1
            ∧ t.evin i = q ++ [⟨s.rtcTime.dateWord, s.rtcTime.timeWord + (if rising then 131072 else 0) + (if s.bit R.RTC_STATUS_OSF then 262144 else 0),
                if s.pwr.mode = .backup then count.val else (s.rtcClock us).rtcSub⟩]))
  ∧ (∀ (s : State) (who : Requester) (us : Fin 20000) (i : Fin 4), WriteAccepted s who us (R.RTC_EVIN_POP_POP.at i 0) 1 → (s.evin i).length ≤ 8 →
      ∃ t, exec (.evinPop who us i) s = .next t
        ∧ t = { s with regs := t.regs, rtc := t.rtc, icu := { s.icu with late := t.icu.late, busyAt := t.icu.busyAt }, out := t.out, fr := { s.fr with nowUs := t.fr.nowUs } }
        ∧ (∀ a, a ≠ R.RTC_EVIN_STAT_DEPTH.at i 0 → a ≠ R.ICU_LATE_DROP_COUNT.at 13 0 → t.rd a = s.rd a)
        ∧ (t.srcCond 13 = false → s.srcCond 13 = true → s.bit R.ICU_SRC_STAT_INSVC 13 = true →
            t.fld R.ICU_LATE_DROP_COUNT 13 = min (s.fld R.ICU_LATE_DROP_COUNT 13 + 1) 65535) ∧ Answered s t who .ok ∧ t.evin i = (s.evin i).tail
        ∧ t.fld R.RTC_EVIN_STAT_DEPTH i = (s.evin i).tail.length ∧ ∀ j : Fin 4, j ≠ i → t.evin j = s.evin j)

namespace Sys2Proof.Claims

open Machine

/-- Nothing but the key store, registers of KEY, EVR, HOST and the fault unit, records, sessions, answers, the fault in service, kept registers and the
time inside the frame differs. -/
def KeysOnly (s t : State) : Prop :=
  t = { s with
    regs := t.regs, key := t.key, evr := t.evr, host := t.host, flt := t.flt, icu := t.icu, out := t.out, fr := { s.fr with nowUs := t.fr.nowUs } }

/-- The slots other than `k` hold what they held, but that a child of `k` has lost its material. -/
def SlotsKept (s t : State) (k : Nat) : Prop :=
  ∀ j : Fin 32, j.val ≠ k → (t.keySlot j).a = (s.keySlot j).a ∧ (t.keySlot j).b = (s.keySlot j).b ∧ (t.keySlot j).one = (s.keySlot j).one
    ∧ (t.keySlot j).two = (s.keySlot j).two ∧ ((t.keySlot j).mat = (s.keySlot j).mat ∨ j.val ∈ s.children k ∧ (t.keySlot j).mat = none)

/-- The derived slots under `k` have lost their material and are REVOKED, `again` says whether they are to be derived anew (17 R399). -/
def ChildrenGone (s t : State) (k : Nat) (again : Bool) : Prop :=
  ∀ j : Fin 32, j.val ≠ k → s.bit R.KEY_SLOT_CFG_DERIVED j = true → s.fld R.KEY_SLOT_CFG_PARENT j = k →
    (t.keySlot j).mat = none ∧ t.keyState j = 3 ∧ (t.keySlot j).rederive = again

/-- A slot after recovery, when half `h` wins with `y` (17 R391, R395, R396): both copies name it; a stored key is in force, a derived one when its
parent's material stands; a revoked slot stays REVOKED; its invocation counter goes on beyond every value it can have had. -/
def Recovered (s t : State) (k : Fin 32) (h : Nat) (y : KeyHalf) : Prop :=
  (t.keySlot k).one = some ⟨h, y.seq, true⟩ ∧ (t.keySlot k).two = some ⟨h, y.seq, true⟩ ∧ (t.keySlot k).winner = some (h, y)
    ∧ (h = 0 → (t.keySlot k).b = none) ∧ (h ≠ 0 → (t.keySlot k).a = none)
    ∧ (t.keySlot k).counter = (s.keySlot k).saved + 1048576 ∧ (t.keySlot k).saved = (t.keySlot k).counter
    ∧ t.fld R.KEY_SLOT_SEQ_SEQ k = y.seq % 2 ^ 32 ∧ t.fld R.KEY_SLOT_STAT_HALF k = h % 2 ∧ t.fld R.KEY_SLOT_STAT_GEN k = y.gen % 2 ^ 24
    ∧ ((s.keySlot k).revoked = true → t.keyState k = 3)
    ∧ ((s.keySlot k).revoked = false → y.derived = false → t.keyState k = 1 ∧ (t.keySlot k).mat = some y.mat)
    ∧ ((s.keySlot k).revoked = false → y.derived = true →
        (∀ p, t.keyMat y.parent = some p → t.keyState k = 1 ∧ (t.keySlot k).mat = some (derivedKey p s.key.bmr y.label k y.gen))
        ∧ (t.keyMat y.parent = none → t.keyState k = 3 ∧ (t.keySlot k).mat = none))

/-- The engine works on the operation at the head of its queue, if there is one (17 R400). -/
def EngineOk (s : State) : Prop := ∀ j js, s.key.queue = j :: js → j.key.isSome = true

/-- No operation that waits in the queue, but for one that the engine has started, names slot `k` or a slot under it. -/
def Unnamed (s : State) (k : Nat) : Prop := ∀ j ∈ s.key.queue, j.key.isSome = true ∨ ∀ x ∈ j.slots, x ≠ k ∧ x ∉ s.children k

/-- The request's operation has entered the queue: nothing is answered yet. -/
def Queued (s t : State) (i : Fin 8) (id : Nat) (use : Option (Nat × Nat)) (slots : List Nat) (w : KeyWork) : Prop :=
  t.out = s.out ∧ id ∈ (t.sess i).running
    ∧ (∃ u, t.key.queue = s.key.queue ++ [⟨use, slots, some (i.val, id), w, u⟩] ∧ u.isSome = s.key.queue.isEmpty)
    ∧ t.fld R.KEY_STAT_QUEUED = s.key.queue.length + 1

/-- Slot k is valid, holds `m`, and lends it to a usage: its type and its policy both permit that (17 R387, R391, R399). -/
def Lends (s : State) (k bit : Nat) (m : List Byte) : Prop :=
  (s.keyState k = 1 ∨ s.keyState k = 4) ∧ (s.keySlot k).mat = some m ∧ (s.fld R.KEY_SLOT_CFG_USAGE k).testBit bit = true
    ∧ (typeUsage (s.fld R.KEY_SLOT_CFG_TYPE k)).testBit bit = true

/-- Copy 1 names the half that the load has written, which is in force; copy 2 is due within 50 ms; a slot that held a key is thereby invalidated, its
children erased until they are derived anew (17 R393, R398, R399). -/
def Committed (s t : State) (k : Nat) (n : KeyHalf) : Prop :=
  let x := s.keySlot k
  (t.keySlot k).one = some ⟨x.spare, n.seq, true⟩ ∧ (t.keySlot k).two = x.two ∧ (t.keySlot k).half x.spare = some n
    ∧ (t.keySlot k).dueNs = some (t.nowNs + 50000000) ∧ (t.keySlot k).revoked = false
    ∧ (n.derived = false → t.keyState k = 4 ∧ t.keyMat k = some n.mat)
    ∧ (x.used = true → t.bit R.KEY_EVT_REVOKED = true ∧ ChildrenGone s t k true)

/-- Step 1 of a replacement (17 R393): the half that was not active takes the new key, beyond the SEQ and GEN of the active one; the old key stays in
force. -/
def HalfWritten (s t : State) (q : KeyLoad) (m : List Byte) : Prop :=
  let x := s.keySlot q.slot
  ∃ n : KeyHalf, (t.keySlot q.slot).half x.spare = some n ∧ n.mat = m ∧ n.typ = q.typ ∧ n.derived = q.derived ∧ n.parent = q.parent ∧ n.label = q.label
    ∧ n.good = true ∧ n.usage = q.usage % 128 ∧ (∀ h o, x.winner = some (h, o) → n.seq = o.seq + 1 ∧ n.gen = (o.gen + 1) % 2 ^ 24)
    ∧ (t.keySlot q.slot).one = x.one ∧ (t.keySlot q.slot).two = x.two ∧ (t.keySlot q.slot).mat = x.mat

end Sys2Proof.Claims

/-- 15 R368 and 17 R391, R393, R395, R396, R398, R399: every slot comes back by the highest committed SEQ of good integrity, or is INTEGRITY; copy 2 ends a replacement; a
revoked slot loses its material, and its children with it; KEY[0] and KEY[1] are LOCKED; CAL comes back from NAND after a start from OFF. The model's
own choices that it rests on: log entries 10, 103. -/
def Obligations.KeyStore : Prop :=
  (∀ s : State, s.pwr.mode = .on → s.key.done = false → (∀ k h y, (s.keySlot k).winner = some (h, y) → y.typ < 8 ∧ y.usage < 128 ∧ y.parent < 32) →
      ∃ t, exec .keyRecovery s = .next t ∧ t.ready 5 = true ∧ t.key.queue = [] ∧ t.key.done = true ∧ t.rtc = { s.rtc with calLost := false }
        ∧ ((∀ k : Fin 4, (s.keySlot k).winner ≠ none ∨ (s.keySlot k).revoked = true ∨ ((s.keySlot k).one = none ∧ (s.keySlot k).two = none)) →
            KeysOnly { s with rtc := t.rtc } t ∧ t.out = s.out ∧ t.flt = s.flt)
        ∧ t.rd R.RTC_CAL_CAL.addr = (if s.rtc.calLost then SMap.find (s.rd R.RTC_CAL_CAL.addr) s.nand.regs R.RTC_CAL_CAL.addr else s.rd R.RTC_CAL_CAL.addr)
        ∧ ∀ k : Fin 32, let x := s.keySlot k
            (x.winner = none → (t.keySlot k).mat = none ∧ t.keyState k = (if x.revoked then 3 else if x.one ≠ none ∨ x.two ≠ none then 2 else 0)
              ∧ (k.val ≤ 3 → t.keyState k = 2 → t.bit R.KEY_EVT_INTEGRITY = true ∧ t.flt.cur ≠ none))
            ∧ ∀ h y, x.winner = some (h, y) → Recovered s t k h y)
  ∧ (∀ (s : State) (k : Fin 32) (us : Fin 20000) (h : Nat) (y : KeyHalf), s.pwr.mode = .on → s.ready 5 = true → (s.keySlot k).dueNs ≠ none →
      (s.keySlot k).winner = some (h, y) →
      ∃ t, exec (.keyCommitCopy2 k us) s = .next t ∧ KeysOnly s t ∧ t.out = s.out ∧ t.evr = s.evr ∧ t.host = s.host ∧ t.flt = s.flt
        ∧ (t.keySlot k).two = (s.keySlot k).one ∧ (t.keySlot k).one = (s.keySlot k).one ∧ (t.keySlot k).dueNs = none
        ∧ (h = 0 → (t.keySlot k).a = some y ∧ (t.keySlot k).b = none) ∧ (h ≠ 0 → (t.keySlot k).b = some y ∧ (t.keySlot k).a = none)
        ∧ (t.keySlot k).mat = (s.keySlot k).mat ∧ t.keyState k = (if s.keyState k = 4 then 1 else s.keyState k)
        ∧ (∀ j, j ≠ k.val → t.keySlot j = s.keySlot j) ∧ ∀ a, a ≠ R.KEY_SLOT_STAT_STATE.at k 0 → t.rd a = s.rd a)
  ∧ (∀ (s : State) (who : Requester) (us : Fin 20000) (k : Fin 32), WriteAccepted s who us (R.KEY_SLOT_CTRL_REVOKE.at k 0) 1 → Unnamed s k →
      ∃ t, exec (.keyRevoke who us k) s = .next t ∧ KeysOnly s t
        ∧ (k.val ≤ 1 → OnlyRegs s t [] ∧ Answered s t who .locked)
        ∧ (2 ≤ k.val → Answered s t who .ok)
        ∧ (2 ≤ k.val → s.keyState k = 0 → OnlyRegs s t [])
        ∧ (2 ≤ k.val → s.keyState k ≠ 0 → t.keyState k = 3 ∧ (t.keySlot k).mat = none ∧ (t.keySlot k).revoked = true
            ∧ (s.loading k true = false → ∀ h y, (t.keySlot k).half h = some y → y.mat = [])
            ∧ t.bit R.KEY_EVT_REVOKED = true ∧ SlotsKept s t k ∧ ChildrenGone s t k false))

/-- 17 R388, R389, R391, R393, R396, R399 to R402: a load that breaks a rule is answered with its status and changes no slot; others wait their turn in the
queue, which takes 64 operations; a load writes the inactive half as it starts, and the commit at its end puts the new key in force; ATTEST is
answered with a token; RETIRE erases KEY[2] to KEY[31]; SEAL and UNSEAL serve the supervisor; a slot whose active half fails its check is INTEGRITY.
The model's own choices that it rests on: log entries 10, 104, 105, 156, 187. -/
def Obligations.KeyCommands : Prop :=
  (∀ (s : State) (i : Fin 8) (id : Nat) (q : KeyLoad), Fresh s i id 3 true → s.ready 5 = true → EngineOk s →
      let first := q.slot = 2 ∧ q.typ = 2 ∧ s.fld R.KEY_LIFECYCLE_STATE = 1
      let st := s.loadShape q
      let use := s.loadUse (decide (s.sessRole i = 4)) q
      ∃ t, exec (.keyLoad i id q) s = .next t ∧ KeysOnly s t
        ∧ (64 ≤ s.key.queue.length → Responded s t i id .busy [] ∧ t.key = s.key ∧ t.fld R.KEY_STAT_BUSY = min (s.fld R.KEY_STAT_BUSY + 1) 65535)
        ∧ (s.key.queue.length < 64 → (s.sess i).unowned = true → ¬ first → Responded s t i id .auth [] ∧ t.key = s.key)
        ∧ (s.key.queue.length < 64 → (s.sess i).unowned = false ∨ first →
            (st ≠ .ok → Responded s t i id st [] ∧ t.key = s.key)
            ∧ (st = .ok → use.1 ≠ .ok → Responded s t i id .auth [] ∧ t.key = s.key)
            ∧ (st = .ok → use.1 = .ok → (s.keySlot q.slot).dueNs ≠ none ∨ s.loading q.slot false = true → Responded s t i id .busy [] ∧ t.key = s.key)
            ∧ (st = .ok → use.1 = .ok → (s.keySlot q.slot).dueNs = none → s.loading q.slot false = false →
                Queued s t i id use.2 (q.slot :: (if q.derived then [q.parent] else (use.2.map (fun u => u.1)).toList)) (.load q)
                ∧ (s.key.queue ≠ [] → t.key.slots = s.key.slots)
                ∧ (s.key.queue = [] → ∀ m, State.loadKey q use.2.isSome (match use.2 with | some (k, b) => s.keyUse k b | none => (.ok, [])) = (.ok, m) →
                    HalfWritten s t q m)))
        ∧ (s.fld R.KEY_LIFECYCLE_STATE = 3 → st = .refusedState)
        ∧ (s.fld R.KEY_LIFECYCLE_STATE ≠ 3 →
            (32 ≤ q.slot → st = .range) ∧ (q.slot ≤ 1 → st = .locked) ∧ (q.slot = 3 → st = .invalid)
            ∧ (2 ≤ q.slot → q.slot < 32 → q.typ = 0 ∨ 7 < q.typ ∨ q.typ = 1 → st = .invalid)
            ∧ (4 ≤ q.slot → q.slot < 32 → q.derived = false → q.typ ∈ [2, 3, 5, 6, 7] → s.hasChild q.slot = false → st = .ok)
            ∧ (4 ≤ q.slot → q.slot < 32 → q.typ ∈ [2, 3, 4, 5, 6, 7] → s.hasChild q.slot = true → ¬ ((q.typ = 3 ∨ q.typ = 4) ∧ q.usage.testBit 6 = true) →
                st = .invalid)
            ∧ (4 ≤ q.slot → q.slot < 32 → q.derived = true → q.typ ∉ [3, 4] ∨ 32 ≤ q.parent ∨ s.fld R.KEY_SLOT_CFG_TYPE q.parent ∉ [3, 4]
                ∨ (s.fld R.KEY_SLOT_CFG_USAGE q.parent).testBit 6 = false → st = .invalid)
            ∧ (q.derived = false → (q.typ = 3 ∨ q.typ = 6) →
                (∀ w, q.wrap = some w → w < 32 → s.fld R.KEY_SLOT_CFG_TYPE w = 3 → use = (.ok, some (w, 4)))
                ∧ (q.wrap = none ∨ (∃ w, q.wrap = some w ∧ s.fld R.KEY_SLOT_CFG_TYPE w ≠ 3) → use.1 = .auth))
            ∧ (q.derived = false → q.typ = 2 → ¬ first → use = (.ok, some (2, 1)))
            ∧ (first → q.derived = false → use.1 = (if s.sessRole i = 4 then .ok else .auth))))
  ∧ (∀ (s : State) (us : Fin 20000) (e : KeyEnd) (j : KeyJob) (i : Fin 8) (id : Nat) (u : Status × List Byte), s.pwr.mode = .on → s.ready 5 = true →
      s.key.queue = [j] → j.who = some (i.val, id) → j.key = some u → s.sessState i = 2 → id ∈ (s.sess i).running → id ∉ (s.sess i).repeated →
      ∃ t, exec (.keyOperationComplete us e []) s = .next t ∧ t.key.queue = [] ∧ t.fld R.KEY_STAT_QUEUED = 0
        ∧ (∀ nonce, j.work = .attest nonce → KeysOnly s t
            ∧ (e ≠ .slot → t.key.slots = s.key.slots
              ∧ (u.1 = .ok → Responded s t i id .ok ((s.atUs us).token nonce u.2)) ∧ (u.1 ≠ .ok → Responded s t i id u.1 [])))
        ∧ (∀ q m, j.work = .load q → q.slot < 32 → e ≠ .slot → State.loadKey q j.use.isSome u = (.ok, m) → KeysOnly s t ∧ let x := s.keySlot q.slot
            (e = .half → Responded s t i id .integrity [] ∧ (t.keySlot q.slot).half x.spare = none ∧ (t.keySlot q.slot).one = x.one
              ∧ (t.keySlot q.slot).two = x.two ∧ (t.keySlot q.slot).mat = x.mat)
            ∧ ∀ n, e = .good → s.loadShape q = .ok → x.half x.spare = some n → Responded s t i id .ok [] ∧ Committed s t q.slot n
                ∧ t.fld R.KEY_LIFECYCLE_STATE = (if q.slot = 2 ∧ s.fld R.KEY_LIFECYCLE_STATE = 1 then 2 else s.fld R.KEY_LIFECYCLE_STATE))
        ∧ (∀ body sig, j.work = .retire body sig → e ≠ .slot → u.1 = .ok → KeysOnly s t
            ∧ (Config.sigValid u.2 body sig = false → Responded s t i id .auth [] ∧ t.key.slots = s.key.slots)
            ∧ (Config.sigValid u.2 body sig = true → Responded s t i id .ok [] ∧ t.fld R.KEY_LIFECYCLE_STATE = 3
              ∧ (∀ k : Fin 32, 2 ≤ k.val → t.keySlot k = {} ∧ t.keyState k = 0) ∧ t.keySlot 0 = s.keySlot 0 ∧ t.keySlot 1 = s.keySlot 1))
        ∧ (∀ nonce (k : Fin 32) b, j.work = .attest nonce → j.use = some (k.val, b) → u.1 = .ok → e = .slot → Responded s t i id .integrity []
            ∧ (t.keySlot k).mat = none ∧ t.bit R.KEY_EVT_INTEGRITY = true ∧ t.keyState k = 2 ∧ ChildrenGone s t k false
            ∧ (k.val ≤ 3 → FaultTaken s t 7 1 [k])))
  ∧ (∀ (s : State) (us : Fin 20000) (e : KeyEnd) (j x : KeyJob) (js : List KeyJob), s.pwr.mode = .on → s.ready 5 = true →
      s.key.queue = j :: x :: js → j.key ≠ none → (∃ nonce, j.work = .attest nonce) → e ≠ .slot →
      ∃ t, exec (.keyOperationComplete us e []) s = .next t ∧ EngineOk t
        ∧ t.key.queue.map (fun y => (y.use, y.slots, y.who, y.work)) = (x :: js).map (fun y => (y.use, y.slots, y.who, y.work)))
  ∧ (∀ (s : State) (us : Fin 20000) (e : KeyEnd) (a : SealAsk), s.pwr.mode = .on → s.ready 5 = true → s.key.queue = [] →
      ∃ t j, exec (.keyOperationComplete us e [a]) s = .next t ∧ KeysOnly s t ∧ t.out = s.out ∧ t.key.queue = [j] ∧ j.who = none ∧ t.key.slots = s.key.slots
        ∧ (∀ k data, a = .seal k data → j.use = some (k.val, 5) ∧ j.work = .seal data ∧ j.key = some (s.keyUse k 5))
        ∧ ∀ k iv c, a = .unseal k iv c → j.use = some (k.val, 5) ∧ j.work = .unseal iv c ∧ j.key = some (s.keyUse k 5))
  ∧ (∀ (s : State) (us : Fin 20000) (k : Fin 32) (key : List Byte) (j : KeyJob), s.pwr.mode = .on → s.ready 5 = true → s.key.queue = [j] →
      j.use = some (k.val, 5) → j.key = some (.ok, key) →
      (∀ data, j.work = .seal data → s.updState ≠ 2 → s.bit R.UPD_SLOT_TRIAL = false → let n := (s.keySlot k).counter
        ∃ t, exec (.keyOperationComplete us .good []) s = .next t ∧ t.key.queue = []
          ∧ t.upd = { s.upd with blobs := s.upd.blobs ++ [(k.val, leBytes 4 k ++ leBytes 8 n, Config.encrypt key (leBytes 4 k ++ leBytes 8 n) data)] }
          ∧ (t.keySlot k).counter = n + 1 ∧ (t.keySlot k).mat = (s.keySlot k).mat ∧ (∀ q, q ≠ k.val → t.keySlot q = s.keySlot q)
          ∧ t.out = s.out ++ [.sealed k.val .ok s.upd.blobs.length])
      ∧ (∀ iv c, j.work = .unseal iv c → ∃ t, exec (.keyOperationComplete us .good []) s = .next t ∧ KeysOnly s t ∧ t.key.slots = s.key.slots
          ∧ (∀ d, Config.decrypt key iv c = some d → t.out = s.out ++ [.unsealed k.val .ok d])
          ∧ (Config.decrypt key iv c = none → t.out = s.out ++ [.unsealed k.val .integrity []])))
  ∧ (∀ (s : State) (i : Fin 8) (id : Nat) (nonce : List Byte), Fresh s i id 1 false → EngineOk s →
      let can := 4 ≤ s.sessVersion i ∧ s.sessFeature i 3 = true
      ∃ t, exec (.attest i id nonce) s = .next t ∧ KeysOnly s t
        ∧ (¬ can → Responded s t i id .version [] ∧ t.key = s.key)
        ∧ (can → nonce.length < 8 ∨ 64 < nonce.length → Responded s t i id .invalid [] ∧ t.key = s.key)
        ∧ (can → 8 ≤ nonce.length → nonce.length ≤ 64 →
            (s.ready 5 = false → Responded s t i id .notReady [] ∧ t.key = s.key)
            ∧ (s.ready 5 = true → 64 ≤ s.key.queue.length → Responded s t i id .busy [] ∧ t.key = s.key
                ∧ t.fld R.KEY_STAT_BUSY = min (s.fld R.KEY_STAT_BUSY + 1) 65535)
            ∧ (s.ready 5 = true → s.key.queue.length < 64 → Queued s t i id (some (0, 0)) [0] (.attest nonce) ∧ t.key.slots = s.key.slots)))
  ∧ (∀ (s : State) (i : Fin 8) (id : Nat) (body sig : List Byte), Fresh s i id 3 false → EngineOk s →
      ∃ t, exec (.retire i id body sig) s = .next t ∧ KeysOnly s t ∧ t.key.slots = s.key.slots
        ∧ (s.sessVersion i < 4 → Responded s t i id .version [])
        ∧ (4 ≤ s.sessVersion i → s.ready 5 = false → Responded s t i id .notReady [])
        ∧ (4 ≤ s.sessVersion i → s.ready 5 = true → 64 ≤ s.key.queue.length → Responded s t i id .busy [])
        ∧ (4 ≤ s.sessVersion i → s.ready 5 = true → s.key.queue.length < 64 → Queued s t i id (some (2, 1)) [2] (.retire body sig)))

namespace Sys2Proof.Claims

open Machine

/-- Nothing but UPD's state, registers, sessions, records, what was sent and the time inside the frame differs. -/
def UpdOnly (s t : State) : Prop :=
  t = { s with regs := t.regs, upd := t.upd, evr := t.evr, host := t.host, out := t.out, fr := { s.fr with nowUs := t.fr.nowUs } }

/-- Checks 4 to 10 of 18 R408, by their reasons, at module time `ns`. -/
def Blocked (s : State) (ns : Nat) : Nat → Prop
  | 1 => s.bit R.UPD_LOCK_LOCK = true
  | 2 => ((∃ f : Fin 6, s.bit R.DRV_FEEDER_STAT_CLOSED f = true) ∨ ∃ c ∈ s.chansOn, s.chanOut c ns ≠ 0) ∧ s.bit R.UPD_POLICY_ALLOW_NIGHT = false
  | 3 => s.pwr.mode ≠ .on ∨ s.pwr.vaux = false
  | 4 => s.fld R.PWR_STORE_PCT < 80
  | 5 => s.part.meter = true ∧ s.bit R.MET_STAT_OPEN = true
  | 6 => s.switchPos ≠ 0
  | 7 => s.updState = 4 ∨ s.updState = 5
  | _ => False

/-- The first of them that fails is `r`. -/
def FirstBlock (s : State) (ns r : Nat) : Prop := Blocked s ns r ∧ ∀ q, q < r → ¬ Blocked s ns q

/-- None of them fails. -/
def Unblocked (s : State) (ns : Nat) : Prop := ∀ r, ¬ Blocked s ns r

/-- The parts of the inactive slot. -/
def staged (s : State) : List UpdPart := s.slotParts (1 - s.activeSlot)

/-- Staging has ended with a status: IDLE, the inactive slot erased, FAILED set; the active slot as before. -/
def StagingFailed (s t : State) (st : Status) : Prop :=
  t.updState = 0 ∧ staged t = [] ∧ t.upd.manifest = none ∧ t.fld R.UPD_STATE_STATUS = st.code ∧ t.bit R.UPD_EVT_FAILED = true
    ∧ t.activeParts = s.activeParts ∧ t.activeSlot = s.activeSlot

/-- A refusal is shown with its reason; nothing else of UPD changes. -/
def UpdRefused (s t : State) (st : Status) (r : Nat) : Prop :=
  t.upd = s.upd ∧ t.fld R.UPD_STATE_STATUS = st.code ∧ t.fld R.UPD_STATE_REASON = r ∧ t.updState = s.updState

/-- What a write of UPD_CTRL asks for is refused. -/
def CtrlRefused (s t : State) (who : Requester) (r : Nat) : Prop :=
  Answered s t who .refusedState ∧ UpdRefused s t .refusedState r ∧ OnlyRegs s t [R.UPD_STATE_STATE.addr]

/-- The manifest has passed checks 1 and 2 of 18 R408. -/
def Readable (m : Manifest) : Prop := m.format = 1 ∧ State.manifestFormed m = true

/-- The request has its one RESPONSE, after the notifications of UPD_EVT that its refusal brings (19 R432). -/
def Concluded (s t : State) (i : Fin 8) (id : Nat) (st : Status) : Prop :=
  (∃ mid, t.out = s.out ++ mid ++ [.response i id false st []] ∧ ∀ x ∈ mid, ∃ k d, x = .notify k 2 d) ∧ id ∉ (t.sess i).running

end Sys2Proof.Claims

/-- 18 R408 to R410, R413: a manifest meets the checks in their order, its signatures in the engine's turn, and opens staging; a part that matches its
digest is stored, and the last one brings the unlisted parts and must give the stated BMR; any other ends staging; forward sealing makes the set
STAGED; ABORT erases it. The model's own choices that it rests on: log entries 10, 106, 187. -/
def Obligations.UpdateStaging : Prop :=
  (∀ (s : State) (i : Fin 8) (id : Nat) (bs : List Byte), Fresh s i id 3 false → s.updState < 6 → EngineOk s → let m := readManifest bs
      let busy := s.updState = 1 ∨ s.updState = 3
      ∃ t, exec (.manifest i id bs false) s = .next t ∧ UpdOnly { s with key := t.key } t ∧ t.key.slots = s.key.slots
        ∧ (s.sessFeature i 0 = false → Responded s t i id .version [] ∧ t.upd = s.upd)
        ∧ (s.sessFeature i 0 = true → s.ready 10 = false → Responded s t i id .notReady [] ∧ t.upd = s.upd)
        ∧ (s.sessFeature i 0 = true → s.ready 10 = true →
          (busy → Responded s t i id .busy [0] ∧ UpdRefused s t .busy 0)
          ∧ (¬ busy → m.format ≠ 1 → Responded s t i id .version [0] ∧ UpdRefused s t .version 0)
          ∧ (¬ busy → m.format = 1 → State.manifestFormed m = false → Responded s t i id .invalid [0] ∧ UpdRefused s t .invalid 0)
          ∧ (¬ busy → Readable m → 64 ≤ s.key.queue.length → Responded s t i id .busy [0] ∧ UpdRefused s t .busy 0
              ∧ t.fld R.KEY_STAT_BUSY = min (s.fld R.KEY_STAT_BUSY + 1) 65535)
          ∧ (¬ busy → Readable m → s.key.queue.length < 64 → Queued s t i id (some (1, 1)) [1] (.manifest m) ∧ t.upd = s.upd
              ∧ ∀ a, a ≠ R.KEY_STAT_QUEUED.addr → a ≠ R.HOST_SESS_REQ_ID.at i 0 → t.rd a = s.rd a)))
  ∧ (∀ (s : State) (us : Fin 20000) (j : KeyJob) (m : Manifest) (i : Fin 8) (id : Nat) (u : Status × List Byte), s.pwr.mode = .on → s.ready 5 = true →
      s.updState < 6 → s.updState ≠ 1 → s.updState ≠ 3 → s.key.queue = [j] → j.who = some (i.val, id) → j.work = .manifest m → j.key = some u →
      Readable m → s.sessState i = 2 → id ∈ (s.sess i).running → id ∉ (s.sess i).repeated →
      let ns := (s.atUs us).nowNs
      let signed := u.1 = .ok ∧ State.manifestSigned u.2 m = true
      ∃ t, exec (.keyOperationComplete us .good []) s = .next t ∧ UpdOnly { s with key := t.key } t ∧ t.key.queue = []
        ∧ (u.1 = .ok → State.manifestSigned u.2 m = false → Responded s t i id .auth [] ∧ UpdRefused s t .auth 0)
        ∧ (u.1 ≠ .ok → u.1 ≠ .auth → Responded s t i id u.1 [0] ∧ UpdRefused s t u.1 0)
        ∧ (signed → ∀ r, FirstBlock s ns r → Responded s t i id .refusedState [(r : Int)] ∧ UpdRefused s t .refusedState r)
        ∧ (signed → Unblocked s ns → s.manifestServes m = false → Responded s t i id .invalid [0] ∧ UpdRefused s t .invalid 0)
        ∧ (signed → Unblocked s ns → s.manifestServes m = true → s.manifestRange m = false → Responded s t i id .range [0] ∧ UpdRefused s t .range 0)
        ∧ (signed → Unblocked s ns → s.manifestServes m = true → s.manifestRange m = true →
            Responded s t i id .ok [] ∧ t.updState = 1 ∧ t.upd.manifest = some m ∧ t.upd.got = 0 ∧ staged t = [] ∧ t.activeParts = s.activeParts
              ∧ t.fld R.UPD_SEQ_STAGED_SEQ = m.seq % 2 ^ 32 ∧ ∀ k : Fin 6, t.fld R.UPD_PART_STAGED_VERSION k = 0))
  ∧ (∀ (s : State) (i : Fin 8) (id len : Nat) (data : List Byte), Fresh s i id 3 false → s.sessFeature i 0 = true → s.ready 10 = true →
      ∃ t, exec (.part i id len data false) s = .next t ∧ UpdOnly s t
        ∧ (s.updState ≠ 1 → Responded s t i id .refusedState [] ∧ t.upd = s.upd)
        ∧ (s.updState = 1 → len < data.length → Responded s t i id .invalid [] ∧ t.upd = s.upd)
        ∧ (s.updState = 1 → data.length < len → t.out = s.out ∧ t.upd = s.upd ∧ id ∈ (t.sess i).running
            ∧ ∃ x ∈ (t.sess i).streams, x.id = id ∧ x.op = 0x32 ∧ x.len = len ∧ x.bytes = data)
        ∧ (s.updState = 1 → data.length = len → ∀ m p, s.upd.manifest = some m → m.parts[s.upd.got]? = some p →
            let x : UpdPart := ⟨p.kind, p.index, p.version, p.digest, p.hw, data⟩
            let more := s.activeParts.filter (fun q => decide (q.kind ≤ 5) && !m.parts.any (fun e => decide (e.kind = q.kind ∧ e.index = q.index)))
            let set := staged s ++ [x] ++ more
            (len ≠ p.size ∨ Config.sha256 data ≠ p.digest → Concluded s t i id .integrity ∧ StagingFailed s t .integrity)
            ∧ (len = p.size → Config.sha256 data = p.digest →
                (s.upd.got + 1 < m.parts.length → Responded s t i id .ok [] ∧ staged t = staged s ++ [x] ∧ t.upd.got = s.upd.got + 1 ∧ t.updState = 1
                  ∧ t.activeParts = s.activeParts)
                ∧ (m.parts.length ≤ s.upd.got + 1 → State.bmrOf (s.stagesOf set) = m.bmr → Responded s t i id .ok [] ∧ staged t = set ∧ t.updState = 1
                  ∧ t.upd.got = s.upd.got + 1 ∧ t.activeParts = s.activeParts)
                ∧ (m.parts.length ≤ s.upd.got + 1 → State.bmrOf (s.stagesOf set) ≠ m.bmr → Concluded s t i id .invalid ∧ StagingFailed s t .invalid))))
  ∧ (∀ (s : State) (us : Fin 20000) (m : Manifest), s.pwr.mode = .on → s.upd.manifest = some m → s.updState = 1 → s.upd.got = m.parts.length →
      ∃ t, exec (.forwardSealComplete us) s = .next t ∧ t.updState = 2 ∧ t.bit R.UPD_EVT_STAGED = true ∧ t.upd.blobs = s.upd.blobs
        ∧ UpdOnly { s with key := { s.key with slots := t.key.slots } } t ∧ t.upd.slot0 = s.upd.slot0 ∧ t.upd.slot1 = s.upd.slot1
        ∧ t.upd.fwdBlobs.length = s.upd.fwdBlobs.length + s.upd.blobs.length
        ∧ (∀ k, (t.keySlot k).mat = (s.keySlot k).mat ∧ (s.keySlot k).counter ≤ (t.keySlot k).counter)
        ∧ ∀ k iv c, s.upd.blobs = [(k, iv, c)] →
            (∀ key p d, Lends s k 5 key → s.predictedKey m.bmr 33 k = some p → Config.decrypt key iv c = some d →
              let fresh := leBytes 4 k ++ leBytes 8 (s.keySlot k).counter
              t.upd.fwdBlobs = s.upd.fwdBlobs ++ [(k, fresh, Config.encrypt p fresh d)] ∧ (t.keySlot k).counter = (s.keySlot k).counter + 1)
            ∧ ((∀ key, ¬ Lends s k 5 key) ∨ (∃ key, Lends s k 5 key ∧ Config.decrypt key iv c = none) →
              t.upd.fwdBlobs = s.upd.fwdBlobs ++ [(k, iv, c)] ∧ t.fld R.UPD_STAT_SEAL_FAIL = min (s.fld R.UPD_STAT_SEAL_FAIL + 1) 65535))
  ∧ (∀ (s : State) (who : Requester) (us : Fin 20000), WriteAccepted s who us R.UPD_CTRL_ACTIVATE.addr 8 →
      ∃ t, exec (.updAbort who us) s = .next t ∧ UpdOnly s t
        ∧ (s.updState = 1 ∨ s.updState = 2 → t.updState = 0 ∧ staged t = [] ∧ t.upd.manifest = none ∧ t.activeParts = s.activeParts
            ∧ t.fld R.UPD_LAST_OUTCOME = 3 ∧ t.fld R.UPD_LAST_CAUSE = 6 ∧ ∃ mid, t.out = s.out ++ mid ++ [.status who .ok])
        ∧ (s.updState ≠ 1 → s.updState ≠ 2 → CtrlRefused s t who 0))

/-- 18 R411 to R416: ACTIVATE from STAGED alone and only while checks 4 to 10 pass; the pause at the next edge writes the selector and closes every
session; frames resume in TRIAL, or in the old slot after a rollback; CONFIRM, ROLLBACK, the window's end and a pause of 1.2 s end the trial. The
model's own choices that it rests on: log entries 7, 107, 108. -/
def Obligations.UpdateTrial : Prop :=
  (∀ (s : State) (who : Requester) (us : Fin 20000), WriteAccepted s who us R.UPD_CTRL_ACTIVATE.addr 1 →
      ∃ t, exec (.updActivate who us) s = .next t
        ∧ (∀ r, FirstBlock s (s.atUs us).nowNs r → CtrlRefused s t who r)
        ∧ (s.updState ≠ 2 → Unblocked s (s.atUs us).nowNs → CtrlRefused s t who 0)
        ∧ (s.updState = 2 → Unblocked s (s.atUs us).nowNs → UpdOnly s t ∧ Answered s t who .ok ∧ t.updState = 3
            ∧ t.upd = { s.upd with switched := false } ∧ ∀ a, a ≠ R.UPD_STATE_STATE.addr → t.rd a = s.rd a))
  ∧ (∀ (s : State) (who : Requester) (us : Fin 20000), WriteAccepted s who us R.UPD_CTRL_ACTIVATE.addr 2 →
      ∃ t, exec (.updConfirm who us) s = .next t
        ∧ (s.updState ≠ 4 → CtrlRefused s t who 0)
        ∧ (s.updState = 4 → t.updState = 0 ∧ t.bit R.UPD_SLOT_TRIAL = false ∧ t.activeSlot = s.activeSlot
            ∧ t.fld R.UPD_SEQ_CONFIRMED = s.fld R.UPD_SEQ_STAGED_SEQ ∧ t.fld R.UPD_LAST_OUTCOME = 1 ∧ t.fld R.UPD_REMAIN_S = 0
            ∧ (State.selected t.upd).slot = s.activeSlot ∧ (State.selected t.upd).trial = false
            ∧ t.bit R.UPD_EVT_CONFIRMED = true ∧ t.upd.blobs = s.upd.fwdBlobs ∧ t.upd.frozen = none ∧ t.upd.slot0 = s.upd.slot0
            ∧ t.upd.slot1 = s.upd.slot1 ∧ t.fmem = s.fmem ∧ t.images = s.images ∧ t.beads = s.beads))
  ∧ (∀ (s : State) (who : Requester) (us : Fin 20000), WriteAccepted s who us R.UPD_CTRL_ACTIVATE.addr 4 →
      ∃ t, exec (.updRollback who us) s = .next t ∧ (s.updState ≠ 4 → CtrlRefused s t who 0)
        ∧ (s.updState = 4 → UpdOnly s t ∧ Answered s t who .ok ∧ t.updState = 5 ∧ t.upd = { s.upd with rollCause := 1 }))
  ∧ (∀ s : State, s.updState = 4 → Due s s.upd.endNs →
      ∃ t, exec .confirmWindowExpire s = .next t ∧ UpdOnly s t ∧ t.out = s.out ∧ t.updState = 5 ∧ t.upd = { s.upd with rollCause := 2 }
        ∧ t.fld R.UPD_REMAIN_S = 0)
  ∧ (∀ s : State, s.pwr.mode = .on → s.pwr.paused = false → s.fr.phase = .emit → s.flt.step = 0 → s.updState = 3 ∨ s.updState = 5 →
      ∃ t, exec .controlPause s = .next t ∧ t.fr.phase = .stopped ∧ t.pwr.paused = true ∧ t.updState = s.updState ∧ t.ready 11 = false ∧ t.ready 12 = false
        ∧ t.upd.pauseNs = t.fr.edgeNs ∧ s.fr.edgeNs < t.fr.edgeNs ∧ t.bit R.UPD_SLOT_TRIAL = decide (s.updState = 3)
        ∧ (∀ i : Fin 8, t.sessState i = 0 ∨ t.sessState i = 3) ∧ (∀ p : Fin 8, t.fld R.HOST_PEER_STAT_STATE p = 0)
        ∧ (∀ n, (t.bead n).wlog = [] ∧ (t.bead n).olog = []) ∧ t.bar.queue = [] ∧ t.bar.host = []
        ∧ (s.updState = 3 → s.activeSlot ≤ 1 → t.activeSlot = 1 - s.activeSlot ∧ (State.selected t.upd).slot = 1 - s.activeSlot
            ∧ (State.selected t.upd).trial = true ∧ t.upd.frozen ≠ none ∧ t.fld R.UPD_STAT_TRIAL_WRITES = 0)
        ∧ (s.updState = 5 → s.activeSlot ≤ 1 → t.activeSlot = (if s.bit R.UPD_SLOT_TRIAL then 1 - s.activeSlot else s.activeSlot) ∧ t.upd.frozen = none
            ∧ t.upd.fwdBlobs = []))
  ∧ (∀ (s : State) (bad : List (Fin 64 × Fin 20)), s.pwr.mode = .on → s.pwr.paused = true →
      ∃ t, exec (.updateResume bad) s = .next t ∧ t.fr = { s.fr with phase := .emit } ∧ t.pwr = { s.pwr with paused := false }
        ∧ (s.updState = 3 → t.updState = 4 ∧ t.upd.endNs = s.fr.edgeNs + 20000000 + s.fld R.UPD_CONFIRM_WINDOW_MIN * 60000000000
            ∧ t.fld R.UPD_REMAIN_S = s.fld R.UPD_CONFIRM_WINDOW_MIN * 60 ∧ t.bit R.UPD_EVT_TRIAL = true)
        ∧ (s.updState ≠ 3 → t.updState = 0 ∧ t.fld R.UPD_LAST_OUTCOME = 2 ∧ t.fld R.UPD_LAST_CAUSE = s.upd.rollCause % 16
            ∧ t.bit R.UPD_EVT_ROLLED_BACK = true ∧ t.fld R.UPD_SEQ_STAGED_SEQ = 0))
  ∧ (∀ s : State, s.pwr.paused = true → s.updState = 3 → s.bit R.UPD_SLOT_TRIAL = true → s.activeSlot ≤ 1 → Due s (s.upd.pauseNs + 1200000000) →
      ∃ t, exec .updateNoResume s = .next t ∧ t.updState = 5 ∧ t.upd.rollCause = 5 ∧ t.activeSlot = 1 - s.activeSlot
        ∧ t.bit R.UPD_SLOT_TRIAL = false ∧ t.pwr.paused = true ∧ t.upd.frozen = none ∧ t.upd.fwdBlobs = []
        ∧ ∀ z, s.upd.frozen = some z → t.images = z.images
            ∧ (z.f.Pairwise (fun x y => x.1 < y.1) → ∀ a, State.classAByte a = true → SMap.find (State.fDflt a) t.fmem a = SMap.find (State.fDflt a) z.f a))

namespace Sys2Proof.Claims

open Machine

/-- Nothing but sessions, registers of HOST, EVR and the panel, records, the panel's own state, free draws, what was sent and the time inside the
frame differs. -/
def HostOnly (s t : State) : Prop :=
  t = { s with
    regs := t.regs, host := t.host, evr := t.evr, fp := t.fp, free := t.free, out := t.out, fr := { s.fr with nowUs := t.fr.nowUs } }

/-- The other sessions are as before. -/
def OtherSessions (s t : State) (i : Nat) : Prop :=
  ∀ j : Fin 8, j.val ≠ i → t.sess j = s.sess j ∧ t.rd (R.HOST_SESS_STATE.at j 0) = s.rd (R.HOST_SESS_STATE.at j 0)

/-- The certificate chains to the public key of a slot that permits VERIFY (17 R387, 19 R419). -/
def Chains (s : State) (typ k : Nat) (cert sig : List Byte) : Prop :=
  s.fld R.KEY_SLOT_CFG_TYPE k = typ ∧ ∃ m, Lends s k 1 m ∧ Config.sigValid m cert sig = true

/-- KEY[0] signs for the module (17 R387). -/
def Signs (s : State) : Prop := ∃ m, Lends s 0 0 m

/-- A connection has been turned away: one message, and no session is touched. -/
def TurnedAway (s t : State) (conn : Nat) (st : Status) : Prop :=
  HostOnly s t ∧ t.out = s.out ++ [.refusedConn conn st] ∧ t.host.sessions = s.host.sessions

/-- Session `i` is OPEN and its HELLO_ACK has left with a token drawn for it. -/
def Opened (s t : State) (i role version features : Nat) : Prop :=
  HostOnly s t ∧ t.sessState i = 2 ∧ t.sessRole i = role ∧ t.sessVersion i = version ∧ t.fld R.HOST_SESS_FEATURES i = features
    ∧ (t.sess i).token = Config.sessionToken (Config.free s.free) ∧ t.free = s.free + 1
    ∧ t.out = s.out ++ [.helloAck i .ok version features (Config.sessionToken (Config.free s.free)) (s.fld R.HOST_WINDOW_KIB)] ∧ OtherSessions s t i

/-- Nothing but what a session's end reaches differs: beside what `HostOnly` names, whom a queued operation or command answers. -/
def EndOnly (s t : State) : Prop :=
  HostOnly { s with
    key := { s.key with queue := t.key.queue }, seg := { s.seg with leaves := t.seg.leaves }, images := t.images, bar := { s.bar with host := t.bar.host } } t
  ∧ t.key.queue.map (fun j => (j.use, j.slots, j.work, j.key)) = s.key.queue.map (fun j => (j.use, j.slots, j.work, j.key))
  ∧ t.bar.host.map (fun h => (h.session, h.ws)) = s.bar.host.map (fun h => (h.session, h.ws))
  ∧ (s.seg.leaves.Pairwise (fun x y => x.1 < y.1) → ∀ l, cmdList t l = cmdList s l)

/-- Session `i` has ended (19 R426): nothing of it is open; it is RESUMABLE, with its cache, or its slot is closed and empty, and what still runs for it
answers nobody. -/
def Ended (s t : State) (i : Nat) (resumable : Bool) : Prop :=
  t.sessState i = (if resumable = true ∧ i ≠ 7 ∧ s.sessState i = 2 then 3 else 0) ∧ (t.sess i).txn = none ∧ t.bit R.HOST_SESS_TXN_OPEN i = false
    ∧ (t.sess i).streams = [] ∧ (t.sess i).topics = 0 ∧ OtherSessions s t i
    ∧ (t.sessState i = 3 → (t.sess i).cache = (s.sess i).cache ∧ (t.sess i).token = (s.sess i).token ∧ t.sessRole i = s.sessRole i)
    ∧ (t.sessState i = 0 → t.sess i = {} ∧ ∀ j ∈ t.key.queue, j.who.map (fun w => w.1) ≠ some i)
    ∧ ((s.sess i).streams = [] → s.met.waiting = none → EndOnly s t)
    ∧ ((s.sess i).streams = [] → s.met.waiting = none → t.sessState i = 3 → HostOnly s t)
    ∧ (∀ x, (s.sess i).streams = [x] → x.op = 0x32 → s.updState = 1 → t.updState = 0 ∧ t.fld R.UPD_LAST_OUTCOME = 3)
    ∧ (∀ x, (s.sess i).streams = [x] → x.op = 0x30 → ∀ k, s.imgOfRequest i x.id = some k → t.fld R.LTAB_IMG_STATE k = 0)

/-- Only the link of peer `p` differs. -/
def OnlyPeer (s t : State) (p : Fin 8) : Prop :=
  HostOnly s t ∧ t.host.sessions = s.host.sessions ∧ t.evr = s.evr ∧ t.fp = s.fp
    ∧ (∀ q : Fin 8, q ≠ p → t.hostPeer q = s.hostPeer q ∧ t.peerState q = s.peerState q)

end Sys2Proof.Claims

/-- 19 R418 to R421, R423, R425 to R427, R432: a handshake is taken or refused by its cipher suite, its curve and its certificate; HELLO resumes a session, opens one in the lowest free slot
with the agreed version and features, or is turned away; a subscription, a credit and any message are noted; a session ends on a close, an alert,
bytes that are no message, or an idle time, and a network session not closed by its client stays RESUMABLE for 60 s. The model's own choices that it rests on: log entries 7, 9,
109, 110. -/
def Obligations.SessionCommands : Prop :=
  (∀ (s : State) (conn : Nat) (service dtls : Bool) (suite : TlsSuite) (p256 : Bool) (subject : Nat) (role : Fin 5) (cert sig : List Byte)
      (us : Fin 20000), s.hostRuns = true → s.offered service dtls = true →
      let can := suite ≠ .other ∧ p256 = true ∧ Signs s
      let alone := service = true ∧ s.fld R.KEY_LIFECYCLE_STATE = 1
      let chain := (service = true ∧ role.val = 4 ∧ ∃ k : Fin 32, Chains s 7 k cert sig)
        ∨ (service = false ∧ 1 ≤ role.val ∧ role.val ≤ 3 ∧ Chains s 2 2 cert sig)
      let others := s.host.conns.filter (fun x => decide (x.conn ≠ conn))
      ∃ t, exec (.sessionHandshake conn service dtls suite p256 subject role cert sig us) s = .next t ∧ HostOnly s t ∧ t.host.sessions = s.host.sessions
        ∧ (can → alone → t.regs = s.regs ∧ t.out = s.out ∧ t.host.conns = others ++ [⟨conn, service, dtls, 0, 4, true, t.nowNs⟩])
        ∧ (can → ¬ alone → chain → t.regs = s.regs ∧ t.out = s.out ∧ t.host.conns = others ++ [⟨conn, service, dtls, subject, role, false, t.nowNs⟩])
        ∧ (¬ can ∨ (¬ alone ∧ ¬ chain) → t.host = s.host ∧ t.out = s.out ++ [.refusedConn conn .auth] ∧ t.bit R.HOST_EVT_REFUSED = true
            ∧ t.fld R.HOST_CNT_AUTH = min (s.fld R.HOST_CNT_AUTH + 1) 65535))
  ∧ (∀ (s : State) (c : HostConn) (lo hi features window : Nat) (token : Option Nat) (us : Fin 20000), s.hostRuns = true →
      s.host.conns.find? (fun x => decide (x.conn = c.conn)) = some c → c.role ≤ 4 →
      let barred := c.service = true ∧ s.fp.lockNs ≠ none
      let v := if lo ≤ 4 ∧ 4 ≤ hi then 4 else if lo ≤ 3 ∧ 3 ≤ hi then 3 else 0
      let f := features &&& (if v = 4 then 63 else 7)
      ∃ t, exec (.hello c.conn lo hi features window token us) s = .next t ∧ t.host.conns = s.host.conns.filter (fun x => decide (x.conn ≠ c.conn))
        ∧ (barred → TurnedAway s t c.conn .refusedState)
        ∧ (¬ barred → window < 16 ∨ 256 < window → TurnedAway s t c.conn .invalid)
        ∧ (¬ barred → 16 ≤ window → window ≤ 256 →
            (∀ i, (s.atUs us).resumeSlot c token = some i → Opened s t i (s.sessRole i) (s.sessVersion i) (s.fld R.HOST_SESS_FEATURES i)
                ∧ (t.sess i).cache = (s.sess i).cache)
            ∧ ((s.atUs us).resumeSlot c token = none →
                (v = 0 → TurnedAway s t c.conn .version)
                ∧ (v ≠ 0 → c.service = false → (∀ j : Fin 7, s.sessState j ≠ 0) → TurnedAway s t c.conn .noSpace ∧ t.bit R.HOST_EVT_REFUSED = true)
                ∧ (v ≠ 0 → c.service = true → s.sessState 7 ≠ 0 → TurnedAway s t c.conn .noSpace ∧ t.bit R.HOST_EVT_REFUSED = true)
                ∧ (v ≠ 0 → c.service = false → ∀ i : Fin 7, s.sessState i = 0 → (∀ j : Fin 7, j < i → s.sessState j ≠ 0) →
                    Opened s t i c.role v f ∧ (t.sess i).subject = c.subject ∧ (t.sess i).cache = [])
                ∧ (v ≠ 0 → c.service = true → s.sessState 7 = 0 → HostOnly s t ∧ t.sessState 7 = 1 ∧ t.sessRole 7 = 0 ∧ t.sessVersion 7 = v
                    ∧ t.fld R.HOST_SESS_FEATURES 7 = f ∧ t.fld R.FP_STAT_PAGE = 6 ∧ t.fp.entry = some c.atNs ∧ t.out = s.out
                    ∧ (t.sess 7).unowned = c.unowned ∧ OtherSessions s t 7))))
  ∧ (∀ (s : State) (i : Fin 8) (id mask : Nat), Fresh s i id 1 false →
      ∃ t, exec (.subscribe i id mask) s = .next t ∧ HostOnly s t
        ∧ (s.sessFeature i 2 = false → Responded s t i id .version [] ∧ (t.sess i).topics = (s.sess i).topics)
        ∧ (s.sessFeature i 2 = true → Responded s t i id .ok [] ∧ (t.sess i).topics = mask % 16))
  ∧ (∀ (s : State) (i : Fin 8) (id off window : Nat) (us : Fin 20000), s.hostRuns = true → s.sessState i = 2 →
      ∃ t, exec (.credit i id off window us) s = .next t ∧ HostOnly s t ∧ t.regs = s.regs ∧ t.out = s.out ∧ (t.sess i).heardNs = t.nowNs
        ∧ SMap.find 0 (t.sess i).sendLimit id = off + window ∧ (t.sess i).cache = (s.sess i).cache ∧ OtherSessions s t i)
  ∧ (∀ (s : State) (i : Fin 8) (us : Fin 20000), s.sessState i = 1 ∨ s.sessState i = 2 →
      (∃ t, exec (.keepalive i us) s = .next t ∧ HostOnly s t ∧ t.regs = s.regs ∧ t.out = s.out ∧ t.sess i = { s.sess i with heardNs := t.nowNs }
        ∧ OtherSessions s t i)
      ∧ (∃ t, exec (.sessionClose i .client us) s = .next t ∧ Ended s t i false)
      ∧ (∃ t, exec (.sessionClose i .alert us) s = .next t ∧ Ended s t i true)
      ∧ (∀ bs, (readGsp (s.bit R.HOST_SESS_DTLS i) bs = none → ∃ t, exec (.sessionClose i (.message bs) us) s = .next t ∧ Ended s t i true
            ∧ t.out.getLast? = some (.closed i .invalid))
          ∧ (∀ x, readGsp (s.bit R.HOST_SESS_DTLS i) bs = some x → exec (.sessionClose i (.message bs) us) s = exec (.keepalive i us) s))
      ∧ (Due s ((s.sess i).heardNs + s.fld R.HOST_CTRL_IDLE * 1000000000) → ∃ t, exec (.sessionIdleTimeout i) s = .next t ∧ Ended s t i true))
  ∧ (∀ (s : State) (i : Fin 8), s.sessState i = 3 → Due s ((s.sess i).endNs + 60000000000) →
      ∃ t, exec (.resumableExpire i) s = .next t ∧ EndOnly s t ∧ t.out = s.out ∧ t.sessState i = 0 ∧ t.sess i = {} ∧ OtherSessions s t i)
  ∧ (∀ s : State, let now := (s.evr.ops.head, s.evr.sec.head)
      s.hostRuns = true → now ≠ s.host.headSeen → Due s (s.host.headNs + 1000000000) →
      ∃ t, exec .evrHeadNotify s = .next t ∧ HostOnly s t ∧ t.regs = s.regs ∧ t.host.headSeen = now ∧ t.host.headNs = t.nowNs
        ∧ t.out = s.out ++ ((List.range 8).filter (fun i => decide (s.sessState i = 2) && (s.sess i).topics.testBit 3)).map
            (fun i => .notify i 3 [now.1, now.2]))

/-- 19 R433: a peer link is UP after a handshake of the expected serial number with good certificates, kept up by its datagrams, DOWN after 5 s without
one, and tried again every 10 s by the side with the lower serial number. The model's own choices that it rests on: log entry 7. -/
def Obligations.PeerCommands : Prop :=
  (∀ (s : State) (p : Fin 8) (serial : Nat) (good : Bool) (us : Fin 20000), s.hostRuns = true → s.peerEn p = true →
      ∃ t, exec (.peerHandshake p serial good us) s = .next t ∧ OnlyPeer s t p ∧ t.out = s.out
        ∧ (serial ≠ s.peerSerial p → t.peerState p = 0 ∧ t.bit R.HOST_EVT_PEER_ID = true)
        ∧ (serial = s.peerSerial p → t.bit R.HOST_EVT_PEER_ID = s.bit R.HOST_EVT_PEER_ID)
        ∧ (serial = s.peerSerial p → good = false ∨ ¬ Signs s → t.peerState p = 0)
        ∧ (serial = s.peerSerial p → good = true → Signs s → t.peerState p = 2 ∧ (t.hostPeer p).heardNs = t.nowNs)
        ∧ t.fld R.HOST_STAT_PEERS_UP = ((List.range 8).filter (fun q => decide (t.peerState q = 2))).length)
  ∧ (∀ (s : State) (p : Fin 8) (us : Fin 20000), s.peerEn p = true → s.peerState p = 2 →
      (∃ t, exec (.peerKeepalive p true us) s = .next t ∧ OnlyPeer s t p ∧ t.out = s.out ∧ t.regs = s.regs
        ∧ t.hostPeer p = { s.hostPeer p with heardNs := t.nowNs })
      ∧ ∃ t, exec (.peerKeepalive p false us) s = .next t ∧ OnlyPeer s t p ∧ t.regs = s.regs
        ∧ ((s.hostPeer p).aliveNs + 1000000000 ≤ (s.atUs us).nowNs → t.out = s.out ++ [.peerAlive p]
            ∧ t.hostPeer p = { s.hostPeer p with aliveNs := t.nowNs })
        ∧ ((s.atUs us).nowNs < (s.hostPeer p).aliveNs + 1000000000 → t.out = s.out ∧ t.host = s.host))
  ∧ (∀ (s : State) (p : Fin 8), s.peerState p = 2 → Due s ((s.hostPeer p).heardNs + 5000000000) →
      ∃ t, exec (.peerLinkDown p) s = .next t ∧ OnlyPeer s t p ∧ t.out = s.out ∧ t.peerState p = 0 ∧ t.bit R.HOST_EVT_PEER_DOWN = true
        ∧ (t.hostPeer p).tryNs = t.nowNs)
  ∧ (∀ (s : State) (p : Fin 8), s.hostRuns = true → s.peerEn p = true → s.peerState p ≠ 2 → Config.serial < s.peerSerial p →
      Due s ((s.hostPeer p).tryNs + 10000000000) →
      ∃ t, exec (.peerRetry p) s = .next t ∧ OnlyPeer s t p ∧ t.out = s.out ++ [.peerOpen p] ∧ t.peerState p = 1
        ∧ (t.hostPeer p).tryNs = t.nowNs)

namespace Sys2Proof.Claims

open Machine

/-- Nothing but sessions, registers, records, what was sent and the time inside the frame differs; of the registers none but those at `as` and the last
request ID of session `i`; of the sessions none but `i`. -/
def RequestOnly (s t : State) (i : Fin 8) (as : List Nat) : Prop :=
  t = { s with regs := t.regs, host := t.host, evr := t.evr, out := t.out, fr := { s.fr with nowUs := t.fr.nowUs } }
    ∧ (∀ a, a ∉ as → a ≠ R.HOST_SESS_REQ_ID.at i 0 → a / 0x10000 ≠ 0xD → t.rd a = s.rd a)
    ∧ (∀ j : Fin 8, j ≠ i → t.sess j = s.sess j) ∧ (∀ w b, w ≠ .gsp i → t.ownReg w b = s.ownReg w b)

/-- A word that a session reads without an effect: its register latches nothing and has no field that a read clears. -/
def PureRead (s : State) (i : Fin 8) (us : Fin 20000) (a : Nat) : Prop :=
  (s.atUs us).readStatus (.gsp i) a = .ok ∧ State.latches a = [] ∧ (∀ r k j, findReg a = some (r, k, j) → r.has .rclr = false)
    ∧ a ≠ R.HOST_SESS_REQ_ID.at i 0

/-- The registers of the transaction of session `i`. -/
def txnRegs (i : Fin 8) : List Nat := [R.HOST_SESS_TXN_OPEN.at i 0]

/-- No transaction of session `i` is open (19 R428). -/
def NoTxn (t : State) (i : Fin 8) : Prop :=
  (t.sess i).txn = none ∧ t.bit R.HOST_SESS_TXN_OPEN i = false ∧ t.fld R.HOST_SESS_TXN_WORDS i = 0

/-- Handle, code, payload and session of a lantern's waiting commands. -/
def cmdsOf (s : State) (lid : Nat) : List (Nat × Nat × List Byte × Option Nat) :=
  (s.leaf lid).cmds.map (fun c => (c.handle, c.code, c.payload, c.session))

end Sys2Proof.Claims

/-- 19 R424, R428 to R430: REG_READ answers with the words up to the first that is not OK; REG_WRITE performs a word or answers its refusal; TXN_BEGIN
opens the one transaction, whose writes are checked and held, a refusal rolling it back; TXN_COMMIT hands them to the next bar; TXN_ABORT and 60 s
without a request drop them. The model's own choices that it rests on: log entries 7, 111. -/
def Obligations.RegisterRequests : Prop :=
  (∀ (s : State) (i : Fin 8) (id a n : Nat) (us : Fin 20000), Fresh s i id 1 true →
      (n = 0 ∨ 256 < n → ∃ t, exec (.regRead i id a n us) s = .next t ∧ RequestOnly s t i [] ∧ Responded s t i id .range [])
      ∧ (∀ m, 1 ≤ n → n ≤ 256 → m ≤ n → (∀ k, k < m → PureRead s i us (a + 4 * k)) →
          let words := (List.range m).map (fun k => (((s.atUs us).regSeen (.gsp i) (a + 4 * k)).toNat : Int))
          (m = n → ∃ t, exec (.regRead i id a n us) s = .next t ∧ RequestOnly s t i [] ∧ Responded s t i id .ok words)
          ∧ (m < n → (s.atUs us).readStatus (.gsp i) (a + 4 * m) ≠ .ok →
              ∃ t, exec (.regRead i id a n us) s = .next t ∧ RequestOnly s t i []
                ∧ Responded s t i id ((s.atUs us).readStatus (.gsp i) (a + 4 * m)) words)))
  ∧ (∀ (s : State) (i : Fin 8) (id a : Nat) (w : Word) (ws : List Word) (us : Fin 20000), Fresh s i id 1 true → ws.length < 256 →
      (∃ t, exec (.regWrite i id a [] false us) s = .next t ∧ RequestOnly s t i [] ∧ Responded s t i id .range [])
      ∧ (∀ st, (s.atUs us).writeStatus (.gsp i) a w = st → st ≠ .ok →
          ∃ t, exec (.regWrite i id a (w :: ws) false us) s = .next t ∧ RequestOnly s t i [] ∧ Responded s t i id st [0])
      ∧ (∀ r k j, (s.atUs us).writeStatus (.gsp i) a w = .ok → (s.atUs us).unitWrite (.gsp i) a w = none → findReg a = some (r, k, j) →
          State.classAReg a = false →
          ∃ t, exec (.regWrite i id a [w] false us) s = .next t ∧ Responded s t i id .ok [1]
            ∧ (State.regSource a = none → RequestOnly s t i [a])
            ∧ (∀ n, State.regSource a = some n → RequestOnly { s with icu := { s.icu with late := t.icu.late, busyAt := t.icu.busyAt } } t i [a, 0x21008 + 16 * n])
            ∧ ∀ f ∈ r.fields, f.acc = .rw → getBits (t.rd a) f.lo f.width = getBits w f.lo f.width))
  ∧ (∀ (s : State) (i : Fin 8) (id : Nat) (us : Fin 20000), Fresh s i id 2 false →
      let can := s.sessFeature i 1 = true
      (∃ t, exec (.txnBegin i id us) s = .next t ∧ RequestOnly s t i (txnRegs i) ∧ (¬ can → Responded s t i id .version [])
        ∧ (can → (s.sess i).txn ≠ none → Responded s t i id .busy [] ∧ (t.sess i).txn = (s.sess i).txn)
        ∧ (can → (s.sess i).txn = none → Responded s t i id .ok [((s.host.txnNo + 1 : Nat) : Int)] ∧ t.bit R.HOST_SESS_TXN_OPEN i = true
            ∧ (t.sess i).txn = some ⟨s.host.txnNo + 1, [], t.nowNs⟩ ∧ t.fld R.HOST_SESS_TXN_WORDS i = 0))
      ∧ (∃ t, exec (.txnAbort i id us) s = .next t ∧ RequestOnly s t i (txnRegs i) ∧ (¬ can → Responded s t i id .version [])
        ∧ (can → (s.sess i).txn = none → Responded s t i id .refusedState [])
        ∧ (can → (s.sess i).txn ≠ none → Responded s t i id .ok [] ∧ NoTxn t i))
      ∧ (∃ t, exec (.txnCommit i id us) s = .next t
        ∧ (¬ can → RequestOnly s t i [] ∧ Responded s t i id .version [])
        ∧ (can → (s.sess i).txn = none → RequestOnly s t i [] ∧ Responded s t i id .refusedState [])
        ∧ (can → ∀ x, (s.sess i).txn = some x → RequestOnly { s with bar := t.bar } t i (txnRegs i) ∧ NoTxn t i ∧ t.out = s.out
            ∧ id ∈ (t.sess i).running ∧ t.bar = { s.bar with host := s.bar.host ++ [⟨i, some id, x.writes⟩] })))
  ∧ (∀ (s : State) (i : Fin 8) (id a : Nat) (w : Word) (ws : List Word) (us : Fin 20000) (x : HostTxn), Fresh s i id 1 true → s.sessFeature i 1 = true →
      (s.sess i).txn = some x → ws.length < 256 →
      let h := (s.atUs us).heldView i
      let no := fun st => ∃ t, exec (.regWrite i id a (w :: ws) true us) s = .next t ∧ RequestOnly s t i (txnRegs i) ∧ Responded s t i id st [0] ∧ NoTxn t i
      (State.hasWo a = true → h.versionRefused (.gsp i) a w = false → no .invalid)
      ∧ (isRegister a = true → h.versionRefused (.gsp i) a w = true → no .version)
      ∧ (∀ st, State.hasWo a = false → h.writeStatus (.gsp i) a w = st → st ≠ .ok → no st)
      ∧ (State.hasWo a = false → h.writeStatus (.gsp i) a w = .ok → State.perRequester a = false →
          (4096 ≤ x.writes.length → no .noSpace)
          ∧ (x.writes.length < 4096 → ∃ t, exec (.regWrite i id a [w] true us) s = .next t ∧ RequestOnly s t i (txnRegs i) ∧ Responded s t i id .ok [1]
              ∧ (t.sess i).txn = some { x with writes := x.writes ++ [((s.atUs us).heldKey i a, w)], lastNs := t.nowNs }
              ∧ t.fld R.HOST_SESS_TXN_WORDS i = x.writes.length + 1))
      ∧ (State.perRequester a = true → State.hasWo a = false → h.writeStatus (.gsp i) a w = .ok →
          ∃ t, exec (.regWrite i id a [w] true us) s = .next t ∧ RequestOnly s t i [] ∧ Responded s t i id .ok [1]
            ∧ (t.sess i).txn = some { x with lastNs := t.nowNs } ∧ (a = 0x50000 → t.ownReg (.gsp i) a = some (w &&& 127)) ∧ (a = 0xD0200 → t.ownReg (.gsp i) a = some (w &&& 3))
            ∧ (a = 0xD0204 → t.ownReg (.gsp i) a = some w)))
  ∧ (∀ (s : State) (i : Fin 8) (id len : Nat) (data bs : List Byte), Fresh s i id 3 false → s.sessFeature i 0 = true → s.sessFeature i 1 = true →
      let no := fun c => ∃ t, exec c s = .next t ∧ RequestOnly s t i (txnRegs i) ∧ Responded s t i id .invalid [] ∧ NoTxn t i
      no (.imageLoad i id len data true) ∧ no (.manifest i id bs true) ∧ no (.part i id len data true))
  ∧ (∀ (s : State) (i : Fin 8) (x : HostTxn), (s.sess i).txn = some x → Due s (x.lastNs + 60000000000) →
      ∃ t, exec (.txnIdleTimeout i) s = .next t ∧ RequestOnly s t i (txnRegs i) ∧ NoTxn t i ∧ t.out = s.out ∧ (t.sess i).cache = (s.sess i).cache)

/-- 16 R385, 19 R424, R427 and 07 R191: LOG_READ answers with the log's ends and its records from a number on; LANTERN_CMD joins the lantern's queue or
has its refusal in the ring and in the answer; a SEGMENT is taken in its place, kept ahead, ignored beyond the window, and ends the stream beyond
the length; half a window consumed sends a CREDIT. The model's own choices that it rests on: log entries 12, 112, 113. -/
def Obligations.DataRequests : Prop :=
  (∀ (s : State) (i : Fin 8) (id l first n : Nat) (us : Fin 20000), Fresh s i id 1 false →
      let bad := 2 < l ∨ n = 0 ∨ 4096 < n
      let log := s.evrLog l
      let ends := [(log.head : Int), ((log.recs.getLast?.map (fun r => r.seq)).getD 0 : Nat)]
      ∃ t, exec (.logRead i id l first n us) s = .next t ∧ RequestOnly s t i []
        ∧ (s.ready 7 = false → Responded s t i id .notReady [])
        ∧ (s.ready 7 = true → bad → Responded s t i id .range [])
        ∧ (s.ready 7 = true → ¬ bad → l = 1 → s.sessRole i ≠ 3 → s.sessRole i ≠ 4 → Responded s t i id .auth [])
        ∧ (s.ready 7 = true → ¬ bad → l ≠ 1 ∨ s.sessRole i = 3 ∨ s.sessRole i = 4 → t.evr = s.evr ∧ Responded s t i id .ok (ends ++ ends ++
            (((log.recs.filter (fun r => decide (first ≤ r.seq))).reverse).take n).flatMap (fun r => (State.recBytes r).map (fun b => (b.toNat : Int))))))
  ∧ (∀ (s : State) (i : Fin 8) (id lid : Nat) (code : Fin 256) (payload : List Byte) (txn : Bool) (us : Fin 20000), Fresh s i id 2 false →
      let st := if txn then (if s.sessFeature i 1 = true then Status.invalid else .version) else if s.sessVersion i = 3 ∧ 4096 ≤ lid then .version else if s.part.lanterns ≤ lid ∨ 56 < payload.length then .range
        else if recComm s.fmem lid = false then .invalid else .ok
      let k := s.fld R.SEG_CMD_RES_WR_COUNT % 64
      let full := 512 ≤ s.outstanding ∨ 4 ≤ (s.leaf lid).cmds.length
      let no := fun t q => StoresKept s t ∧ Responded s t i id q [] ∧ t.seg.leaves = s.seg.leaves ∧ t.fld R.SEG_CMD_RES_HANDLE k = id % 2 ^ 32
        ∧ t.fld R.SEG_CMD_STAT_STATUS k = q.code ∧ t.fld R.SEG_CMD_RES_WR_COUNT = (s.fld R.SEG_CMD_RES_WR_COUNT + 1) % 2 ^ 32
      ∃ t, exec (.lanternCmd i id lid code payload txn us) s = .next t
        ∧ (st ≠ .ok → RequestOnly s t i (if txn then txnRegs i else []) ∧ Responded s t i id st [])
        ∧ (txn = true → s.sessFeature i 1 = true → NoTxn t i)
        ∧ (st = .ok → State.openCode code = false → no t .invalid)
        ∧ (st = .ok → State.openCode code = true → code.val = 0x20 → s.lapOf lid = 2 → no t .version)
        ∧ (st = .ok → State.openCode code = true → code.val ≠ 0x20 ∨ s.lapOf lid = 3 → full → no t .busy)
        ∧ (st = .ok → State.openCode code = true → code.val ≠ 0x20 ∨ s.lapOf lid = 3 → ¬ full → StoresKept s t ∧ t.out = s.out
            ∧ id ∈ (t.sess i).running ∧ cmdsOf t lid = cmdsOf s lid ++ [(id, code.val, payload, some i.val)] ∧ ∀ q, q ≠ lid → t.leaf q = s.leaf q))
  ∧ (∀ (s : State) (i : Fin 8) (id off : Nat) (data : List Byte) (final : Bool) (us : Fin 20000) (x : HostStream), s.hostRuns = true → s.sessState i = 2 →
      (s.sess i).streams.find? (fun y => decide (y.id = id)) = some x → id ∈ (s.sess i).running → id ∉ (s.sess i).repeated →
      let most := if s.bit R.HOST_SESS_DTLS i = true then 1024 else 16384
      let stop := off + data.length
      let win := s.fld R.HOST_WINDOW_KIB * 1024
      let got := x.bytes.length + data.length
      let now := fun t : State => (t.sess i).streams.find? (fun y => decide (y.id = id))
      let whole := final = true → stop = x.len
      ∃ t, exec (.segment i id off data final us) s = .next t ∧ (t.sess i).heardNs = (s.atUs us).nowNs
        ∧ (x.len < stop ∨ most < data.length ∨ (final = true ∧ stop ≠ x.len) → Concluded s t i id .invalid ∧ now t = none)
        ∧ (stop ≤ x.len → data.length ≤ most → whole → x.granted < stop → RequestOnly s t i [] ∧ t.out = s.out ∧ now t = some x)
        ∧ (stop ≤ x.len → data.length ≤ most → whole → stop ≤ x.granted → x.bytes.length < off → x.ahead = [] → x.bytes.length + win / 2 < x.granted →
            RequestOnly s t i [] ∧ t.out = s.out ∧ now t = some { x with ahead := [(off, data)] })
        ∧ (stop ≤ x.len → data.length ≤ most → whole → stop ≤ x.granted → off = x.bytes.length → x.ahead = [] → got < x.len → data ≠ [] → RequestOnly s t i []
            ∧ (got + win / 2 < x.granted → t.out = s.out ∧ now t = some { x with bytes := x.bytes ++ data })
            ∧ (x.granted ≤ got + win / 2 → t.out = s.out ++ [.credit i id got win]
                ∧ now t = some { x with bytes := x.bytes ++ data, granted := got + win }))
        ∧ (stop = x.len → data.length ≤ most → stop ≤ x.granted → off = x.bytes.length → x.ahead = [] → data ≠ [] → now t = none
            ∧ (x.op = 0x30 → ∀ k, k < 64 → s.imgOfRequest i x.id = some k → t.out = s.out ∧ t.fld R.LTAB_IMG_STATE k = 2 ∧ (t.image k).bytes = x.bytes ++ data)
            ∧ (x.op = 0x32 → s.updState ≠ 1 → RequestOnly s t i [] ∧ Responded s t i id .refusedState [])
            ∧ (x.op = 0x32 → s.updState = 1 → ∀ m p, s.upd.manifest = some m → m.parts[s.upd.got]? = some p →
                x.len ≠ p.size ∨ Config.sha256 (x.bytes ++ data) ≠ p.digest → Concluded s t i id .integrity ∧ StagingFailed s t .integrity)))

namespace Sys2Proof.Claims

open Machine

/-- Nothing but the panel, registers, records, sessions, free draws, what was sent and the time inside the frame differs. -/
def PanelOnly (s t : State) : Prop :=
  t = { s with
    regs := t.regs, fp := t.fp, evr := t.evr, host := t.host, free := t.free, out := t.out, fr := { s.fr with nowUs := t.fr.nowUs } }

/-- What a sample leaves of input `k` (20 R436): a raw value that moves starts its count anew; CHATTER sets above 10 transitions; without CHATTER the state
takes a raw value that has stood for 20 samples; STUCK ends with the state. -/
def Sampled (s t : State) (k : Fin 15) : Prop :=
  let b := (t.fld R.FP_RAW_RAW).testBit k
  let was := (s.fld R.FP_INPUT_STATE).testBit k
  let now := (t.fld R.FP_INPUT_STATE).testBit k
  let x := s.fpInput k
  let y := t.fpInput k
  y.raw = b ∧ y.stable = (if b = x.raw then min 1000 (x.stable + 1) else 0) ∧ y.active = (if now then min 30000 (x.active + 1) else 0)
    ∧ y.trans = (2 * x.trans + (if b = x.raw then 0 else 1)) % 2 ^ 1000
    ∧ y.moves = x.moves + (if b = x.raw then 0 else 1) - (if x.trans.testBit 999 then 1 else 0)
    ∧ y.calm = (if 10 < y.moves then 0 else min 1000 (x.calm + 1))
    ∧ (t.fld R.FP_CHATTER_CHATTER).testBit k = (decide (10 < y.moves) || (s.fld R.FP_CHATTER_CHATTER).testBit k && decide (y.calm < 1000))
    ∧ ((t.fld R.FP_CHATTER_CHATTER).testBit k = false → now = if 20 ≤ y.stable then b else was)
    ∧ ((t.fld R.FP_CHATTER_CHATTER).testBit k = true → now = if y.ones = 500 then was else decide (500 < y.ones))
    ∧ (k.val < 7 → (t.fld R.FP_STUCK_STUCK).testBit k = ((s.fld R.FP_STUCK_STUCK).testBit k && now))
    ∧ (k.val < 6 → now ≠ was → (s.fld R.FP_STUCK_STUCK).testBit k = false → t.bit R.FP_STAT_DISPLAY = true ∧ t.fp.quiet = 0)
    ∧ (11 ≤ k.val → now ≠ was → t.bit R.FP_EVT_DIN = true)
    ∧ (k.val = 7 → now = true → was = false → t.bit R.FP_STAT_DISPLAY = true)

end Sys2Proof.Claims

/-- 20 R435 to R446: a sample debounces every input, finds chatter, reads the switch and the pad against its baseline, and its key events turn the
display on; a key active for 30 s is STUCK; a completed hold starts the lamp test or acknowledges the FAULT LED; the display is refreshed and
blanked; the PIN is set, its entry times out and its lockout ends; a lost cable ends the service session. The model's own choices that it rests on:
log entries 7, 9, 115, 116. -/
def Obligations.PanelCommands : Prop :=
  (∀ (s : State) (us : Fin 20000) (raw : Fin 32768) (pad : Fin 65536), s.pwr.mode = .on → s.ready 6 = true →
      let th := s.fld R.FP_PAD_CFG_THRESH
      let base := if s.fp.started then s.fp.base else pad * 65536
      let touched := decide (base + th * 65536 < pad * 65536)
      ∃ t, exec (.fpSample us raw pad) s = .next t ∧ DataKept s t ∧ t.fp.touched = touched ∧ t.fld R.FP_PAD_RAW_COUNT = pad
        ∧ (touched = true → t.fp.base = base)
        ∧ (touched = false → let x := pad.val * 65536
            let d := (x - base) + (base - x)
            ∃ k, d / 10001 ≤ k ∧ k ≤ d / 9999 + 1 ∧ k ≤ d ∧ t.fp.base = if base ≤ x then base + k else base - k)
        ∧ (∀ k : Fin 11, (t.fld R.FP_RAW_RAW).testBit k = if k.val = 6 then touched else raw.val.testBit k)
        ∧ (∀ k : Fin 4, (t.fld R.FP_RAW_RAW).testBit (11 + k) = (raw.val.testBit (11 + k) != (s.fld R.FP_DIN_POL_INVERT).testBit k))
        ∧ (∀ k : Fin 15, Sampled s t k)
        ∧ (let on := (t.fld R.FP_INPUT_STATE).testBit 9
           let off := (t.fld R.FP_INPUT_STATE).testBit 10
           t.fld R.FP_STAT_SWITCH = (if on then 1 else if off then 2 else 0) ∧ t.bit R.FP_STAT_SW_FAULT = (on && off)))
  ∧ (∀ (s : State) (k : Fin 7), s.pwr.mode = .on → s.ready 6 = true → 30000 ≤ (s.fpInput k).active → (s.fld R.FP_STUCK_STUCK).testBit k = false →
      ∃ t, exec (.keyStuck k) s = .next t ∧ PanelOnly s t ∧ t.fp = s.fp ∧ t.host = s.host ∧ t.out = s.out ∧ t.bit R.FP_EVT_STUCK = true
        ∧ ∀ j : Fin 15, (t.fld R.FP_STUCK_STUCK).testBit j = if j.val = k.val then true else (s.fld R.FP_STUCK_STUCK).testBit j)
  ∧ (∀ (s : State) (n : Nat), s.pwr.mode = .on → s.ready 6 = true → s.fp.held = some n → s.fld R.FP_PAD_CFG_HOLD * 100 ≤ n →
      (s.fld R.FP_STAT_PAGE = 3 → ∃ t, exec .padHoldComplete s = .next t ∧ t = { s with fp := { s.fp with held := none, lampEnd := some (s.nowNs + 10000000000) } })
      ∧ (s.fld R.FP_STAT_PAGE = 4 → ∃ t, exec .padHoldComplete s = .next t ∧ PanelOnly s t ∧ t.fp = { s.fp with held := none } ∧ t.out = s.out
          ∧ t.bit R.ROD_FLT_STAT_UNACK = false ∧ ∀ a, a ≠ R.ROD_FLT_STAT_UNACK.addr → t.rd a = s.rd a))
  ∧ (∀ (s : State) (x : Nat), s.fp.lampEnd = some x → Due s x →
      ∃ t, exec .lampTestEnd s = .next t ∧ PanelOnly s t ∧ t.regs = s.regs ∧ t.out = s.out ∧ t.fp = { s.fp with lampEnd := none })
  ∧ (∀ (s : State) (us : Fin 20000), s.pwr.mode = .on → s.ready 6 = true → s.bit R.FP_STAT_DISPLAY = true →
      s.fp.refreshNs + 200000000 ≤ (s.atUs us).nowNs →
      ∃ t bytes, exec (.displayRefresh us) s = .next t ∧ PanelOnly s t ∧ t.regs = s.regs ∧ t.fp = { s.fp with refreshNs := t.nowNs } ∧ t.out = s.out ++ [.display bytes]
        ∧ bytes.length = 1025 ∧ bytes.head? = some 0x5A)
  ∧ (∀ s : State, s.bit R.FP_STAT_DISPLAY = true → s.fld R.FP_CFG_BLANK * 60000 ≤ s.fp.quiet →
      ∃ t, exec .displayBlank s = .next t ∧ PanelOnly s t ∧ t.fp = s.fp ∧ t.out = s.out ∧ t.bit R.FP_STAT_DISPLAY = false
        ∧ t.fld R.FP_STAT_PAGE = s.fld R.FP_STAT_PAGE ∧ ∀ a, a ≠ R.FP_STAT_DISPLAY.addr → t.rd a = s.rd a)
  ∧ (∀ (s : State) (x : Nat), s.fp.lockNs = some x → Due s x →
      ∃ t, exec .pinLockoutEnd s = .next t ∧ PanelOnly s t ∧ t.out = s.out ∧ t.fp = { s.fp with lockNs := none } ∧ t.bit R.FP_USB_STAT_LOCKOUT = false
        ∧ ∀ a, a ≠ R.FP_USB_STAT_LOCKOUT.addr → t.rd a = s.rd a)
  ∧ (∀ (s : State) (who : Requester) (us : Fin 20000) (v : Word),
      (WriteAccepted s who us R.FP_PIN_SET_PIN.addr v → let salt := leBytes 16 (Config.free s.free)
        ∃ t, exec (.fpPinSet who us v) s = .next t ∧ PanelOnly s t ∧ t.regs = s.regs ∧ Answered s t who .ok ∧ t.free = s.free + 1
          ∧ t.fp = { s.fp with salt := salt, pinHash := Config.sha256 (salt ++ Config.pinBytes (getBits v 0 20)) })
      ∧ (who = .sup → s.pwr.mode = .on → s.ready 6 = true → 999999 < getBits v 0 20 →
        ∃ t, exec (.fpPinSet who us v) s = .next t ∧ OnlyRegs s t [] ∧ Answered s t who .range))
  ∧ (∀ (s : State) (cause : Fin 3) (us : Fin 20000), s.pwr.mode = .on →
      ∃ t, exec (.usbDetach cause us) s = .next t ∧ t.bit R.FP_USB_STAT_CONFIGURED = false ∧ (s.sessState 7 ≠ 3 → t.sessState 7 = 0) ∧ (t.host.conns.all (fun c => !c.service)) = true
        ∧ (cause.val = 0 → t.bit R.FP_USB_STAT_VBUS = false ∧ t.bit R.FP_EVT_USB = true)
        ∧ (cause.val ≠ 0 → t.bit R.FP_USB_STAT_VBUS = s.bit R.FP_USB_STAT_VBUS)
        ∧ (s.sessState 7 = 1 ∨ s.sessState 7 = 2 → t.sess 7 = {} ∧ t.fp.entry = none ∧ t.fld R.FP_STAT_PAGE = 0)
        ∧ OtherSessions s t 7 ∧ DataKept s t)
  ∧ (∀ (s : State) (configured : Bool) (us : Fin 20000), s.pwr.mode = .on →
      ∃ t, exec (.usbAttach configured us) s = .next t ∧ PanelOnly s t ∧ t.fp = s.fp ∧ t.host = s.host ∧ t.out = s.out
        ∧ t.bit R.FP_USB_STAT_VBUS = true ∧ t.bit R.FP_USB_STAT_CONFIGURED = configured
        ∧ t.bit R.FP_EVT_USB = (s.bit R.FP_EVT_USB || !s.bit R.FP_USB_STAT_VBUS))
  ∧ (∀ (s : State) (x : Nat), s.fp.entry = some x → s.sessState 7 = 1 → s.fp.submitted = false → Due s (x + 60000000000) →
      ∃ t, exec .pinEntryTimeout s = .next t ∧ t.sessState 7 = 0 ∧ t.sess 7 = {} ∧ t.fp.entry = none ∧ t.fld R.FP_STAT_PAGE = 0
        ∧ t.out.getLast? = some (.closed 7 .timeout) ∧ OtherSessions s t 7 ∧ DataKept s t)

namespace Sys2Proof.Claims

open Machine

/-- GARNET has been entered with its classes and cause (21 R450, R453, R456, R459): the rods issue nothing, every log that waited is gone, the stores
stand, the power state is QUARTZ, and the third entry within 60 minutes sets HOLD. -/
def Garnet (s t : State) (first second cause : Nat) : Prop :=
  t.flt.step = 1 ∧ t.bit R.ROD_FLT_STAT_GARNET = true ∧ t.bit R.ROD_FLT_EVT_GARNET = true ∧ t.fld R.ROD_FLT_GARNET_FIRST = first % 16
    ∧ t.fld R.ROD_FLT_GARNET_SECOND = second % 16 ∧ t.fld R.ROD_FLT_GARNET_CAUSE = cause ∧ t.fld R.ROD_FLT_GARNET_FRAME_FRAME = s.fr.number % 2 ^ 32
    ∧ t.fld R.ROD_FLT_GARNET_ENTRIES = min (s.fld R.ROD_FLT_GARNET_ENTRIES + 1) 255 ∧ t.bit R.PWR_REQ_AGATE = false ∧ t.bit R.PWR_STAT_STATE = false
    ∧ (∀ r : Fin 16, t.curSlot r = none) ∧ (∀ n, (t.bead n).wlog = [] ∧ (t.bead n).olog = [] ∧ (t.bead n).openB = none)
    ∧ t.bar.queue = [] ∧ t.bar.host = [] ∧ t.fmem = s.fmem ∧ t.imem = s.imem ∧ t.cmem = s.cmem
    ∧ (2 ≤ (s.flt.entries.filter (fun x => decide (t.nowNs < x + 3600000000000))).length → t.bit R.ROD_FLT_STAT_HOLD = true)

/-- A class is raised (21 R449 to R451): recorded in ONYX; in service when none is; queued behind another class; else a double fault, which enters GARNET
unless steps 1 to 5 of an entry run. -/
def FaultRaised (s t : State) (cls count : Nat) (info : List Nat) : Prop :=
  (s.pwr.mode = .onyx → t.flt.cur = s.flt.cur ∧ t.flt.queue = s.flt.queue ∧ t.flt.step = s.flt.step) ∧ FaultTaken s t cls count info
    ∧ (∀ c, s.pwr.mode ≠ .onyx → s.flt.cur = some c →
        let same := c.cls = cls ∨ ∃ q ∈ s.flt.queue, q.cls = cls
        (¬ same → s.flt.queue.length < 4 → t.flt.cur = some c ∧ t.flt.queue = s.flt.queue ++ [⟨cls, count, info⟩] ∧ t.flt.step = s.flt.step
            ∧ t.fld R.ROD_FLT_STAT_QUEUED = s.flt.queue.length + 1 ∧ t.bit R.ROD_FLT_STAT_UNACK = true)
        ∧ (same ∨ 4 ≤ s.flt.queue.length → t.flt.cur = some c ∧ t.flt.queue = s.flt.queue ∧ t.bit R.ROD_FLT_STAT_UNACK = true
            ∧ (1 ≤ s.flt.step → s.flt.step ≤ 5 → t.flt.step = s.flt.step)
            ∧ (s.flt.step = 0 ∨ 6 ≤ s.flt.step → (same → Garnet s t c.cls cls 0) ∧ (¬ same → Garnet s t c.cls cls 1))))

end Sys2Proof.Claims

/-- 21 R448 to R451, R453, R454, R456, R458, R459 and 08 R237: the classes that the hardware raises; 20 ms in service is a double fault; the application
domain is reset after the log flush and rebuilt, but for its rods while HOLD; ACK clears UNACK and RELEASE ends HOLD. The model's own choices that
it rests on: log entries 6, 7, 49, 50. -/
def Obligations.FaultCommands : Prop :=
  (∀ (s : State) (us : Fin 20000) (rail millivolts : Nat),
      ∃ t, exec (.supplyFault us rail millivolts) s = .next t ∧ FaultRaised s t 6 1 [rail, millivolts])
  ∧ (∀ (s : State) (x : Fin 2) (us : Fin 20000), s.trxReady x = true → s.pwr.mode ≠ .onyx → s.pwr.paused = false →
      ∃ t, exec (.radioTimeoutFault x us) s = .next t ∧ FaultRaised s t 8 1 [x.val] ∧ t.ready (11 + x) = false ∧ (s.flt.cur = none → t.tlqOf x = []))
  ∧ (∀ (s : State) (us : Fin 20000) (block : Nat),
      ∃ t, exec (.nandEccFailure us block) s = .next t ∧ FaultRaised s t 9 1 [block] ∧ ∀ b, b ∈ t.pwr.retired ↔ b = block ∨ b ∈ s.pwr.retired)
  ∧ (∀ (s : State) (us : Fin 20000) (above : Bool) (deci : Int),
      ∃ t, exec (.junctionLimit us above deci) s = .next t ∧ t.flt.hot = above
        ∧ (above = true → s.flt.hot = false → FaultRaised s t 5 1 [(deci % 65536).toNat])
        ∧ (above = true → s.flt.hot = true → t = s.atUs us)
        ∧ (above = false → t = { s.atUs us with
              flt := { s.flt with hot := false }, regs := t.regs, icu := { s.icu with late := t.icu.late, busyAt := t.icu.busyAt } }
            ∧ (∀ a, a ≠ R.ICU_LATE_DROP_COUNT.at 7 0 → t.rd a = s.rd a)
            ∧ (s.flt.hot = true → s.bit R.DRV_STAT_THERM_LATCH = false → s.bit R.ICU_SRC_STAT_INSVC 7 = true →
                t.fld R.ICU_LATE_DROP_COUNT 7 = min (s.fld R.ICU_LATE_DROP_COUNT 7 + 1) 65535)))
  ∧ (∀ (s : State) (c : FaultRec), s.flt.cur = some c → s.pwr.mode ≠ .onyx → Due s (s.flt.sinceNs + 20000000) →
      ∃ t, exec .faultServiceTimeout s = .next t ∧ t.flt.cur = some c ∧ (1 ≤ s.flt.step → s.flt.step ≤ 5 → t.flt.step = s.flt.step)
        ∧ (s.flt.step = 0 ∨ 6 ≤ s.flt.step → Garnet s t c.cls c.cls 2))
  ∧ (∀ (s : State) (us : Fin 20000), s.pwr.mode = .on → s.flt.step = 1 →
      ∃ t, exec (.appDomainReset us) s = .next t ∧ t.flt.step = 5 ∧ t.flt.cur = none ∧ t.flt.queue = [] ∧ t.fld R.ROD_FLT_STAT_INSVC = 0
        ∧ t.ready 8 = false ∧ t.ready 9 = false ∧ t.ready 10 = false ∧ t.ready 16 = false ∧ t.bit R.LTAB_STAT_RESTORED = false
        ∧ t.bit R.ROD_FLT_STAT_GARNET = s.bit R.ROD_FLT_STAT_GARNET ∧ t.host = {} ∧ (∀ i : Fin 8, t.sessState i = 0)
        ∧ t.fr.phase = (if s.pwr.paused then .stopped else .emit) ∧ t.rtc = s.rtc ∧ t.ntu = s.ntu ∧ t.isl = s.isl ∧ t.rad = s.rad ∧ t.fp = s.fp
        ∧ (s.garnetMem = true → s.updState ≠ 3 → s.updState ≠ 4 → t.nand.f = s.nand.f)
        ∧ (t.bit R.WCH_PHOTO_CFG_EN = true → t.bit R.WCH_PHOTO_STAT_ARMED = true))
  ∧ (∀ (s : State) (us : Fin 20000), s.pwr.mode = .on → s.flt.step = 5 →
      ∃ t, exec (.garnetRebuild us) s = .next t ∧ t.flt.step = 6 ∧ t.bit R.LTAB_STAT_RESTORED = true
        ∧ t.bit R.ROD_FLT_STAT_HOLD = s.bit R.ROD_FLT_STAT_HOLD
        ∧ (s.bit R.ROD_FLT_STAT_HOLD = false → t.ready 8 = true) ∧ (s.bit R.ROD_FLT_STAT_HOLD = true → t.ready 8 = s.ready 8)
        ∧ (s.updState ≠ 5 → t.fmem = s.nand.f ∧ t.flow.links = s.nand.links ∧ t.flow.bnd = s.nand.bnd ∧ t.flow.tfl = s.nand.tfl))
  ∧ (∀ (s : State) (who : Requester) (us : Fin 20000), WriteAccepted s who us R.ROD_FLT_CTRL_ACK.addr 1 →
      ∃ t, exec (.rodFltAck who us) s = .next t ∧ OnlyRegs s t [R.ROD_FLT_STAT_UNACK.addr] ∧ Answered s t who .ok ∧ t.bit R.ROD_FLT_STAT_UNACK = false
        ∧ t.bit R.ROD_FLT_STAT_GARNET = s.bit R.ROD_FLT_STAT_GARNET ∧ t.fld R.ROD_FLT_STAT_INSVC = s.fld R.ROD_FLT_STAT_INSVC)
  ∧ (∀ (s : State) (who : Requester) (us : Fin 20000), WriteAccepted s who us R.ROD_FLT_CTRL_ACK.addr 2 →
      ∃ t, exec (.rodFltRelease who us) s = .next t
        ∧ (s.bit R.ROD_FLT_STAT_HOLD = false → OnlyRegs s t [] ∧ Answered s t who .refusedState)
        ∧ (s.bit R.ROD_FLT_STAT_HOLD = true → OnlyRegs s t [R.ROD_FLT_STAT_UNACK.addr] ∧ Answered s t who .ok ∧ t.bit R.ROD_FLT_STAT_HOLD = false
            ∧ t.bit R.ROD_FLT_STAT_GARNET = s.bit R.ROD_FLT_STAT_GARNET ∧ t.bit R.ROD_FLT_STAT_UNACK = s.bit R.ROD_FLT_STAT_UNACK))

namespace Sys2Proof.Claims

open Machine

/-- Frames run exactly while the main domain runs on VAUX and no control pause of an update lasts; a bar that VAUX_LOST has met goes on to its end in
ONYX (01 R20, 18 R412). -/
def FramesRun (s : State) : Prop :=
  (s.pwr.mode = .on → s.pwr.paused = false → s.fr.phase ≠ .stopped)
    ∧ (s.fr.phase ≠ .stopped → (s.pwr.mode = .on ∧ s.pwr.paused = false) ∨ (s.pwr.mode = .onyx ∧ s.fr.phase = .bar))

/-- Registers with a reset value other than 0 in their tables, on the part of log entry 1: address and word. -/
def resetWords : List (Nat × Nat) :=
  [(0x0, 0x1105B103), (0x11000, 0xFFFFFF), (0x11008, 100), (0x1100C, 0xFFFFFFFF), (0x11010, 50 * 2 ^ 8), (0x11014, 50 * 2 ^ 16 + 10 * 2 ^ 8),
   (0x30000, 90), (0x30020, 262144), (0x30074, 0xFFFFFFFF), (0x40000, 1), (0x50604, 300 * 2 ^ 16 + 60), (0x50608, 20 * 2 ^ 16 + 30),
   (0x60004, 0x4000), (0x60008, 8), (0x6000C, 0xAB), (0x70000, 1), (0x7000C, 1000000), (0x70018, 100), (0x70020, 37),
   (0x80000, 1), (0x90300, 10 * 2 ^ 8), (0xA0020, 1), (0xB000C, 1), (0xC0004, 1), (0xD0000, 100), (0xE000C, 15), (0xF001C, 5),
   (0x100054, 60 * 2 ^ 16 + 35), (0x110000, 0x7803), (0x110004, 64)]

end Sys2Proof.Claims

/-- The block takes the command at the front of its queue and runs it on the state with the queue's rest; with an empty queue it idles (log entry 7, the
model's choice). -/
def Obligations.StepTakesFront : Prop :=
  (∀ (s : State) (c : Instr) (cs : List Instr), s.pending = c :: cs → step s = exec c { s with pending := cs })
  ∧ ∀ s : State, s.pending = [] → step s = .next s

/-- Before VAUX is valid no frame runs, nothing waits, and the registers read as their tables give them: those of `resetWords`, the ready times, the
unit priorities and the next activations at 0xFFFF_FFFF; the factory has filled KEY[0], KEY[1] and KEY[3] and no other slot (17 R387, R388). The
model's own choices that it rests on: log entries 1, 2, 189. -/
def Obligations.ResetValues : Prop :=
  FramesRun State.reset ∧ State.reset.pwr.mode = .off ∧ State.reset.pending = [] ∧ State.reset.fr.phase = .stopped
    ∧ (∀ e ∈ resetWords, State.reset.rd e.1 = BitVec.ofNat 32 e.2)
    ∧ (∀ n : Fin 18, State.reset.rd (0x100 + 4 * n) = 0xFFFFFFFF ∧ State.reset.ready n = false)
    ∧ (∀ r : Fin 16, State.reset.rd (0x30110 + 32 * r) = 64) ∧ (∀ n : Fin 8, State.reset.rd (0x11100 + 16 * n) = 0xFFFFFF)
    ∧ (∀ f : Fin 6, State.reset.rd (0xA0408 + 16 * f) = 5)
    ∧ (∀ k : Fin 32, (State.reset.keySlot k).winner ≠ none ↔ k.val ∈ [0, 1, 3])

/-- No command stops the block: each answers a next state, and none adds to the queue, takes from it, or makes another part of it. -/
def Obligations.EveryCommandAnswers : Prop :=
  ∀ (c : Instr) (s : State), ∃ t, exec c s = .next t ∧ t.pending = s.pending ∧ t.part = s.part

/-- 01 R20 and 18 R412 over the whole machine: whatever command comes, frames run after it exactly while the main domain is on VAUX outside a control
pause, if they did so before it, but for a bar that VAUX_LOST has met, which goes on to its end. -/
def Obligations.FramesFollowPower : Prop := ∀ s t : State, FramesRun s → step s = .next t → FramesRun t
end

