-- ==== Sys2Proof/Laws/Sparse.lean ====
section
/-! SUPPORT. What the operations on sparse tables do: a read after a write, and that they keep the canonical form. -/

namespace Sys2Proof.Machine

theorem SMap.find_dropWhile_same {β : Type} (d : β) (a : Nat) (t : SMap β) :
    SMap.find d (t.dropWhile (fun e => decide (e.1 ≤ a))) a = d := by
  induction t with
  | nil => rfl
  | cons e t ih =>
    obtain ⟨k, v⟩ := e
    by_cases h : k ≤ a
    · simpa [List.dropWhile, h] using ih
    · have : a < k := by omega
      simp [List.dropWhile, h, SMap.find, this]

theorem SMap.find_dropWhile_above {β : Type} (d : β) (a b : Nat) (hb : a < b) (t : SMap β) :
    SMap.find d (t.dropWhile (fun e => decide (e.1 ≤ a))) b = SMap.find d t b := by
  induction t with
  | nil => rfl
  | cons e t ih =>
    obtain ⟨k, v⟩ := e
    by_cases h : k ≤ a
    · have h1 : ¬ b < k := by omega
      have h2 : ¬ b = k := by omega
      simpa [List.dropWhile, h, SMap.find, h1, h2] using ih
    · simp [List.dropWhile, h]

theorem SMap.find_dropWhile_below {β : Type} (d : β) (a b : Nat) (hb : b < a) (t : SMap β) :
    SMap.find d (t.dropWhile (fun e => decide (e.1 ≤ a))) b = d := by
  induction t with
  | nil => rfl
  | cons e t ih =>
    obtain ⟨k, v⟩ := e
    by_cases h : k ≤ a
    · simpa [List.dropWhile, h] using ih
    · have : b < k := by omega
      simp [List.dropWhile, h, SMap.find, this]

/-- A look-up gives the default or something that the map lists. -/
theorem SMap.find_mem {β : Type} (d : β) (m : SMap β) (k : Nat) : SMap.find d m k = d ∨ (k, SMap.find d m k) ∈ m := by
  induction m with
  | nil => exact .inl rfl
  | cons e m ih =>
    rw [SMap.find]
    split
    · exact .inl rfl
    · split
      · rename_i h
        exact .inr (by simp [h])
      · exact ih.imp_right (List.mem_cons_of_mem _)

/-- A read after a write at the same key gives the value written. -/
@[simp] theorem SMap.find_set_same {β : Type} [DecidableEq β] (d : β) (m : SMap β) (a : Nat) (v : β) :
    SMap.find d (SMap.set d m a v) a = v := by
  induction m with
  | nil => by_cases h : v = d <;> simp [SMap.set, SMap.find, h]
  | cons e t ih =>
    obtain ⟨k, w⟩ := e
    by_cases h1 : a < k
    · by_cases h : v = d <;> simp [SMap.set, SMap.find, h1, h]
    · by_cases h2 : a = k
      · subst h2
        by_cases h : v = d
        · subst h; simp [SMap.set, SMap.find_dropWhile_same]
        · simp [SMap.set, SMap.find, h]
      · simp [SMap.set, SMap.find, h1, h2, ih]

/-- A write leaves every other key alone. -/
theorem SMap.find_set_ne {β : Type} [DecidableEq β] (d d' : β) (m : SMap β) (a b : Nat) (v : β) (hne : b ≠ a) :
    SMap.find d (SMap.set d' m a v) b = SMap.find d m b := by
  induction m with
  | nil =>
    by_cases h : v = d'
    · simp [SMap.set, h]
    · by_cases h1 : b < a <;> simp [SMap.set, SMap.find, h, h1, hne]
  | cons e t ih =>
    obtain ⟨k, w⟩ := e
    by_cases h1 : a < k
    · by_cases h : v = d'
      · simp [SMap.set, h1, h]
      · by_cases h3 : b < a
        · have h4 : b < k := by omega
          simp [SMap.set, SMap.find, h1, h, h3, h4]
        · simp [SMap.set, SMap.find, h1, h, h3, hne]
    · by_cases h2 : a = k
      · subst h2
        by_cases h : v = d'
        · by_cases h3 : b < a
          · simp [SMap.set, h, SMap.find, h3, SMap.find_dropWhile_below d a b h3]
          · have h4 : a < b := by omega
            simp [SMap.set, h, SMap.find, h3, hne, SMap.find_dropWhile_above d a b h4]
        · by_cases h3 : b < a <;> simp [SMap.set, SMap.find, h, h3, hne]
      · by_cases h3 : b < k
        · simp [SMap.set, SMap.find, h1, h2, h3]
        · by_cases h4 : b = k <;> simp [SMap.set, SMap.find, h1, h2, h3, h4, ih]

theorem SMap.wfAbove_mono {β : Type} [DecidableEq β] (dflt : Nat → β) (lo lo' : Nat) (hl : lo' ≤ lo) (m : SMap β) :
    SMap.wfAbove dflt lo m = true → SMap.wfAbove dflt lo' m = true := by
  cases m with
  | nil => simp [SMap.wfAbove]
  | cons e t =>
    obtain ⟨k, v⟩ := e
    simp only [SMap.wfAbove, Bool.and_eq_true, decide_eq_true_eq]
    rintro ⟨⟨h1, h2⟩, h3⟩
    exact ⟨⟨by omega, h2⟩, h3⟩

theorem SMap.wfAbove_dropWhile {β : Type} [DecidableEq β] (dflt : Nat → β) (lo a : Nat) (m : SMap β)
    (h : SMap.wfAbove dflt lo m = true) :
    SMap.wfAbove dflt lo (m.dropWhile (fun e => decide (e.1 ≤ a))) = true := by
  induction m generalizing lo with
  | nil => simp [SMap.wfAbove]
  | cons e t ih =>
    obtain ⟨k, v⟩ := e
    by_cases hk : k ≤ a
    · simp only [List.dropWhile, hk, decide_true]
      simp only [SMap.wfAbove, Bool.and_eq_true, decide_eq_true_eq] at h
      exact ih lo (SMap.wfAbove_mono dflt (k + 1) lo (by omega) t h.2)
    · simpa [List.dropWhile, hk] using h

theorem SMap.wfAbove_set {β : Type} [DecidableEq β] (dflt : Nat → β) (lo : Nat) (m : SMap β) (a : Nat) (v : β)
    (hlo : lo ≤ a) (h : SMap.wfAbove dflt lo m = true) :
    SMap.wfAbove dflt lo (SMap.set (dflt a) m a v) = true := by
  induction m generalizing lo with
  | nil =>
    by_cases hv : v = dflt a
    · simp [SMap.set, hv, SMap.wfAbove]
    · simp [SMap.set, hv, SMap.wfAbove, hlo]
  | cons e t ih =>
    obtain ⟨k, w⟩ := e
    have h' := h
    simp only [SMap.wfAbove, Bool.and_eq_true, decide_eq_true_eq] at h'
    obtain ⟨⟨hk, hw⟩, ht⟩ := h'
    by_cases h1 : a < k
    · by_cases hv : v = dflt a
      · simpa [SMap.set, h1, hv] using h
      · have hk' : a + 1 ≤ k := by omega
        simp [SMap.set, h1, hv, SMap.wfAbove, hlo, hk', hw, ht]
    · by_cases h2 : a = k
      · subst h2
        by_cases hv : v = dflt a
        · simp only [SMap.set, hv, if_true, Nat.lt_irrefl, if_false]
          exact SMap.wfAbove_dropWhile dflt lo a t (SMap.wfAbove_mono dflt (a + 1) lo (by omega) t ht)
        · simp [SMap.set, hv, SMap.wfAbove, hlo, ht]
      · have := ih (k + 1) (by omega) ht
        simp [SMap.set, h1, h2, SMap.wfAbove, hk, hw, this]

/-- A write keeps the canonical form. -/
theorem SMap.wf_set {β : Type} [DecidableEq β] (dflt : Nat → β) (m : SMap β) (a : Nat) (v : β)
    (h : SMap.wf dflt m = true) : SMap.wf dflt (SMap.set (dflt a) m a v) = true :=
  SMap.wfAbove_set dflt 0 m a v (Nat.zero_le a) h

/-- Writing a run of keys keeps the canonical form. -/
theorem SMap.wf_setRun {β : Type} [DecidableEq β] (dflt : Nat → β) (vs : List β) :
    ∀ (m : SMap β) (a : Nat), SMap.wf dflt m = true → SMap.wf dflt (SMap.setRun dflt m a vs) = true := by
  induction vs with
  | nil => intro m a h; exact h
  | cons v vs ih => intro m a h; exact ih _ _ (SMap.wf_set dflt m a v h)

theorem SMap.wfAbove_filter {β : Type} [DecidableEq β] (dflt : Nat → β) (p : Nat × β → Bool) (lo : Nat) (m : SMap β)
    (h : SMap.wfAbove dflt lo m = true) : SMap.wfAbove dflt lo (m.filter p) = true := by
  induction m generalizing lo with
  | nil => simp [SMap.wfAbove]
  | cons e t ih =>
    obtain ⟨k, v⟩ := e
    simp only [SMap.wfAbove, Bool.and_eq_true, decide_eq_true_eq] at h
    obtain ⟨⟨h1, h2⟩, h3⟩ := h
    by_cases hp : p (k, v) = true
    · simp [List.filter, hp, SMap.wfAbove, h1, h2, ih (k + 1) h3]
    · simp only [List.filter, hp]
      exact ih lo (SMap.wfAbove_mono dflt (k + 1) lo (by omega) t h3)

/-- Clearing a range of keys keeps the canonical form. -/
theorem SMap.wf_clear {β : Type} [DecidableEq β] (dflt : Nat → β) (m : SMap β) (lo hi : Nat)
    (h : SMap.wf dflt m = true) : SMap.wf dflt (SMap.clear m lo hi) = true :=
  SMap.wfAbove_filter dflt _ 0 m h

end Sys2Proof.Machine
end

