-- ==== Sys2Proof/Laws/Regs.lean ====
section
/-! SUPPORT. Reading a register field back after a write: the same field gives the value written, a field apart from it keeps
its value. -/

namespace Sys2Proof.Machine

theorem testBit_getBits (w : Word) (lo width i : Nat) :
    (getBits w lo width).testBit i = (decide (i < width) && w.getLsbD (lo + i)) := by
  simp [getBits, Nat.testBit_mod_two_pow, BitVec.getLsbD]

theorem getLsbD_putBits (w : Word) (lo width v i : Nat) (h : lo + width ≤ 32) :
    (putBits w lo width v).getLsbD i = if lo ≤ i ∧ i < lo + width then v.testBit (i - lo) else w.getLsbD i := by
  unfold putBits
  simp only [BitVec.getLsbD_or, BitVec.getLsbD_and, BitVec.getLsbD_not, BitVec.getLsbD_ofNat, Nat.testBit_mul_two_pow,
    Nat.testBit_two_pow_sub_one, Nat.testBit_mod_two_pow]
  by_cases h1 : lo ≤ i
  · by_cases h2 : i < lo + width
    · have h3 : i < 32 := by omega
      have h4 : i - lo < width := by omega
      simp [h1, h2, h3, h4]
    · have h4 : ¬ i - lo < width := by omega
      simp only [h1, h2, h4, decide_true, decide_false, Bool.and_false, Bool.false_and, Bool.or_false, Bool.not_false, and_false,
        if_false, true_and]
      by_cases h5 : i < 32
      · simp [h5]
      · simp [h5, BitVec.getLsbD_of_ge w i (by omega)]
  · simp only [h1, decide_false, Bool.false_and, Bool.and_false, Bool.or_false, Bool.not_false, false_and, if_false]
    have h5 : i < 32 := by omega
    simp [h5]

theorem getBits_putBits_same (w : Word) (lo width v : Nat) (h : lo + width ≤ 32) :
    getBits (putBits w lo width v) lo width = v % 2 ^ width := by
  apply Nat.eq_of_testBit_eq
  intro i
  rw [testBit_getBits, getLsbD_putBits _ _ _ _ _ h, Nat.testBit_mod_two_pow]
  by_cases hi : i < width <;> simp [hi]

theorem getBits_putBits_ne (w : Word) (lo width v lo' width' : Nat) (hw : lo + width ≤ 32)
    (h : lo + width ≤ lo' ∨ lo' + width' ≤ lo) : getBits (putBits w lo width v) lo' width' = getBits w lo' width' := by
  apply Nat.eq_of_testBit_eq
  intro i
  rw [testBit_getBits, testBit_getBits, getLsbD_putBits _ _ _ _ _ hw]
  by_cases hi : i < width'
  · have h2 : ¬ (lo ≤ lo' + i ∧ lo' + i < lo + width) := by omega
    simp [h2]
  · simp [hi]

/-- Two fields share no bit. -/
def Fld.apart (f : Fld) (i j : Nat) (g : Fld) (k l : Nat) : Prop :=
  f.at i j ≠ g.at k l ∨ f.lo + f.width ≤ g.lo ∨ g.lo + g.width ≤ f.lo

namespace State

@[simp] theorem rd_wr_same (s : State) (a : Nat) (w : Word) : (s.wr a w).rd a = w := SMap.find_set_same _ _ _ _

theorem rd_wr_ne (s : State) (a b : Nat) (w : Word) (h : b ≠ a) : (s.wr a w).rd b = s.rd b := SMap.find_set_ne _ _ _ _ _ _ h

theorem rd_wr (s : State) (a b : Nat) (w : Word) : (s.wr a w).rd b = if b = a then w else s.rd b := by
  by_cases h : b = a
  · simp [h]
  · simp [h, rd_wr_ne]

theorem rd_setFld_ne (s : State) (f : Fld) (v i j a : Nat) (h : a ≠ f.at i j) : (s.setFld f v i j).rd a = s.rd a :=
  rd_wr_ne _ _ _ _ h

theorem fld_setFld_same (s : State) (f : Fld) (v i j : Nat) (h : f.lo + f.width ≤ 32) :
    (s.setFld f v i j).fld f i j = v % 2 ^ f.width := by
  simp [setFld, fld, getBits_putBits_same _ _ _ _ h]

theorem fld_setFld_apart (s : State) (f : Fld) (v i j : Nat) (g : Fld) (k l : Nat) (hw : f.lo + f.width ≤ 32)
    (h : f.apart i j g k l) :
    (s.setFld f v i j).fld g k l = s.fld g k l := by
  unfold setFld fld
  rw [rd_wr]
  by_cases he : g.at k l = f.at i j
  · rcases h with h | h
    · exact absurd he.symm h
    · simp [he, getBits_putBits_ne _ _ _ _ _ _ hw h]
  · simp [he]

theorem bit_setBit_same (s : State) (f : Fld) (b : Bool) (i j : Nat) (hw : 0 < f.width) (h : f.lo + f.width ≤ 32) :
    (s.setBit f b i j).bit f i j = b := by
  unfold bit setBit
  rw [fld_setFld_same _ _ _ _ _ h]
  have h2 : 1 < 2 ^ f.width := Nat.one_lt_two_pow (by omega)
  cases b <;> simp [Nat.mod_eq_of_lt h2]

/-- Reading a register looks at the register file and the part alone. -/
theorem rd_congr {s t : State} (h : t.regs = s.regs) (hp : t.part = s.part) (a : Nat) : t.rd a = s.rd a := by
  simp [rd, h, hp]

theorem fld_congr {s t : State} (h : t.regs = s.regs) (hp : t.part = s.part) (f : Fld) (i j : Nat) : t.fld f i j = s.fld f i j := by
  simp [fld, rd_congr h hp]

end State

end Sys2Proof.Machine
end

