-- ==== Sys2Proof/Laws/State.lean ====
section
/-! SUPPORT. What each basic update leaves of every field of the state, one lemma a field, and what is read of registers after it. -/

namespace Sys2Proof.Machine

namespace State

@[simp] theorem part_wr (s : State) (a : Nat) (w : Word) : (s.wr a w).part = s.part := rfl
@[simp] theorem pending_wr (s : State) (a : Nat) (w : Word) : (s.wr a w).pending = s.pending := rfl
@[simp] theorem fmem_wr (s : State) (a : Nat) (w : Word) : (s.wr a w).fmem = s.fmem := rfl
@[simp] theorem ftwin_wr (s : State) (a : Nat) (w : Word) : (s.wr a w).ftwin = s.ftwin := rfl
@[simp] theorem imem_wr (s : State) (a : Nat) (w : Word) : (s.wr a w).imem = s.imem := rfl
@[simp] theorem cmem_wr (s : State) (a : Nat) (w : Word) : (s.wr a w).cmem = s.cmem := rfl
@[simp] theorem fr_wr (s : State) (a : Nat) (w : Word) : (s.wr a w).fr = s.fr := rfl
@[simp] theorem beads_wr (s : State) (a : Nat) (w : Word) : (s.wr a w).beads = s.beads := rfl
@[simp] theorem rods_wr (s : State) (a : Nat) (w : Word) : (s.wr a w).rods = s.rods := rfl
@[simp] theorem bar_wr (s : State) (a : Nat) (w : Word) : (s.wr a w).bar = s.bar := rfl
@[simp] theorem port_wr (s : State) (a : Nat) (w : Word) : (s.wr a w).port = s.port := rfl
@[simp] theorem icu_wr (s : State) (a : Nat) (w : Word) : (s.wr a w).icu = s.icu := rfl
@[simp] theorem evr_wr (s : State) (a : Nat) (w : Word) : (s.wr a w).evr = s.evr := rfl
@[simp] theorem flt_wr (s : State) (a : Nat) (w : Word) : (s.wr a w).flt = s.flt := rfl
@[simp] theorem flow_wr (s : State) (a : Nat) (w : Word) : (s.wr a w).flow = s.flow := rfl
@[simp] theorem images_wr (s : State) (a : Nat) (w : Word) : (s.wr a w).images = s.images := rfl
@[simp] theorem drv_wr (s : State) (a : Nat) (w : Word) : (s.wr a w).drv = s.drv := rfl
@[simp] theorem lce_wr (s : State) (a : Nat) (w : Word) : (s.wr a w).lce = s.lce := rfl
@[simp] theorem rad_wr (s : State) (a : Nat) (w : Word) : (s.wr a w).rad = s.rad := rfl
@[simp] theorem links_wr (s : State) (a : Nat) (w : Word) : (s.wr a w).links = s.links := rfl
@[simp] theorem seg_wr (s : State) (a : Nat) (w : Word) : (s.wr a w).seg = s.seg := rfl
@[simp] theorem pwr_wr (s : State) (a : Nat) (w : Word) : (s.wr a w).pwr = s.pwr := rfl
@[simp] theorem wch_wr (s : State) (a : Nat) (w : Word) : (s.wr a w).wch = s.wch := rfl
@[simp] theorem nand_wr (s : State) (a : Nat) (w : Word) : (s.wr a w).nand = s.nand := rfl
@[simp] theorem rtc_wr (s : State) (a : Nat) (w : Word) : (s.wr a w).rtc = s.rtc := rfl
@[simp] theorem ntu_wr (s : State) (a : Nat) (w : Word) : (s.wr a w).ntu = s.ntu := rfl
@[simp] theorem key_wr (s : State) (a : Nat) (w : Word) : (s.wr a w).key = s.key := rfl
@[simp] theorem isl_wr (s : State) (a : Nat) (w : Word) : (s.wr a w).isl = s.isl := rfl
@[simp] theorem met_wr (s : State) (a : Nat) (w : Word) : (s.wr a w).met = s.met := rfl
@[simp] theorem upd_wr (s : State) (a : Nat) (w : Word) : (s.wr a w).upd = s.upd := rfl
@[simp] theorem host_wr (s : State) (a : Nat) (w : Word) : (s.wr a w).host = s.host := rfl
@[simp] theorem fp_wr (s : State) (a : Nat) (w : Word) : (s.wr a w).fp = s.fp := rfl
@[simp] theorem out_wr (s : State) (a : Nat) (w : Word) : (s.wr a w).out = s.out := rfl
@[simp] theorem free_wr (s : State) (a : Nat) (w : Word) : (s.wr a w).free = s.free := rfl

@[simp] theorem part_setFld (s : State) (f : Fld) (v i j : Nat) : (s.setFld f v i j).part = s.part := rfl
@[simp] theorem pending_setFld (s : State) (f : Fld) (v i j : Nat) : (s.setFld f v i j).pending = s.pending := rfl
@[simp] theorem fmem_setFld (s : State) (f : Fld) (v i j : Nat) : (s.setFld f v i j).fmem = s.fmem := rfl
@[simp] theorem ftwin_setFld (s : State) (f : Fld) (v i j : Nat) : (s.setFld f v i j).ftwin = s.ftwin := rfl
@[simp] theorem imem_setFld (s : State) (f : Fld) (v i j : Nat) : (s.setFld f v i j).imem = s.imem := rfl
@[simp] theorem cmem_setFld (s : State) (f : Fld) (v i j : Nat) : (s.setFld f v i j).cmem = s.cmem := rfl
@[simp] theorem fr_setFld (s : State) (f : Fld) (v i j : Nat) : (s.setFld f v i j).fr = s.fr := rfl
@[simp] theorem beads_setFld (s : State) (f : Fld) (v i j : Nat) : (s.setFld f v i j).beads = s.beads := rfl
@[simp] theorem rods_setFld (s : State) (f : Fld) (v i j : Nat) : (s.setFld f v i j).rods = s.rods := rfl
@[simp] theorem bar_setFld (s : State) (f : Fld) (v i j : Nat) : (s.setFld f v i j).bar = s.bar := rfl
@[simp] theorem port_setFld (s : State) (f : Fld) (v i j : Nat) : (s.setFld f v i j).port = s.port := rfl
@[simp] theorem icu_setFld (s : State) (f : Fld) (v i j : Nat) : (s.setFld f v i j).icu = s.icu := rfl
@[simp] theorem evr_setFld (s : State) (f : Fld) (v i j : Nat) : (s.setFld f v i j).evr = s.evr := rfl
@[simp] theorem flt_setFld (s : State) (f : Fld) (v i j : Nat) : (s.setFld f v i j).flt = s.flt := rfl
@[simp] theorem flow_setFld (s : State) (f : Fld) (v i j : Nat) : (s.setFld f v i j).flow = s.flow := rfl
@[simp] theorem images_setFld (s : State) (f : Fld) (v i j : Nat) : (s.setFld f v i j).images = s.images := rfl
@[simp] theorem drv_setFld (s : State) (f : Fld) (v i j : Nat) : (s.setFld f v i j).drv = s.drv := rfl
@[simp] theorem lce_setFld (s : State) (f : Fld) (v i j : Nat) : (s.setFld f v i j).lce = s.lce := rfl
@[simp] theorem rad_setFld (s : State) (f : Fld) (v i j : Nat) : (s.setFld f v i j).rad = s.rad := rfl
@[simp] theorem links_setFld (s : State) (f : Fld) (v i j : Nat) : (s.setFld f v i j).links = s.links := rfl
@[simp] theorem seg_setFld (s : State) (f : Fld) (v i j : Nat) : (s.setFld f v i j).seg = s.seg := rfl
@[simp] theorem pwr_setFld (s : State) (f : Fld) (v i j : Nat) : (s.setFld f v i j).pwr = s.pwr := rfl
@[simp] theorem wch_setFld (s : State) (f : Fld) (v i j : Nat) : (s.setFld f v i j).wch = s.wch := rfl
@[simp] theorem nand_setFld (s : State) (f : Fld) (v i j : Nat) : (s.setFld f v i j).nand = s.nand := rfl
@[simp] theorem rtc_setFld (s : State) (f : Fld) (v i j : Nat) : (s.setFld f v i j).rtc = s.rtc := rfl
@[simp] theorem ntu_setFld (s : State) (f : Fld) (v i j : Nat) : (s.setFld f v i j).ntu = s.ntu := rfl
@[simp] theorem key_setFld (s : State) (f : Fld) (v i j : Nat) : (s.setFld f v i j).key = s.key := rfl
@[simp] theorem isl_setFld (s : State) (f : Fld) (v i j : Nat) : (s.setFld f v i j).isl = s.isl := rfl
@[simp] theorem met_setFld (s : State) (f : Fld) (v i j : Nat) : (s.setFld f v i j).met = s.met := rfl
@[simp] theorem upd_setFld (s : State) (f : Fld) (v i j : Nat) : (s.setFld f v i j).upd = s.upd := rfl
@[simp] theorem host_setFld (s : State) (f : Fld) (v i j : Nat) : (s.setFld f v i j).host = s.host := rfl
@[simp] theorem fp_setFld (s : State) (f : Fld) (v i j : Nat) : (s.setFld f v i j).fp = s.fp := rfl
@[simp] theorem out_setFld (s : State) (f : Fld) (v i j : Nat) : (s.setFld f v i j).out = s.out := rfl
@[simp] theorem free_setFld (s : State) (f : Fld) (v i j : Nat) : (s.setFld f v i j).free = s.free := rfl

@[simp] theorem part_setBit (s : State) (f : Fld) (v : Bool) (i j : Nat) : (s.setBit f v i j).part = s.part := rfl
@[simp] theorem pending_setBit (s : State) (f : Fld) (v : Bool) (i j : Nat) : (s.setBit f v i j).pending = s.pending := rfl
@[simp] theorem fmem_setBit (s : State) (f : Fld) (v : Bool) (i j : Nat) : (s.setBit f v i j).fmem = s.fmem := rfl
@[simp] theorem ftwin_setBit (s : State) (f : Fld) (v : Bool) (i j : Nat) : (s.setBit f v i j).ftwin = s.ftwin := rfl
@[simp] theorem imem_setBit (s : State) (f : Fld) (v : Bool) (i j : Nat) : (s.setBit f v i j).imem = s.imem := rfl
@[simp] theorem cmem_setBit (s : State) (f : Fld) (v : Bool) (i j : Nat) : (s.setBit f v i j).cmem = s.cmem := rfl
@[simp] theorem fr_setBit (s : State) (f : Fld) (v : Bool) (i j : Nat) : (s.setBit f v i j).fr = s.fr := rfl
@[simp] theorem beads_setBit (s : State) (f : Fld) (v : Bool) (i j : Nat) : (s.setBit f v i j).beads = s.beads := rfl
@[simp] theorem rods_setBit (s : State) (f : Fld) (v : Bool) (i j : Nat) : (s.setBit f v i j).rods = s.rods := rfl
@[simp] theorem bar_setBit (s : State) (f : Fld) (v : Bool) (i j : Nat) : (s.setBit f v i j).bar = s.bar := rfl
@[simp] theorem port_setBit (s : State) (f : Fld) (v : Bool) (i j : Nat) : (s.setBit f v i j).port = s.port := rfl
@[simp] theorem icu_setBit (s : State) (f : Fld) (v : Bool) (i j : Nat) : (s.setBit f v i j).icu = s.icu := rfl
@[simp] theorem evr_setBit (s : State) (f : Fld) (v : Bool) (i j : Nat) : (s.setBit f v i j).evr = s.evr := rfl
@[simp] theorem flt_setBit (s : State) (f : Fld) (v : Bool) (i j : Nat) : (s.setBit f v i j).flt = s.flt := rfl
@[simp] theorem flow_setBit (s : State) (f : Fld) (v : Bool) (i j : Nat) : (s.setBit f v i j).flow = s.flow := rfl
@[simp] theorem images_setBit (s : State) (f : Fld) (v : Bool) (i j : Nat) : (s.setBit f v i j).images = s.images := rfl
@[simp] theorem drv_setBit (s : State) (f : Fld) (v : Bool) (i j : Nat) : (s.setBit f v i j).drv = s.drv := rfl
@[simp] theorem lce_setBit (s : State) (f : Fld) (v : Bool) (i j : Nat) : (s.setBit f v i j).lce = s.lce := rfl
@[simp] theorem rad_setBit (s : State) (f : Fld) (v : Bool) (i j : Nat) : (s.setBit f v i j).rad = s.rad := rfl
@[simp] theorem links_setBit (s : State) (f : Fld) (v : Bool) (i j : Nat) : (s.setBit f v i j).links = s.links := rfl
@[simp] theorem seg_setBit (s : State) (f : Fld) (v : Bool) (i j : Nat) : (s.setBit f v i j).seg = s.seg := rfl
@[simp] theorem pwr_setBit (s : State) (f : Fld) (v : Bool) (i j : Nat) : (s.setBit f v i j).pwr = s.pwr := rfl
@[simp] theorem wch_setBit (s : State) (f : Fld) (v : Bool) (i j : Nat) : (s.setBit f v i j).wch = s.wch := rfl
@[simp] theorem nand_setBit (s : State) (f : Fld) (v : Bool) (i j : Nat) : (s.setBit f v i j).nand = s.nand := rfl
@[simp] theorem rtc_setBit (s : State) (f : Fld) (v : Bool) (i j : Nat) : (s.setBit f v i j).rtc = s.rtc := rfl
@[simp] theorem ntu_setBit (s : State) (f : Fld) (v : Bool) (i j : Nat) : (s.setBit f v i j).ntu = s.ntu := rfl
@[simp] theorem key_setBit (s : State) (f : Fld) (v : Bool) (i j : Nat) : (s.setBit f v i j).key = s.key := rfl
@[simp] theorem isl_setBit (s : State) (f : Fld) (v : Bool) (i j : Nat) : (s.setBit f v i j).isl = s.isl := rfl
@[simp] theorem met_setBit (s : State) (f : Fld) (v : Bool) (i j : Nat) : (s.setBit f v i j).met = s.met := rfl
@[simp] theorem upd_setBit (s : State) (f : Fld) (v : Bool) (i j : Nat) : (s.setBit f v i j).upd = s.upd := rfl
@[simp] theorem host_setBit (s : State) (f : Fld) (v : Bool) (i j : Nat) : (s.setBit f v i j).host = s.host := rfl
@[simp] theorem fp_setBit (s : State) (f : Fld) (v : Bool) (i j : Nat) : (s.setBit f v i j).fp = s.fp := rfl
@[simp] theorem out_setBit (s : State) (f : Fld) (v : Bool) (i j : Nat) : (s.setBit f v i j).out = s.out := rfl
@[simp] theorem free_setBit (s : State) (f : Fld) (v : Bool) (i j : Nat) : (s.setBit f v i j).free = s.free := rfl

@[simp] theorem part_setFldI (s : State) (f : Fld) (v : Int) (i j : Nat) : (s.setFldI f v i j).part = s.part := rfl
@[simp] theorem pending_setFldI (s : State) (f : Fld) (v : Int) (i j : Nat) : (s.setFldI f v i j).pending = s.pending := rfl
@[simp] theorem fmem_setFldI (s : State) (f : Fld) (v : Int) (i j : Nat) : (s.setFldI f v i j).fmem = s.fmem := rfl
@[simp] theorem ftwin_setFldI (s : State) (f : Fld) (v : Int) (i j : Nat) : (s.setFldI f v i j).ftwin = s.ftwin := rfl
@[simp] theorem imem_setFldI (s : State) (f : Fld) (v : Int) (i j : Nat) : (s.setFldI f v i j).imem = s.imem := rfl
@[simp] theorem cmem_setFldI (s : State) (f : Fld) (v : Int) (i j : Nat) : (s.setFldI f v i j).cmem = s.cmem := rfl
@[simp] theorem fr_setFldI (s : State) (f : Fld) (v : Int) (i j : Nat) : (s.setFldI f v i j).fr = s.fr := rfl
@[simp] theorem beads_setFldI (s : State) (f : Fld) (v : Int) (i j : Nat) : (s.setFldI f v i j).beads = s.beads := rfl
@[simp] theorem rods_setFldI (s : State) (f : Fld) (v : Int) (i j : Nat) : (s.setFldI f v i j).rods = s.rods := rfl
@[simp] theorem bar_setFldI (s : State) (f : Fld) (v : Int) (i j : Nat) : (s.setFldI f v i j).bar = s.bar := rfl
@[simp] theorem port_setFldI (s : State) (f : Fld) (v : Int) (i j : Nat) : (s.setFldI f v i j).port = s.port := rfl
@[simp] theorem icu_setFldI (s : State) (f : Fld) (v : Int) (i j : Nat) : (s.setFldI f v i j).icu = s.icu := rfl
@[simp] theorem evr_setFldI (s : State) (f : Fld) (v : Int) (i j : Nat) : (s.setFldI f v i j).evr = s.evr := rfl
@[simp] theorem flt_setFldI (s : State) (f : Fld) (v : Int) (i j : Nat) : (s.setFldI f v i j).flt = s.flt := rfl
@[simp] theorem flow_setFldI (s : State) (f : Fld) (v : Int) (i j : Nat) : (s.setFldI f v i j).flow = s.flow := rfl
@[simp] theorem images_setFldI (s : State) (f : Fld) (v : Int) (i j : Nat) : (s.setFldI f v i j).images = s.images := rfl
@[simp] theorem drv_setFldI (s : State) (f : Fld) (v : Int) (i j : Nat) : (s.setFldI f v i j).drv = s.drv := rfl
@[simp] theorem lce_setFldI (s : State) (f : Fld) (v : Int) (i j : Nat) : (s.setFldI f v i j).lce = s.lce := rfl
@[simp] theorem rad_setFldI (s : State) (f : Fld) (v : Int) (i j : Nat) : (s.setFldI f v i j).rad = s.rad := rfl
@[simp] theorem links_setFldI (s : State) (f : Fld) (v : Int) (i j : Nat) : (s.setFldI f v i j).links = s.links := rfl
@[simp] theorem seg_setFldI (s : State) (f : Fld) (v : Int) (i j : Nat) : (s.setFldI f v i j).seg = s.seg := rfl
@[simp] theorem pwr_setFldI (s : State) (f : Fld) (v : Int) (i j : Nat) : (s.setFldI f v i j).pwr = s.pwr := rfl
@[simp] theorem wch_setFldI (s : State) (f : Fld) (v : Int) (i j : Nat) : (s.setFldI f v i j).wch = s.wch := rfl
@[simp] theorem nand_setFldI (s : State) (f : Fld) (v : Int) (i j : Nat) : (s.setFldI f v i j).nand = s.nand := rfl
@[simp] theorem rtc_setFldI (s : State) (f : Fld) (v : Int) (i j : Nat) : (s.setFldI f v i j).rtc = s.rtc := rfl
@[simp] theorem ntu_setFldI (s : State) (f : Fld) (v : Int) (i j : Nat) : (s.setFldI f v i j).ntu = s.ntu := rfl
@[simp] theorem key_setFldI (s : State) (f : Fld) (v : Int) (i j : Nat) : (s.setFldI f v i j).key = s.key := rfl
@[simp] theorem isl_setFldI (s : State) (f : Fld) (v : Int) (i j : Nat) : (s.setFldI f v i j).isl = s.isl := rfl
@[simp] theorem met_setFldI (s : State) (f : Fld) (v : Int) (i j : Nat) : (s.setFldI f v i j).met = s.met := rfl
@[simp] theorem upd_setFldI (s : State) (f : Fld) (v : Int) (i j : Nat) : (s.setFldI f v i j).upd = s.upd := rfl
@[simp] theorem host_setFldI (s : State) (f : Fld) (v : Int) (i j : Nat) : (s.setFldI f v i j).host = s.host := rfl
@[simp] theorem fp_setFldI (s : State) (f : Fld) (v : Int) (i j : Nat) : (s.setFldI f v i j).fp = s.fp := rfl
@[simp] theorem out_setFldI (s : State) (f : Fld) (v : Int) (i j : Nat) : (s.setFldI f v i j).out = s.out := rfl
@[simp] theorem free_setFldI (s : State) (f : Fld) (v : Int) (i j : Nat) : (s.setFldI f v i j).free = s.free := rfl

@[simp] theorem part_addSat (s : State) (f : Fld) (n i j : Nat) : (s.addSat f n i j).part = s.part := rfl
@[simp] theorem pending_addSat (s : State) (f : Fld) (n i j : Nat) : (s.addSat f n i j).pending = s.pending := rfl
@[simp] theorem fmem_addSat (s : State) (f : Fld) (n i j : Nat) : (s.addSat f n i j).fmem = s.fmem := rfl
@[simp] theorem ftwin_addSat (s : State) (f : Fld) (n i j : Nat) : (s.addSat f n i j).ftwin = s.ftwin := rfl
@[simp] theorem imem_addSat (s : State) (f : Fld) (n i j : Nat) : (s.addSat f n i j).imem = s.imem := rfl
@[simp] theorem cmem_addSat (s : State) (f : Fld) (n i j : Nat) : (s.addSat f n i j).cmem = s.cmem := rfl
@[simp] theorem fr_addSat (s : State) (f : Fld) (n i j : Nat) : (s.addSat f n i j).fr = s.fr := rfl
@[simp] theorem beads_addSat (s : State) (f : Fld) (n i j : Nat) : (s.addSat f n i j).beads = s.beads := rfl
@[simp] theorem rods_addSat (s : State) (f : Fld) (n i j : Nat) : (s.addSat f n i j).rods = s.rods := rfl
@[simp] theorem bar_addSat (s : State) (f : Fld) (n i j : Nat) : (s.addSat f n i j).bar = s.bar := rfl
@[simp] theorem port_addSat (s : State) (f : Fld) (n i j : Nat) : (s.addSat f n i j).port = s.port := rfl
@[simp] theorem icu_addSat (s : State) (f : Fld) (n i j : Nat) : (s.addSat f n i j).icu = s.icu := rfl
@[simp] theorem evr_addSat (s : State) (f : Fld) (n i j : Nat) : (s.addSat f n i j).evr = s.evr := rfl
@[simp] theorem flt_addSat (s : State) (f : Fld) (n i j : Nat) : (s.addSat f n i j).flt = s.flt := rfl
@[simp] theorem flow_addSat (s : State) (f : Fld) (n i j : Nat) : (s.addSat f n i j).flow = s.flow := rfl
@[simp] theorem images_addSat (s : State) (f : Fld) (n i j : Nat) : (s.addSat f n i j).images = s.images := rfl
@[simp] theorem drv_addSat (s : State) (f : Fld) (n i j : Nat) : (s.addSat f n i j).drv = s.drv := rfl
@[simp] theorem lce_addSat (s : State) (f : Fld) (n i j : Nat) : (s.addSat f n i j).lce = s.lce := rfl
@[simp] theorem rad_addSat (s : State) (f : Fld) (n i j : Nat) : (s.addSat f n i j).rad = s.rad := rfl
@[simp] theorem links_addSat (s : State) (f : Fld) (n i j : Nat) : (s.addSat f n i j).links = s.links := rfl
@[simp] theorem seg_addSat (s : State) (f : Fld) (n i j : Nat) : (s.addSat f n i j).seg = s.seg := rfl
@[simp] theorem pwr_addSat (s : State) (f : Fld) (n i j : Nat) : (s.addSat f n i j).pwr = s.pwr := rfl
@[simp] theorem wch_addSat (s : State) (f : Fld) (n i j : Nat) : (s.addSat f n i j).wch = s.wch := rfl
@[simp] theorem nand_addSat (s : State) (f : Fld) (n i j : Nat) : (s.addSat f n i j).nand = s.nand := rfl
@[simp] theorem rtc_addSat (s : State) (f : Fld) (n i j : Nat) : (s.addSat f n i j).rtc = s.rtc := rfl
@[simp] theorem ntu_addSat (s : State) (f : Fld) (n i j : Nat) : (s.addSat f n i j).ntu = s.ntu := rfl
@[simp] theorem key_addSat (s : State) (f : Fld) (n i j : Nat) : (s.addSat f n i j).key = s.key := rfl
@[simp] theorem isl_addSat (s : State) (f : Fld) (n i j : Nat) : (s.addSat f n i j).isl = s.isl := rfl
@[simp] theorem met_addSat (s : State) (f : Fld) (n i j : Nat) : (s.addSat f n i j).met = s.met := rfl
@[simp] theorem upd_addSat (s : State) (f : Fld) (n i j : Nat) : (s.addSat f n i j).upd = s.upd := rfl
@[simp] theorem host_addSat (s : State) (f : Fld) (n i j : Nat) : (s.addSat f n i j).host = s.host := rfl
@[simp] theorem fp_addSat (s : State) (f : Fld) (n i j : Nat) : (s.addSat f n i j).fp = s.fp := rfl
@[simp] theorem out_addSat (s : State) (f : Fld) (n i j : Nat) : (s.addSat f n i j).out = s.out := rfl
@[simp] theorem free_addSat (s : State) (f : Fld) (n i j : Nat) : (s.addSat f n i j).free = s.free := rfl

@[simp] theorem part_addWrap (s : State) (f : Fld) (n i j : Nat) : (s.addWrap f n i j).part = s.part := rfl
@[simp] theorem pending_addWrap (s : State) (f : Fld) (n i j : Nat) : (s.addWrap f n i j).pending = s.pending := rfl
@[simp] theorem fmem_addWrap (s : State) (f : Fld) (n i j : Nat) : (s.addWrap f n i j).fmem = s.fmem := rfl
@[simp] theorem ftwin_addWrap (s : State) (f : Fld) (n i j : Nat) : (s.addWrap f n i j).ftwin = s.ftwin := rfl
@[simp] theorem imem_addWrap (s : State) (f : Fld) (n i j : Nat) : (s.addWrap f n i j).imem = s.imem := rfl
@[simp] theorem cmem_addWrap (s : State) (f : Fld) (n i j : Nat) : (s.addWrap f n i j).cmem = s.cmem := rfl
@[simp] theorem fr_addWrap (s : State) (f : Fld) (n i j : Nat) : (s.addWrap f n i j).fr = s.fr := rfl
@[simp] theorem beads_addWrap (s : State) (f : Fld) (n i j : Nat) : (s.addWrap f n i j).beads = s.beads := rfl
@[simp] theorem rods_addWrap (s : State) (f : Fld) (n i j : Nat) : (s.addWrap f n i j).rods = s.rods := rfl
@[simp] theorem bar_addWrap (s : State) (f : Fld) (n i j : Nat) : (s.addWrap f n i j).bar = s.bar := rfl
@[simp] theorem port_addWrap (s : State) (f : Fld) (n i j : Nat) : (s.addWrap f n i j).port = s.port := rfl
@[simp] theorem icu_addWrap (s : State) (f : Fld) (n i j : Nat) : (s.addWrap f n i j).icu = s.icu := rfl
@[simp] theorem evr_addWrap (s : State) (f : Fld) (n i j : Nat) : (s.addWrap f n i j).evr = s.evr := rfl
@[simp] theorem flt_addWrap (s : State) (f : Fld) (n i j : Nat) : (s.addWrap f n i j).flt = s.flt := rfl
@[simp] theorem flow_addWrap (s : State) (f : Fld) (n i j : Nat) : (s.addWrap f n i j).flow = s.flow := rfl
@[simp] theorem images_addWrap (s : State) (f : Fld) (n i j : Nat) : (s.addWrap f n i j).images = s.images := rfl
@[simp] theorem drv_addWrap (s : State) (f : Fld) (n i j : Nat) : (s.addWrap f n i j).drv = s.drv := rfl
@[simp] theorem lce_addWrap (s : State) (f : Fld) (n i j : Nat) : (s.addWrap f n i j).lce = s.lce := rfl
@[simp] theorem rad_addWrap (s : State) (f : Fld) (n i j : Nat) : (s.addWrap f n i j).rad = s.rad := rfl
@[simp] theorem links_addWrap (s : State) (f : Fld) (n i j : Nat) : (s.addWrap f n i j).links = s.links := rfl
@[simp] theorem seg_addWrap (s : State) (f : Fld) (n i j : Nat) : (s.addWrap f n i j).seg = s.seg := rfl
@[simp] theorem pwr_addWrap (s : State) (f : Fld) (n i j : Nat) : (s.addWrap f n i j).pwr = s.pwr := rfl
@[simp] theorem wch_addWrap (s : State) (f : Fld) (n i j : Nat) : (s.addWrap f n i j).wch = s.wch := rfl
@[simp] theorem nand_addWrap (s : State) (f : Fld) (n i j : Nat) : (s.addWrap f n i j).nand = s.nand := rfl
@[simp] theorem rtc_addWrap (s : State) (f : Fld) (n i j : Nat) : (s.addWrap f n i j).rtc = s.rtc := rfl
@[simp] theorem ntu_addWrap (s : State) (f : Fld) (n i j : Nat) : (s.addWrap f n i j).ntu = s.ntu := rfl
@[simp] theorem key_addWrap (s : State) (f : Fld) (n i j : Nat) : (s.addWrap f n i j).key = s.key := rfl
@[simp] theorem isl_addWrap (s : State) (f : Fld) (n i j : Nat) : (s.addWrap f n i j).isl = s.isl := rfl
@[simp] theorem met_addWrap (s : State) (f : Fld) (n i j : Nat) : (s.addWrap f n i j).met = s.met := rfl
@[simp] theorem upd_addWrap (s : State) (f : Fld) (n i j : Nat) : (s.addWrap f n i j).upd = s.upd := rfl
@[simp] theorem host_addWrap (s : State) (f : Fld) (n i j : Nat) : (s.addWrap f n i j).host = s.host := rfl
@[simp] theorem fp_addWrap (s : State) (f : Fld) (n i j : Nat) : (s.addWrap f n i j).fp = s.fp := rfl
@[simp] theorem out_addWrap (s : State) (f : Fld) (n i j : Nat) : (s.addWrap f n i j).out = s.out := rfl
@[simp] theorem free_addWrap (s : State) (f : Fld) (n i j : Nat) : (s.addWrap f n i j).free = s.free := rfl

@[simp] theorem part_setReady (s : State) (n : Nat) : (s.setReady n).part = s.part := rfl
@[simp] theorem pending_setReady (s : State) (n : Nat) : (s.setReady n).pending = s.pending := rfl
@[simp] theorem fmem_setReady (s : State) (n : Nat) : (s.setReady n).fmem = s.fmem := rfl
@[simp] theorem ftwin_setReady (s : State) (n : Nat) : (s.setReady n).ftwin = s.ftwin := rfl
@[simp] theorem imem_setReady (s : State) (n : Nat) : (s.setReady n).imem = s.imem := rfl
@[simp] theorem cmem_setReady (s : State) (n : Nat) : (s.setReady n).cmem = s.cmem := rfl
@[simp] theorem fr_setReady (s : State) (n : Nat) : (s.setReady n).fr = s.fr := rfl
@[simp] theorem beads_setReady (s : State) (n : Nat) : (s.setReady n).beads = s.beads := rfl
@[simp] theorem rods_setReady (s : State) (n : Nat) : (s.setReady n).rods = s.rods := rfl
@[simp] theorem bar_setReady (s : State) (n : Nat) : (s.setReady n).bar = s.bar := rfl
@[simp] theorem port_setReady (s : State) (n : Nat) : (s.setReady n).port = s.port := rfl
@[simp] theorem icu_setReady (s : State) (n : Nat) : (s.setReady n).icu = s.icu := rfl
@[simp] theorem evr_setReady (s : State) (n : Nat) : (s.setReady n).evr = s.evr := rfl
@[simp] theorem flt_setReady (s : State) (n : Nat) : (s.setReady n).flt = s.flt := rfl
@[simp] theorem flow_setReady (s : State) (n : Nat) : (s.setReady n).flow = s.flow := rfl
@[simp] theorem images_setReady (s : State) (n : Nat) : (s.setReady n).images = s.images := rfl
@[simp] theorem drv_setReady (s : State) (n : Nat) : (s.setReady n).drv = s.drv := rfl
@[simp] theorem lce_setReady (s : State) (n : Nat) : (s.setReady n).lce = s.lce := rfl
@[simp] theorem rad_setReady (s : State) (n : Nat) : (s.setReady n).rad = s.rad := rfl
@[simp] theorem links_setReady (s : State) (n : Nat) : (s.setReady n).links = s.links := rfl
@[simp] theorem seg_setReady (s : State) (n : Nat) : (s.setReady n).seg = s.seg := rfl
@[simp] theorem pwr_setReady (s : State) (n : Nat) : (s.setReady n).pwr = s.pwr := rfl
@[simp] theorem wch_setReady (s : State) (n : Nat) : (s.setReady n).wch = s.wch := rfl
@[simp] theorem nand_setReady (s : State) (n : Nat) : (s.setReady n).nand = s.nand := rfl
@[simp] theorem rtc_setReady (s : State) (n : Nat) : (s.setReady n).rtc = s.rtc := rfl
@[simp] theorem ntu_setReady (s : State) (n : Nat) : (s.setReady n).ntu = s.ntu := rfl
@[simp] theorem key_setReady (s : State) (n : Nat) : (s.setReady n).key = s.key := rfl
@[simp] theorem isl_setReady (s : State) (n : Nat) : (s.setReady n).isl = s.isl := rfl
@[simp] theorem met_setReady (s : State) (n : Nat) : (s.setReady n).met = s.met := rfl
@[simp] theorem upd_setReady (s : State) (n : Nat) : (s.setReady n).upd = s.upd := rfl
@[simp] theorem host_setReady (s : State) (n : Nat) : (s.setReady n).host = s.host := rfl
@[simp] theorem fp_setReady (s : State) (n : Nat) : (s.setReady n).fp = s.fp := rfl
@[simp] theorem out_setReady (s : State) (n : Nat) : (s.setReady n).out = s.out := rfl
@[simp] theorem free_setReady (s : State) (n : Nat) : (s.setReady n).free = s.free := rfl

@[simp] theorem part_clearReady (s : State) (n : Nat) : (s.clearReady n).part = s.part := rfl
@[simp] theorem pending_clearReady (s : State) (n : Nat) : (s.clearReady n).pending = s.pending := rfl
@[simp] theorem fmem_clearReady (s : State) (n : Nat) : (s.clearReady n).fmem = s.fmem := rfl
@[simp] theorem ftwin_clearReady (s : State) (n : Nat) : (s.clearReady n).ftwin = s.ftwin := rfl
@[simp] theorem imem_clearReady (s : State) (n : Nat) : (s.clearReady n).imem = s.imem := rfl
@[simp] theorem cmem_clearReady (s : State) (n : Nat) : (s.clearReady n).cmem = s.cmem := rfl
@[simp] theorem fr_clearReady (s : State) (n : Nat) : (s.clearReady n).fr = s.fr := rfl
@[simp] theorem beads_clearReady (s : State) (n : Nat) : (s.clearReady n).beads = s.beads := rfl
@[simp] theorem rods_clearReady (s : State) (n : Nat) : (s.clearReady n).rods = s.rods := rfl
@[simp] theorem bar_clearReady (s : State) (n : Nat) : (s.clearReady n).bar = s.bar := rfl
@[simp] theorem port_clearReady (s : State) (n : Nat) : (s.clearReady n).port = s.port := rfl
@[simp] theorem icu_clearReady (s : State) (n : Nat) : (s.clearReady n).icu = s.icu := rfl
@[simp] theorem evr_clearReady (s : State) (n : Nat) : (s.clearReady n).evr = s.evr := rfl
@[simp] theorem flt_clearReady (s : State) (n : Nat) : (s.clearReady n).flt = s.flt := rfl
@[simp] theorem flow_clearReady (s : State) (n : Nat) : (s.clearReady n).flow = s.flow := rfl
@[simp] theorem images_clearReady (s : State) (n : Nat) : (s.clearReady n).images = s.images := rfl
@[simp] theorem drv_clearReady (s : State) (n : Nat) : (s.clearReady n).drv = s.drv := rfl
@[simp] theorem lce_clearReady (s : State) (n : Nat) : (s.clearReady n).lce = s.lce := rfl
@[simp] theorem rad_clearReady (s : State) (n : Nat) : (s.clearReady n).rad = s.rad := rfl
@[simp] theorem links_clearReady (s : State) (n : Nat) : (s.clearReady n).links = s.links := rfl
@[simp] theorem seg_clearReady (s : State) (n : Nat) : (s.clearReady n).seg = s.seg := rfl
@[simp] theorem pwr_clearReady (s : State) (n : Nat) : (s.clearReady n).pwr = s.pwr := rfl
@[simp] theorem wch_clearReady (s : State) (n : Nat) : (s.clearReady n).wch = s.wch := rfl
@[simp] theorem nand_clearReady (s : State) (n : Nat) : (s.clearReady n).nand = s.nand := rfl
@[simp] theorem rtc_clearReady (s : State) (n : Nat) : (s.clearReady n).rtc = s.rtc := rfl
@[simp] theorem ntu_clearReady (s : State) (n : Nat) : (s.clearReady n).ntu = s.ntu := rfl
@[simp] theorem key_clearReady (s : State) (n : Nat) : (s.clearReady n).key = s.key := rfl
@[simp] theorem isl_clearReady (s : State) (n : Nat) : (s.clearReady n).isl = s.isl := rfl
@[simp] theorem met_clearReady (s : State) (n : Nat) : (s.clearReady n).met = s.met := rfl
@[simp] theorem upd_clearReady (s : State) (n : Nat) : (s.clearReady n).upd = s.upd := rfl
@[simp] theorem host_clearReady (s : State) (n : Nat) : (s.clearReady n).host = s.host := rfl
@[simp] theorem fp_clearReady (s : State) (n : Nat) : (s.clearReady n).fp = s.fp := rfl
@[simp] theorem out_clearReady (s : State) (n : Nat) : (s.clearReady n).out = s.out := rfl
@[simp] theorem free_clearReady (s : State) (n : Nat) : (s.clearReady n).free = s.free := rfl

@[simp] theorem part_emit (s : State) (o : Output) : (s.emit o).part = s.part := rfl
@[simp] theorem pending_emit (s : State) (o : Output) : (s.emit o).pending = s.pending := rfl
@[simp] theorem regs_emit (s : State) (o : Output) : (s.emit o).regs = s.regs := rfl
@[simp] theorem fmem_emit (s : State) (o : Output) : (s.emit o).fmem = s.fmem := rfl
@[simp] theorem ftwin_emit (s : State) (o : Output) : (s.emit o).ftwin = s.ftwin := rfl
@[simp] theorem imem_emit (s : State) (o : Output) : (s.emit o).imem = s.imem := rfl
@[simp] theorem cmem_emit (s : State) (o : Output) : (s.emit o).cmem = s.cmem := rfl
@[simp] theorem fr_emit (s : State) (o : Output) : (s.emit o).fr = s.fr := rfl
@[simp] theorem beads_emit (s : State) (o : Output) : (s.emit o).beads = s.beads := rfl
@[simp] theorem rods_emit (s : State) (o : Output) : (s.emit o).rods = s.rods := rfl
@[simp] theorem bar_emit (s : State) (o : Output) : (s.emit o).bar = s.bar := rfl
@[simp] theorem port_emit (s : State) (o : Output) : (s.emit o).port = s.port := rfl
@[simp] theorem icu_emit (s : State) (o : Output) : (s.emit o).icu = s.icu := rfl
@[simp] theorem evr_emit (s : State) (o : Output) : (s.emit o).evr = s.evr := rfl
@[simp] theorem flt_emit (s : State) (o : Output) : (s.emit o).flt = s.flt := rfl
@[simp] theorem flow_emit (s : State) (o : Output) : (s.emit o).flow = s.flow := rfl
@[simp] theorem images_emit (s : State) (o : Output) : (s.emit o).images = s.images := rfl
@[simp] theorem drv_emit (s : State) (o : Output) : (s.emit o).drv = s.drv := rfl
@[simp] theorem lce_emit (s : State) (o : Output) : (s.emit o).lce = s.lce := rfl
@[simp] theorem rad_emit (s : State) (o : Output) : (s.emit o).rad = s.rad := rfl
@[simp] theorem links_emit (s : State) (o : Output) : (s.emit o).links = s.links := rfl
@[simp] theorem seg_emit (s : State) (o : Output) : (s.emit o).seg = s.seg := rfl
@[simp] theorem pwr_emit (s : State) (o : Output) : (s.emit o).pwr = s.pwr := rfl
@[simp] theorem wch_emit (s : State) (o : Output) : (s.emit o).wch = s.wch := rfl
@[simp] theorem nand_emit (s : State) (o : Output) : (s.emit o).nand = s.nand := rfl
@[simp] theorem rtc_emit (s : State) (o : Output) : (s.emit o).rtc = s.rtc := rfl
@[simp] theorem ntu_emit (s : State) (o : Output) : (s.emit o).ntu = s.ntu := rfl
@[simp] theorem key_emit (s : State) (o : Output) : (s.emit o).key = s.key := rfl
@[simp] theorem isl_emit (s : State) (o : Output) : (s.emit o).isl = s.isl := rfl
@[simp] theorem met_emit (s : State) (o : Output) : (s.emit o).met = s.met := rfl
@[simp] theorem upd_emit (s : State) (o : Output) : (s.emit o).upd = s.upd := rfl
@[simp] theorem host_emit (s : State) (o : Output) : (s.emit o).host = s.host := rfl
@[simp] theorem fp_emit (s : State) (o : Output) : (s.emit o).fp = s.fp := rfl
@[simp] theorem free_emit (s : State) (o : Output) : (s.emit o).free = s.free := rfl
@[simp] theorem rd_emit (s : State) (o : Output) (q : Nat) : (s.emit o).rd q = s.rd q := rfl
@[simp] theorem fld_emit (s : State) (o : Output) (g : Fld) (k l : Nat) : (s.emit o).fld g k l = s.fld g k l := rfl
@[simp] theorem bit_emit (s : State) (o : Output) (g : Fld) (k l : Nat) : (s.emit o).bit g k l = s.bit g k l := rfl

@[simp] theorem part_answer (s : State) (w : Requester) (x : Status) : (s.answer w x).part = s.part := rfl
@[simp] theorem pending_answer (s : State) (w : Requester) (x : Status) : (s.answer w x).pending = s.pending := rfl
@[simp] theorem regs_answer (s : State) (w : Requester) (x : Status) : (s.answer w x).regs = s.regs := rfl
@[simp] theorem fmem_answer (s : State) (w : Requester) (x : Status) : (s.answer w x).fmem = s.fmem := rfl
@[simp] theorem ftwin_answer (s : State) (w : Requester) (x : Status) : (s.answer w x).ftwin = s.ftwin := rfl
@[simp] theorem imem_answer (s : State) (w : Requester) (x : Status) : (s.answer w x).imem = s.imem := rfl
@[simp] theorem cmem_answer (s : State) (w : Requester) (x : Status) : (s.answer w x).cmem = s.cmem := rfl
@[simp] theorem fr_answer (s : State) (w : Requester) (x : Status) : (s.answer w x).fr = s.fr := rfl
@[simp] theorem beads_answer (s : State) (w : Requester) (x : Status) : (s.answer w x).beads = s.beads := rfl
@[simp] theorem rods_answer (s : State) (w : Requester) (x : Status) : (s.answer w x).rods = s.rods := rfl
@[simp] theorem bar_answer (s : State) (w : Requester) (x : Status) : (s.answer w x).bar = s.bar := rfl
@[simp] theorem port_answer (s : State) (w : Requester) (x : Status) : (s.answer w x).port = s.port := rfl
@[simp] theorem icu_answer (s : State) (w : Requester) (x : Status) : (s.answer w x).icu = s.icu := rfl
@[simp] theorem evr_answer (s : State) (w : Requester) (x : Status) : (s.answer w x).evr = s.evr := rfl
@[simp] theorem flt_answer (s : State) (w : Requester) (x : Status) : (s.answer w x).flt = s.flt := rfl
@[simp] theorem flow_answer (s : State) (w : Requester) (x : Status) : (s.answer w x).flow = s.flow := rfl
@[simp] theorem images_answer (s : State) (w : Requester) (x : Status) : (s.answer w x).images = s.images := rfl
@[simp] theorem drv_answer (s : State) (w : Requester) (x : Status) : (s.answer w x).drv = s.drv := rfl
@[simp] theorem lce_answer (s : State) (w : Requester) (x : Status) : (s.answer w x).lce = s.lce := rfl
@[simp] theorem rad_answer (s : State) (w : Requester) (x : Status) : (s.answer w x).rad = s.rad := rfl
@[simp] theorem links_answer (s : State) (w : Requester) (x : Status) : (s.answer w x).links = s.links := rfl
@[simp] theorem seg_answer (s : State) (w : Requester) (x : Status) : (s.answer w x).seg = s.seg := rfl
@[simp] theorem pwr_answer (s : State) (w : Requester) (x : Status) : (s.answer w x).pwr = s.pwr := rfl
@[simp] theorem wch_answer (s : State) (w : Requester) (x : Status) : (s.answer w x).wch = s.wch := rfl
@[simp] theorem nand_answer (s : State) (w : Requester) (x : Status) : (s.answer w x).nand = s.nand := rfl
@[simp] theorem rtc_answer (s : State) (w : Requester) (x : Status) : (s.answer w x).rtc = s.rtc := rfl
@[simp] theorem ntu_answer (s : State) (w : Requester) (x : Status) : (s.answer w x).ntu = s.ntu := rfl
@[simp] theorem key_answer (s : State) (w : Requester) (x : Status) : (s.answer w x).key = s.key := rfl
@[simp] theorem isl_answer (s : State) (w : Requester) (x : Status) : (s.answer w x).isl = s.isl := rfl
@[simp] theorem met_answer (s : State) (w : Requester) (x : Status) : (s.answer w x).met = s.met := rfl
@[simp] theorem upd_answer (s : State) (w : Requester) (x : Status) : (s.answer w x).upd = s.upd := rfl
@[simp] theorem host_answer (s : State) (w : Requester) (x : Status) : (s.answer w x).host = s.host := rfl
@[simp] theorem fp_answer (s : State) (w : Requester) (x : Status) : (s.answer w x).fp = s.fp := rfl
@[simp] theorem free_answer (s : State) (w : Requester) (x : Status) : (s.answer w x).free = s.free := rfl
@[simp] theorem rd_answer (s : State) (w : Requester) (x : Status) (q : Nat) : (s.answer w x).rd q = s.rd q := rfl
@[simp] theorem fld_answer (s : State) (w : Requester) (x : Status) (g : Fld) (k l : Nat) : (s.answer w x).fld g k l = s.fld g k l := rfl
@[simp] theorem bit_answer (s : State) (w : Requester) (x : Status) (g : Fld) (k l : Nat) : (s.answer w x).bit g k l = s.bit g k l := rfl

@[simp] theorem part_putF (s : State) (a n v : Nat) : (s.putF a n v).part = s.part := rfl
@[simp] theorem pending_putF (s : State) (a n v : Nat) : (s.putF a n v).pending = s.pending := rfl
@[simp] theorem regs_putF (s : State) (a n v : Nat) : (s.putF a n v).regs = s.regs := rfl
@[simp] theorem imem_putF (s : State) (a n v : Nat) : (s.putF a n v).imem = s.imem := rfl
@[simp] theorem cmem_putF (s : State) (a n v : Nat) : (s.putF a n v).cmem = s.cmem := rfl
@[simp] theorem fr_putF (s : State) (a n v : Nat) : (s.putF a n v).fr = s.fr := rfl
@[simp] theorem beads_putF (s : State) (a n v : Nat) : (s.putF a n v).beads = s.beads := rfl
@[simp] theorem rods_putF (s : State) (a n v : Nat) : (s.putF a n v).rods = s.rods := rfl
@[simp] theorem bar_putF (s : State) (a n v : Nat) : (s.putF a n v).bar = s.bar := rfl
@[simp] theorem port_putF (s : State) (a n v : Nat) : (s.putF a n v).port = s.port := rfl
@[simp] theorem icu_putF (s : State) (a n v : Nat) : (s.putF a n v).icu = s.icu := rfl
@[simp] theorem evr_putF (s : State) (a n v : Nat) : (s.putF a n v).evr = s.evr := rfl
@[simp] theorem flt_putF (s : State) (a n v : Nat) : (s.putF a n v).flt = s.flt := rfl
@[simp] theorem flow_putF (s : State) (a n v : Nat) : (s.putF a n v).flow = s.flow := rfl
@[simp] theorem images_putF (s : State) (a n v : Nat) : (s.putF a n v).images = s.images := rfl
@[simp] theorem drv_putF (s : State) (a n v : Nat) : (s.putF a n v).drv = s.drv := rfl
@[simp] theorem lce_putF (s : State) (a n v : Nat) : (s.putF a n v).lce = s.lce := rfl
@[simp] theorem rad_putF (s : State) (a n v : Nat) : (s.putF a n v).rad = s.rad := rfl
@[simp] theorem links_putF (s : State) (a n v : Nat) : (s.putF a n v).links = s.links := rfl
@[simp] theorem seg_putF (s : State) (a n v : Nat) : (s.putF a n v).seg = s.seg := rfl
@[simp] theorem pwr_putF (s : State) (a n v : Nat) : (s.putF a n v).pwr = s.pwr := rfl
@[simp] theorem wch_putF (s : State) (a n v : Nat) : (s.putF a n v).wch = s.wch := rfl
@[simp] theorem nand_putF (s : State) (a n v : Nat) : (s.putF a n v).nand = s.nand := rfl
@[simp] theorem rtc_putF (s : State) (a n v : Nat) : (s.putF a n v).rtc = s.rtc := rfl
@[simp] theorem ntu_putF (s : State) (a n v : Nat) : (s.putF a n v).ntu = s.ntu := rfl
@[simp] theorem key_putF (s : State) (a n v : Nat) : (s.putF a n v).key = s.key := rfl
@[simp] theorem isl_putF (s : State) (a n v : Nat) : (s.putF a n v).isl = s.isl := rfl
@[simp] theorem met_putF (s : State) (a n v : Nat) : (s.putF a n v).met = s.met := rfl
@[simp] theorem upd_putF (s : State) (a n v : Nat) : (s.putF a n v).upd = s.upd := rfl
@[simp] theorem host_putF (s : State) (a n v : Nat) : (s.putF a n v).host = s.host := rfl
@[simp] theorem fp_putF (s : State) (a n v : Nat) : (s.putF a n v).fp = s.fp := rfl
@[simp] theorem out_putF (s : State) (a n v : Nat) : (s.putF a n v).out = s.out := rfl
@[simp] theorem free_putF (s : State) (a n v : Nat) : (s.putF a n v).free = s.free := rfl
@[simp] theorem rd_putF (s : State) (a n v : Nat) (q : Nat) : (s.putF a n v).rd q = s.rd q := rfl
@[simp] theorem fld_putF (s : State) (a n v : Nat) (g : Fld) (k l : Nat) : (s.putF a n v).fld g k l = s.fld g k l := rfl
@[simp] theorem bit_putF (s : State) (a n v : Nat) (g : Fld) (k l : Nat) : (s.putF a n v).bit g k l = s.bit g k l := rfl

@[simp] theorem part_setLan (s : State) (l o n v : Nat) : (s.setLan l o n v).part = s.part := rfl
@[simp] theorem pending_setLan (s : State) (l o n v : Nat) : (s.setLan l o n v).pending = s.pending := rfl
@[simp] theorem regs_setLan (s : State) (l o n v : Nat) : (s.setLan l o n v).regs = s.regs := rfl
@[simp] theorem imem_setLan (s : State) (l o n v : Nat) : (s.setLan l o n v).imem = s.imem := rfl
@[simp] theorem cmem_setLan (s : State) (l o n v : Nat) : (s.setLan l o n v).cmem = s.cmem := rfl
@[simp] theorem fr_setLan (s : State) (l o n v : Nat) : (s.setLan l o n v).fr = s.fr := rfl
@[simp] theorem beads_setLan (s : State) (l o n v : Nat) : (s.setLan l o n v).beads = s.beads := rfl
@[simp] theorem rods_setLan (s : State) (l o n v : Nat) : (s.setLan l o n v).rods = s.rods := rfl
@[simp] theorem bar_setLan (s : State) (l o n v : Nat) : (s.setLan l o n v).bar = s.bar := rfl
@[simp] theorem port_setLan (s : State) (l o n v : Nat) : (s.setLan l o n v).port = s.port := rfl
@[simp] theorem icu_setLan (s : State) (l o n v : Nat) : (s.setLan l o n v).icu = s.icu := rfl
@[simp] theorem evr_setLan (s : State) (l o n v : Nat) : (s.setLan l o n v).evr = s.evr := rfl
@[simp] theorem flt_setLan (s : State) (l o n v : Nat) : (s.setLan l o n v).flt = s.flt := rfl
@[simp] theorem flow_setLan (s : State) (l o n v : Nat) : (s.setLan l o n v).flow = s.flow := rfl
@[simp] theorem images_setLan (s : State) (l o n v : Nat) : (s.setLan l o n v).images = s.images := rfl
@[simp] theorem drv_setLan (s : State) (l o n v : Nat) : (s.setLan l o n v).drv = s.drv := rfl
@[simp] theorem lce_setLan (s : State) (l o n v : Nat) : (s.setLan l o n v).lce = s.lce := rfl
@[simp] theorem rad_setLan (s : State) (l o n v : Nat) : (s.setLan l o n v).rad = s.rad := rfl
@[simp] theorem links_setLan (s : State) (l o n v : Nat) : (s.setLan l o n v).links = s.links := rfl
@[simp] theorem seg_setLan (s : State) (l o n v : Nat) : (s.setLan l o n v).seg = s.seg := rfl
@[simp] theorem pwr_setLan (s : State) (l o n v : Nat) : (s.setLan l o n v).pwr = s.pwr := rfl
@[simp] theorem wch_setLan (s : State) (l o n v : Nat) : (s.setLan l o n v).wch = s.wch := rfl
@[simp] theorem nand_setLan (s : State) (l o n v : Nat) : (s.setLan l o n v).nand = s.nand := rfl
@[simp] theorem rtc_setLan (s : State) (l o n v : Nat) : (s.setLan l o n v).rtc = s.rtc := rfl
@[simp] theorem ntu_setLan (s : State) (l o n v : Nat) : (s.setLan l o n v).ntu = s.ntu := rfl
@[simp] theorem key_setLan (s : State) (l o n v : Nat) : (s.setLan l o n v).key = s.key := rfl
@[simp] theorem isl_setLan (s : State) (l o n v : Nat) : (s.setLan l o n v).isl = s.isl := rfl
@[simp] theorem met_setLan (s : State) (l o n v : Nat) : (s.setLan l o n v).met = s.met := rfl
@[simp] theorem upd_setLan (s : State) (l o n v : Nat) : (s.setLan l o n v).upd = s.upd := rfl
@[simp] theorem host_setLan (s : State) (l o n v : Nat) : (s.setLan l o n v).host = s.host := rfl
@[simp] theorem fp_setLan (s : State) (l o n v : Nat) : (s.setLan l o n v).fp = s.fp := rfl
@[simp] theorem out_setLan (s : State) (l o n v : Nat) : (s.setLan l o n v).out = s.out := rfl
@[simp] theorem free_setLan (s : State) (l o n v : Nat) : (s.setLan l o n v).free = s.free := rfl
@[simp] theorem rd_setLan (s : State) (l o n v : Nat) (q : Nat) : (s.setLan l o n v).rd q = s.rd q := rfl
@[simp] theorem fld_setLan (s : State) (l o n v : Nat) (g : Fld) (k l : Nat) : (s.setLan l o n v).fld g k l = s.fld g k l := rfl
@[simp] theorem bit_setLan (s : State) (l o n v : Nat) (g : Fld) (k l : Nat) : (s.setLan l o n v).bit g k l = s.bit g k l := rfl

@[simp] theorem part_setBead (s : State) (n : Nat) (b : Bead) : (s.setBead n b).part = s.part := rfl
@[simp] theorem pending_setBead (s : State) (n : Nat) (b : Bead) : (s.setBead n b).pending = s.pending := rfl
@[simp] theorem regs_setBead (s : State) (n : Nat) (b : Bead) : (s.setBead n b).regs = s.regs := rfl
@[simp] theorem fmem_setBead (s : State) (n : Nat) (b : Bead) : (s.setBead n b).fmem = s.fmem := rfl
@[simp] theorem ftwin_setBead (s : State) (n : Nat) (b : Bead) : (s.setBead n b).ftwin = s.ftwin := rfl
@[simp] theorem imem_setBead (s : State) (n : Nat) (b : Bead) : (s.setBead n b).imem = s.imem := rfl
@[simp] theorem cmem_setBead (s : State) (n : Nat) (b : Bead) : (s.setBead n b).cmem = s.cmem := rfl
@[simp] theorem fr_setBead (s : State) (n : Nat) (b : Bead) : (s.setBead n b).fr = s.fr := rfl
@[simp] theorem rods_setBead (s : State) (n : Nat) (b : Bead) : (s.setBead n b).rods = s.rods := rfl
@[simp] theorem bar_setBead (s : State) (n : Nat) (b : Bead) : (s.setBead n b).bar = s.bar := rfl
@[simp] theorem port_setBead (s : State) (n : Nat) (b : Bead) : (s.setBead n b).port = s.port := rfl
@[simp] theorem icu_setBead (s : State) (n : Nat) (b : Bead) : (s.setBead n b).icu = s.icu := rfl
@[simp] theorem evr_setBead (s : State) (n : Nat) (b : Bead) : (s.setBead n b).evr = s.evr := rfl
@[simp] theorem flt_setBead (s : State) (n : Nat) (b : Bead) : (s.setBead n b).flt = s.flt := rfl
@[simp] theorem flow_setBead (s : State) (n : Nat) (b : Bead) : (s.setBead n b).flow = s.flow := rfl
@[simp] theorem images_setBead (s : State) (n : Nat) (b : Bead) : (s.setBead n b).images = s.images := rfl
@[simp] theorem drv_setBead (s : State) (n : Nat) (b : Bead) : (s.setBead n b).drv = s.drv := rfl
@[simp] theorem lce_setBead (s : State) (n : Nat) (b : Bead) : (s.setBead n b).lce = s.lce := rfl
@[simp] theorem rad_setBead (s : State) (n : Nat) (b : Bead) : (s.setBead n b).rad = s.rad := rfl
@[simp] theorem links_setBead (s : State) (n : Nat) (b : Bead) : (s.setBead n b).links = s.links := rfl
@[simp] theorem seg_setBead (s : State) (n : Nat) (b : Bead) : (s.setBead n b).seg = s.seg := rfl
@[simp] theorem pwr_setBead (s : State) (n : Nat) (b : Bead) : (s.setBead n b).pwr = s.pwr := rfl
@[simp] theorem wch_setBead (s : State) (n : Nat) (b : Bead) : (s.setBead n b).wch = s.wch := rfl
@[simp] theorem nand_setBead (s : State) (n : Nat) (b : Bead) : (s.setBead n b).nand = s.nand := rfl
@[simp] theorem rtc_setBead (s : State) (n : Nat) (b : Bead) : (s.setBead n b).rtc = s.rtc := rfl
@[simp] theorem ntu_setBead (s : State) (n : Nat) (b : Bead) : (s.setBead n b).ntu = s.ntu := rfl
@[simp] theorem key_setBead (s : State) (n : Nat) (b : Bead) : (s.setBead n b).key = s.key := rfl
@[simp] theorem isl_setBead (s : State) (n : Nat) (b : Bead) : (s.setBead n b).isl = s.isl := rfl
@[simp] theorem met_setBead (s : State) (n : Nat) (b : Bead) : (s.setBead n b).met = s.met := rfl
@[simp] theorem upd_setBead (s : State) (n : Nat) (b : Bead) : (s.setBead n b).upd = s.upd := rfl
@[simp] theorem host_setBead (s : State) (n : Nat) (b : Bead) : (s.setBead n b).host = s.host := rfl
@[simp] theorem fp_setBead (s : State) (n : Nat) (b : Bead) : (s.setBead n b).fp = s.fp := rfl
@[simp] theorem out_setBead (s : State) (n : Nat) (b : Bead) : (s.setBead n b).out = s.out := rfl
@[simp] theorem free_setBead (s : State) (n : Nat) (b : Bead) : (s.setBead n b).free = s.free := rfl
@[simp] theorem rd_setBead (s : State) (n : Nat) (b : Bead) (q : Nat) : (s.setBead n b).rd q = s.rd q := rfl
@[simp] theorem fld_setBead (s : State) (n : Nat) (b : Bead) (g : Fld) (k l : Nat) : (s.setBead n b).fld g k l = s.fld g k l := rfl
@[simp] theorem bit_setBead (s : State) (n : Nat) (b : Bead) (g : Fld) (k l : Nat) : (s.setBead n b).bit g k l = s.bit g k l := rfl

@[simp] theorem part_setRod (s : State) (r : Nat) (x : Rod) : (s.setRod r x).part = s.part := rfl
@[simp] theorem pending_setRod (s : State) (r : Nat) (x : Rod) : (s.setRod r x).pending = s.pending := rfl
@[simp] theorem regs_setRod (s : State) (r : Nat) (x : Rod) : (s.setRod r x).regs = s.regs := rfl
@[simp] theorem fmem_setRod (s : State) (r : Nat) (x : Rod) : (s.setRod r x).fmem = s.fmem := rfl
@[simp] theorem ftwin_setRod (s : State) (r : Nat) (x : Rod) : (s.setRod r x).ftwin = s.ftwin := rfl
@[simp] theorem imem_setRod (s : State) (r : Nat) (x : Rod) : (s.setRod r x).imem = s.imem := rfl
@[simp] theorem cmem_setRod (s : State) (r : Nat) (x : Rod) : (s.setRod r x).cmem = s.cmem := rfl
@[simp] theorem fr_setRod (s : State) (r : Nat) (x : Rod) : (s.setRod r x).fr = s.fr := rfl
@[simp] theorem beads_setRod (s : State) (r : Nat) (x : Rod) : (s.setRod r x).beads = s.beads := rfl
@[simp] theorem bar_setRod (s : State) (r : Nat) (x : Rod) : (s.setRod r x).bar = s.bar := rfl
@[simp] theorem port_setRod (s : State) (r : Nat) (x : Rod) : (s.setRod r x).port = s.port := rfl
@[simp] theorem icu_setRod (s : State) (r : Nat) (x : Rod) : (s.setRod r x).icu = s.icu := rfl
@[simp] theorem evr_setRod (s : State) (r : Nat) (x : Rod) : (s.setRod r x).evr = s.evr := rfl
@[simp] theorem flt_setRod (s : State) (r : Nat) (x : Rod) : (s.setRod r x).flt = s.flt := rfl
@[simp] theorem flow_setRod (s : State) (r : Nat) (x : Rod) : (s.setRod r x).flow = s.flow := rfl
@[simp] theorem images_setRod (s : State) (r : Nat) (x : Rod) : (s.setRod r x).images = s.images := rfl
@[simp] theorem drv_setRod (s : State) (r : Nat) (x : Rod) : (s.setRod r x).drv = s.drv := rfl
@[simp] theorem lce_setRod (s : State) (r : Nat) (x : Rod) : (s.setRod r x).lce = s.lce := rfl
@[simp] theorem rad_setRod (s : State) (r : Nat) (x : Rod) : (s.setRod r x).rad = s.rad := rfl
@[simp] theorem links_setRod (s : State) (r : Nat) (x : Rod) : (s.setRod r x).links = s.links := rfl
@[simp] theorem seg_setRod (s : State) (r : Nat) (x : Rod) : (s.setRod r x).seg = s.seg := rfl
@[simp] theorem pwr_setRod (s : State) (r : Nat) (x : Rod) : (s.setRod r x).pwr = s.pwr := rfl
@[simp] theorem wch_setRod (s : State) (r : Nat) (x : Rod) : (s.setRod r x).wch = s.wch := rfl
@[simp] theorem nand_setRod (s : State) (r : Nat) (x : Rod) : (s.setRod r x).nand = s.nand := rfl
@[simp] theorem rtc_setRod (s : State) (r : Nat) (x : Rod) : (s.setRod r x).rtc = s.rtc := rfl
@[simp] theorem ntu_setRod (s : State) (r : Nat) (x : Rod) : (s.setRod r x).ntu = s.ntu := rfl
@[simp] theorem key_setRod (s : State) (r : Nat) (x : Rod) : (s.setRod r x).key = s.key := rfl
@[simp] theorem isl_setRod (s : State) (r : Nat) (x : Rod) : (s.setRod r x).isl = s.isl := rfl
@[simp] theorem met_setRod (s : State) (r : Nat) (x : Rod) : (s.setRod r x).met = s.met := rfl
@[simp] theorem upd_setRod (s : State) (r : Nat) (x : Rod) : (s.setRod r x).upd = s.upd := rfl
@[simp] theorem host_setRod (s : State) (r : Nat) (x : Rod) : (s.setRod r x).host = s.host := rfl
@[simp] theorem fp_setRod (s : State) (r : Nat) (x : Rod) : (s.setRod r x).fp = s.fp := rfl
@[simp] theorem out_setRod (s : State) (r : Nat) (x : Rod) : (s.setRod r x).out = s.out := rfl
@[simp] theorem free_setRod (s : State) (r : Nat) (x : Rod) : (s.setRod r x).free = s.free := rfl
@[simp] theorem rd_setRod (s : State) (r : Nat) (x : Rod) (q : Nat) : (s.setRod r x).rd q = s.rd q := rfl
@[simp] theorem fld_setRod (s : State) (r : Nat) (x : Rod) (g : Fld) (k l : Nat) : (s.setRod r x).fld g k l = s.fld g k l := rfl
@[simp] theorem bit_setRod (s : State) (r : Nat) (x : Rod) (g : Fld) (k l : Nat) : (s.setRod r x).bit g k l = s.bit g k l := rfl

@[simp] theorem part_setTarget (s : State) (t : Nat) (x : IcuTarget) : (s.setTarget t x).part = s.part := rfl
@[simp] theorem pending_setTarget (s : State) (t : Nat) (x : IcuTarget) : (s.setTarget t x).pending = s.pending := rfl
@[simp] theorem regs_setTarget (s : State) (t : Nat) (x : IcuTarget) : (s.setTarget t x).regs = s.regs := rfl
@[simp] theorem fmem_setTarget (s : State) (t : Nat) (x : IcuTarget) : (s.setTarget t x).fmem = s.fmem := rfl
@[simp] theorem ftwin_setTarget (s : State) (t : Nat) (x : IcuTarget) : (s.setTarget t x).ftwin = s.ftwin := rfl
@[simp] theorem imem_setTarget (s : State) (t : Nat) (x : IcuTarget) : (s.setTarget t x).imem = s.imem := rfl
@[simp] theorem cmem_setTarget (s : State) (t : Nat) (x : IcuTarget) : (s.setTarget t x).cmem = s.cmem := rfl
@[simp] theorem fr_setTarget (s : State) (t : Nat) (x : IcuTarget) : (s.setTarget t x).fr = s.fr := rfl
@[simp] theorem beads_setTarget (s : State) (t : Nat) (x : IcuTarget) : (s.setTarget t x).beads = s.beads := rfl
@[simp] theorem rods_setTarget (s : State) (t : Nat) (x : IcuTarget) : (s.setTarget t x).rods = s.rods := rfl
@[simp] theorem bar_setTarget (s : State) (t : Nat) (x : IcuTarget) : (s.setTarget t x).bar = s.bar := rfl
@[simp] theorem port_setTarget (s : State) (t : Nat) (x : IcuTarget) : (s.setTarget t x).port = s.port := rfl
@[simp] theorem evr_setTarget (s : State) (t : Nat) (x : IcuTarget) : (s.setTarget t x).evr = s.evr := rfl
@[simp] theorem flt_setTarget (s : State) (t : Nat) (x : IcuTarget) : (s.setTarget t x).flt = s.flt := rfl
@[simp] theorem flow_setTarget (s : State) (t : Nat) (x : IcuTarget) : (s.setTarget t x).flow = s.flow := rfl
@[simp] theorem images_setTarget (s : State) (t : Nat) (x : IcuTarget) : (s.setTarget t x).images = s.images := rfl
@[simp] theorem drv_setTarget (s : State) (t : Nat) (x : IcuTarget) : (s.setTarget t x).drv = s.drv := rfl
@[simp] theorem lce_setTarget (s : State) (t : Nat) (x : IcuTarget) : (s.setTarget t x).lce = s.lce := rfl
@[simp] theorem rad_setTarget (s : State) (t : Nat) (x : IcuTarget) : (s.setTarget t x).rad = s.rad := rfl
@[simp] theorem links_setTarget (s : State) (t : Nat) (x : IcuTarget) : (s.setTarget t x).links = s.links := rfl
@[simp] theorem seg_setTarget (s : State) (t : Nat) (x : IcuTarget) : (s.setTarget t x).seg = s.seg := rfl
@[simp] theorem pwr_setTarget (s : State) (t : Nat) (x : IcuTarget) : (s.setTarget t x).pwr = s.pwr := rfl
@[simp] theorem wch_setTarget (s : State) (t : Nat) (x : IcuTarget) : (s.setTarget t x).wch = s.wch := rfl
@[simp] theorem nand_setTarget (s : State) (t : Nat) (x : IcuTarget) : (s.setTarget t x).nand = s.nand := rfl
@[simp] theorem rtc_setTarget (s : State) (t : Nat) (x : IcuTarget) : (s.setTarget t x).rtc = s.rtc := rfl
@[simp] theorem ntu_setTarget (s : State) (t : Nat) (x : IcuTarget) : (s.setTarget t x).ntu = s.ntu := rfl
@[simp] theorem key_setTarget (s : State) (t : Nat) (x : IcuTarget) : (s.setTarget t x).key = s.key := rfl
@[simp] theorem isl_setTarget (s : State) (t : Nat) (x : IcuTarget) : (s.setTarget t x).isl = s.isl := rfl
@[simp] theorem met_setTarget (s : State) (t : Nat) (x : IcuTarget) : (s.setTarget t x).met = s.met := rfl
@[simp] theorem upd_setTarget (s : State) (t : Nat) (x : IcuTarget) : (s.setTarget t x).upd = s.upd := rfl
@[simp] theorem host_setTarget (s : State) (t : Nat) (x : IcuTarget) : (s.setTarget t x).host = s.host := rfl
@[simp] theorem fp_setTarget (s : State) (t : Nat) (x : IcuTarget) : (s.setTarget t x).fp = s.fp := rfl
@[simp] theorem out_setTarget (s : State) (t : Nat) (x : IcuTarget) : (s.setTarget t x).out = s.out := rfl
@[simp] theorem free_setTarget (s : State) (t : Nat) (x : IcuTarget) : (s.setTarget t x).free = s.free := rfl
@[simp] theorem rd_setTarget (s : State) (t : Nat) (x : IcuTarget) (q : Nat) : (s.setTarget t x).rd q = s.rd q := rfl
@[simp] theorem fld_setTarget (s : State) (t : Nat) (x : IcuTarget) (g : Fld) (k l : Nat) : (s.setTarget t x).fld g k l = s.fld g k l := rfl
@[simp] theorem bit_setTarget (s : State) (t : Nat) (x : IcuTarget) (g : Fld) (k l : Nat) : (s.setTarget t x).bit g k l = s.bit g k l := rfl

@[simp] theorem part_atUs (s : State) (t : Nat) : (s.atUs t).part = s.part := rfl
@[simp] theorem pending_atUs (s : State) (t : Nat) : (s.atUs t).pending = s.pending := rfl
@[simp] theorem regs_atUs (s : State) (t : Nat) : (s.atUs t).regs = s.regs := rfl
@[simp] theorem fmem_atUs (s : State) (t : Nat) : (s.atUs t).fmem = s.fmem := rfl
@[simp] theorem ftwin_atUs (s : State) (t : Nat) : (s.atUs t).ftwin = s.ftwin := rfl
@[simp] theorem imem_atUs (s : State) (t : Nat) : (s.atUs t).imem = s.imem := rfl
@[simp] theorem cmem_atUs (s : State) (t : Nat) : (s.atUs t).cmem = s.cmem := rfl
@[simp] theorem beads_atUs (s : State) (t : Nat) : (s.atUs t).beads = s.beads := rfl
@[simp] theorem rods_atUs (s : State) (t : Nat) : (s.atUs t).rods = s.rods := rfl
@[simp] theorem bar_atUs (s : State) (t : Nat) : (s.atUs t).bar = s.bar := rfl
@[simp] theorem port_atUs (s : State) (t : Nat) : (s.atUs t).port = s.port := rfl
@[simp] theorem icu_atUs (s : State) (t : Nat) : (s.atUs t).icu = s.icu := rfl
@[simp] theorem evr_atUs (s : State) (t : Nat) : (s.atUs t).evr = s.evr := rfl
@[simp] theorem flt_atUs (s : State) (t : Nat) : (s.atUs t).flt = s.flt := rfl
@[simp] theorem flow_atUs (s : State) (t : Nat) : (s.atUs t).flow = s.flow := rfl
@[simp] theorem images_atUs (s : State) (t : Nat) : (s.atUs t).images = s.images := rfl
@[simp] theorem drv_atUs (s : State) (t : Nat) : (s.atUs t).drv = s.drv := rfl
@[simp] theorem lce_atUs (s : State) (t : Nat) : (s.atUs t).lce = s.lce := rfl
@[simp] theorem rad_atUs (s : State) (t : Nat) : (s.atUs t).rad = s.rad := rfl
@[simp] theorem links_atUs (s : State) (t : Nat) : (s.atUs t).links = s.links := rfl
@[simp] theorem seg_atUs (s : State) (t : Nat) : (s.atUs t).seg = s.seg := rfl
@[simp] theorem pwr_atUs (s : State) (t : Nat) : (s.atUs t).pwr = s.pwr := rfl
@[simp] theorem wch_atUs (s : State) (t : Nat) : (s.atUs t).wch = s.wch := rfl
@[simp] theorem nand_atUs (s : State) (t : Nat) : (s.atUs t).nand = s.nand := rfl
@[simp] theorem rtc_atUs (s : State) (t : Nat) : (s.atUs t).rtc = s.rtc := rfl
@[simp] theorem ntu_atUs (s : State) (t : Nat) : (s.atUs t).ntu = s.ntu := rfl
@[simp] theorem key_atUs (s : State) (t : Nat) : (s.atUs t).key = s.key := rfl
@[simp] theorem isl_atUs (s : State) (t : Nat) : (s.atUs t).isl = s.isl := rfl
@[simp] theorem met_atUs (s : State) (t : Nat) : (s.atUs t).met = s.met := rfl
@[simp] theorem upd_atUs (s : State) (t : Nat) : (s.atUs t).upd = s.upd := rfl
@[simp] theorem host_atUs (s : State) (t : Nat) : (s.atUs t).host = s.host := rfl
@[simp] theorem fp_atUs (s : State) (t : Nat) : (s.atUs t).fp = s.fp := rfl
@[simp] theorem out_atUs (s : State) (t : Nat) : (s.atUs t).out = s.out := rfl
@[simp] theorem free_atUs (s : State) (t : Nat) : (s.atUs t).free = s.free := rfl
@[simp] theorem rd_atUs (s : State) (t : Nat) (q : Nat) : (s.atUs t).rd q = s.rd q := rfl
@[simp] theorem fld_atUs (s : State) (t : Nat) (g : Fld) (k l : Nat) : (s.atUs t).fld g k l = s.fld g k l := rfl
@[simp] theorem bit_atUs (s : State) (t : Nat) (g : Fld) (k l : Nat) : (s.atUs t).bit g k l = s.bit g k l := rfl

@[simp] theorem part_dropSrc (s : State) (n : Nat) : (s.dropSrc n).part = s.part := rfl
@[simp] theorem pending_dropSrc (s : State) (n : Nat) : (s.dropSrc n).pending = s.pending := rfl
@[simp] theorem regs_dropSrc (s : State) (n : Nat) : (s.dropSrc n).regs = s.regs := rfl
@[simp] theorem fmem_dropSrc (s : State) (n : Nat) : (s.dropSrc n).fmem = s.fmem := rfl
@[simp] theorem ftwin_dropSrc (s : State) (n : Nat) : (s.dropSrc n).ftwin = s.ftwin := rfl
@[simp] theorem imem_dropSrc (s : State) (n : Nat) : (s.dropSrc n).imem = s.imem := rfl
@[simp] theorem cmem_dropSrc (s : State) (n : Nat) : (s.dropSrc n).cmem = s.cmem := rfl
@[simp] theorem fr_dropSrc (s : State) (n : Nat) : (s.dropSrc n).fr = s.fr := rfl
@[simp] theorem beads_dropSrc (s : State) (n : Nat) : (s.dropSrc n).beads = s.beads := rfl
@[simp] theorem rods_dropSrc (s : State) (n : Nat) : (s.dropSrc n).rods = s.rods := rfl
@[simp] theorem bar_dropSrc (s : State) (n : Nat) : (s.dropSrc n).bar = s.bar := rfl
@[simp] theorem port_dropSrc (s : State) (n : Nat) : (s.dropSrc n).port = s.port := rfl
@[simp] theorem evr_dropSrc (s : State) (n : Nat) : (s.dropSrc n).evr = s.evr := rfl
@[simp] theorem flt_dropSrc (s : State) (n : Nat) : (s.dropSrc n).flt = s.flt := rfl
@[simp] theorem flow_dropSrc (s : State) (n : Nat) : (s.dropSrc n).flow = s.flow := rfl
@[simp] theorem images_dropSrc (s : State) (n : Nat) : (s.dropSrc n).images = s.images := rfl
@[simp] theorem drv_dropSrc (s : State) (n : Nat) : (s.dropSrc n).drv = s.drv := rfl
@[simp] theorem lce_dropSrc (s : State) (n : Nat) : (s.dropSrc n).lce = s.lce := rfl
@[simp] theorem rad_dropSrc (s : State) (n : Nat) : (s.dropSrc n).rad = s.rad := rfl
@[simp] theorem links_dropSrc (s : State) (n : Nat) : (s.dropSrc n).links = s.links := rfl
@[simp] theorem seg_dropSrc (s : State) (n : Nat) : (s.dropSrc n).seg = s.seg := rfl
@[simp] theorem pwr_dropSrc (s : State) (n : Nat) : (s.dropSrc n).pwr = s.pwr := rfl
@[simp] theorem wch_dropSrc (s : State) (n : Nat) : (s.dropSrc n).wch = s.wch := rfl
@[simp] theorem nand_dropSrc (s : State) (n : Nat) : (s.dropSrc n).nand = s.nand := rfl
@[simp] theorem rtc_dropSrc (s : State) (n : Nat) : (s.dropSrc n).rtc = s.rtc := rfl
@[simp] theorem ntu_dropSrc (s : State) (n : Nat) : (s.dropSrc n).ntu = s.ntu := rfl
@[simp] theorem key_dropSrc (s : State) (n : Nat) : (s.dropSrc n).key = s.key := rfl
@[simp] theorem isl_dropSrc (s : State) (n : Nat) : (s.dropSrc n).isl = s.isl := rfl
@[simp] theorem met_dropSrc (s : State) (n : Nat) : (s.dropSrc n).met = s.met := rfl
@[simp] theorem upd_dropSrc (s : State) (n : Nat) : (s.dropSrc n).upd = s.upd := rfl
@[simp] theorem host_dropSrc (s : State) (n : Nat) : (s.dropSrc n).host = s.host := rfl
@[simp] theorem fp_dropSrc (s : State) (n : Nat) : (s.dropSrc n).fp = s.fp := rfl
@[simp] theorem out_dropSrc (s : State) (n : Nat) : (s.dropSrc n).out = s.out := rfl
@[simp] theorem free_dropSrc (s : State) (n : Nat) : (s.dropSrc n).free = s.free := rfl
@[simp] theorem rd_dropSrc (s : State) (n : Nat) (q : Nat) : (s.dropSrc n).rd q = s.rd q := rfl
@[simp] theorem fld_dropSrc (s : State) (n : Nat) (g : Fld) (k l : Nat) : (s.dropSrc n).fld g k l = s.fld g k l := rfl
@[simp] theorem bit_dropSrc (s : State) (n : Nat) (g : Fld) (k l : Nat) : (s.dropSrc n).bit g k l = s.bit g k l := rfl

@[simp] theorem part_charge (s : State) (r c : Nat) : (s.charge r c).part = s.part := rfl
@[simp] theorem pending_charge (s : State) (r c : Nat) : (s.charge r c).pending = s.pending := rfl
@[simp] theorem regs_charge (s : State) (r c : Nat) : (s.charge r c).regs = s.regs := rfl
@[simp] theorem fmem_charge (s : State) (r c : Nat) : (s.charge r c).fmem = s.fmem := rfl
@[simp] theorem ftwin_charge (s : State) (r c : Nat) : (s.charge r c).ftwin = s.ftwin := rfl
@[simp] theorem imem_charge (s : State) (r c : Nat) : (s.charge r c).imem = s.imem := rfl
@[simp] theorem cmem_charge (s : State) (r c : Nat) : (s.charge r c).cmem = s.cmem := rfl
@[simp] theorem fr_charge (s : State) (r c : Nat) : (s.charge r c).fr = s.fr := rfl
@[simp] theorem beads_charge (s : State) (r c : Nat) : (s.charge r c).beads = s.beads := rfl
@[simp] theorem bar_charge (s : State) (r c : Nat) : (s.charge r c).bar = s.bar := rfl
@[simp] theorem port_charge (s : State) (r c : Nat) : (s.charge r c).port = s.port := rfl
@[simp] theorem icu_charge (s : State) (r c : Nat) : (s.charge r c).icu = s.icu := rfl
@[simp] theorem evr_charge (s : State) (r c : Nat) : (s.charge r c).evr = s.evr := rfl
@[simp] theorem flt_charge (s : State) (r c : Nat) : (s.charge r c).flt = s.flt := rfl
@[simp] theorem flow_charge (s : State) (r c : Nat) : (s.charge r c).flow = s.flow := rfl
@[simp] theorem images_charge (s : State) (r c : Nat) : (s.charge r c).images = s.images := rfl
@[simp] theorem drv_charge (s : State) (r c : Nat) : (s.charge r c).drv = s.drv := rfl
@[simp] theorem lce_charge (s : State) (r c : Nat) : (s.charge r c).lce = s.lce := rfl
@[simp] theorem rad_charge (s : State) (r c : Nat) : (s.charge r c).rad = s.rad := rfl
@[simp] theorem links_charge (s : State) (r c : Nat) : (s.charge r c).links = s.links := rfl
@[simp] theorem seg_charge (s : State) (r c : Nat) : (s.charge r c).seg = s.seg := rfl
@[simp] theorem pwr_charge (s : State) (r c : Nat) : (s.charge r c).pwr = s.pwr := rfl
@[simp] theorem wch_charge (s : State) (r c : Nat) : (s.charge r c).wch = s.wch := rfl
@[simp] theorem nand_charge (s : State) (r c : Nat) : (s.charge r c).nand = s.nand := rfl
@[simp] theorem rtc_charge (s : State) (r c : Nat) : (s.charge r c).rtc = s.rtc := rfl
@[simp] theorem ntu_charge (s : State) (r c : Nat) : (s.charge r c).ntu = s.ntu := rfl
@[simp] theorem key_charge (s : State) (r c : Nat) : (s.charge r c).key = s.key := rfl
@[simp] theorem isl_charge (s : State) (r c : Nat) : (s.charge r c).isl = s.isl := rfl
@[simp] theorem met_charge (s : State) (r c : Nat) : (s.charge r c).met = s.met := rfl
@[simp] theorem upd_charge (s : State) (r c : Nat) : (s.charge r c).upd = s.upd := rfl
@[simp] theorem host_charge (s : State) (r c : Nat) : (s.charge r c).host = s.host := rfl
@[simp] theorem fp_charge (s : State) (r c : Nat) : (s.charge r c).fp = s.fp := rfl
@[simp] theorem out_charge (s : State) (r c : Nat) : (s.charge r c).out = s.out := rfl
@[simp] theorem free_charge (s : State) (r c : Nat) : (s.charge r c).free = s.free := rfl
@[simp] theorem rd_charge (s : State) (r c : Nat) (q : Nat) : (s.charge r c).rd q = s.rd q := rfl
@[simp] theorem fld_charge (s : State) (r c : Nat) (g : Fld) (k l : Nat) : (s.charge r c).fld g k l = s.fld g k l := rfl
@[simp] theorem bit_charge (s : State) (r c : Nat) (g : Fld) (k l : Nat) : (s.charge r c).bit g k l = s.bit g k l := rfl

end State

end Sys2Proof.Machine
end

