-- ==== Sys2Proof/Laws/Issue.lean ====
section
/-! SUPPORT. Issuing an instruction, said once: the state it leaves when its bead is within its budget, and what that state holds. -/

namespace Sys2Proof.Machine

namespace State

@[simp] theorem bead_setBead_same (s : State) (n : Nat) (b : Bead) : (s.setBead n b).bead n = b := SMap.find_set_same _ _ _ _

theorem bead_setBead_ne (s : State) (n m : Nat) (b : Bead) (h : m ≠ n) : (s.setBead n b).bead m = s.bead m :=
  SMap.find_set_ne _ _ _ _ _ _ h

@[simp] theorem bead_charge (s : State) (r c n : Nat) : (s.charge r c).bead n = s.bead n := rfl

@[simp] theorem rod_setRod_same (s : State) (r : Nat) (x : Rod) : (s.setRod r x).rod r = x := SMap.find_set_same _ _ _ _

theorem rod_setRod_ne (s : State) (r q : Nat) (x : Rod) (h : q ≠ r) : (s.setRod r x).rod q = s.rod q :=
  SMap.find_set_ne _ _ _ _ _ _ h

@[simp] theorem rod_setBead (s : State) (n : Nat) (b : Bead) (q : Nat) : (s.setBead n b).rod q = s.rod q := rfl

theorem rod_charge_same (s : State) (r c : Nat) : (s.charge r c).rod r = { s.rod r with used := (s.rod r).used + c } :=
  rod_setRod_same _ _ _

theorem rod_charge_ne (s : State) (r c q : Nat) (h : q ≠ r) : (s.charge r c).rod q = s.rod q := rod_setRod_ne _ _ _ _ h

end State

namespace Bead

theorem seqTo_eq (b : Bead) (pc : Nat) :
    b.seqTo pc = { b with pc := (seqLoops b.calls.length pc b.loops).1, loops := (seqLoops b.calls.length pc b.loops).2 } := rfl

@[simp] theorem seqTo_s (b : Bead) (pc : Nat) : (b.seqTo pc).s = b.s := rfl
@[simp] theorem seqTo_v (b : Bead) (pc : Nat) : (b.seqTo pc).v = b.v := rfl
@[simp] theorem seqTo_m (b : Bead) (pc : Nat) : (b.seqTo pc).m = b.m := rfl
@[simp] theorem seqTo_fl (b : Bead) (pc : Nat) : (b.seqTo pc).fl = b.fl := rfl
@[simp] theorem seqTo_entries (b : Bead) (pc : Nat) : (b.seqTo pc).entries = b.entries := rfl

theorem rs_ws (b : Bead) (d i : Nat) (w : Word) : (b.ws d w).rs i = if i = d ∧ d ≠ 0 then w else b.rs i := by
  unfold ws rs
  by_cases hd : d = 0
  · simp [hd]
  · by_cases hi : i = d
    · simp [hd, hi]
    · by_cases h0 : i = 0
      · simp [h0, Ne.symm hd]
      · simp [hd, hi, h0, SMap.find_set_ne _ _ _ _ _ _ hi]

@[simp] theorem ws_fl (b : Bead) (d : Nat) (w : Word) : (b.ws d w).fl = b.fl := by unfold ws; split <;> rfl
@[simp] theorem ws_entries (b : Bead) (d : Nat) (w : Word) : (b.ws d w).entries = b.entries := by unfold ws; split <;> rfl

/-- A scalar write changes the scalar registers alone. -/
theorem ws_eq (b : Bead) (d : Nat) (w : Word) : b.ws d w = { b with s := (b.ws d w).s } := by unfold ws; split <;> rfl

@[simp] theorem setFl_s (b : Bead) (i : Nat) (v : Bool) : (b.setFl i v).s = b.s := rfl
@[simp] theorem setFl_entries (b : Bead) (i : Nat) (v : Bool) : (b.setFl i v).entries = b.entries := rfl
@[simp] theorem setFl_rs (b : Bead) (i : Nat) (v : Bool) (j : Nat) : (b.setFl i v).rs j = b.rs j := rfl

theorem getLsbD_setFl (b : Bead) (i j : Nat) (v : Bool) (hj : j < 16) :
    (b.setFl i v).fl.getLsbD j = if j = i then v else b.fl.getLsbD j := by
  unfold setFl
  by_cases h : j = i
  · subst h
    cases v <;> simp [hj]
  · cases v
    · simp [h, hj]
      omega
    · simp [h, hj]
      omega

end Bead

/-- An instruction whose function answers a state and a bead with no more log entries leaves them, its cycles charged; what follows for
the rod happens within the budget only. -/
theorem issueWith_next {r : Fin 16} {cyc : Nat} {f : State → Nat → Bead → Eff} {after : State → Nat → State} {s : State} {n : Nat}
    (h1 : s.curBead r = some n) (h2 : (s.bead n).cycles ≤ s.fld R.ROD_BEAD_BUDGET_BUDGET n) {s2 : State} {b2 : Bead}
    (hf : f (s.charge r cyc) n { s.bead n with cycles := (s.bead n).cycles + cyc } = .ok (s2, b2))
    (he : b2.entries ≤ (s.bead n).entries) :
    issueWith r true cyc f after s =
      .next (if (s2.setBead n b2).fld R.ROD_BEAD_BUDGET_BUDGET n < b2.cycles then s2.setBead n b2 else after (s2.setBead n b2) n) := by
  unfold issueWith
  have h3 : ¬ s.fld R.ROD_BEAD_BUDGET_BUDGET n < (s.bead n).cycles := Nat.not_lt.mpr h2
  have h4 : ¬ ((s.bead n).entries < b2.entries ∧ 262144 < (s2.setBead n b2).poolUsed) := by omega
  simp only [h1, h3, hf, h4, if_false, Bool.not_true, Bool.false_eq_true]
  split <;> rfl

/-- An instruction that changes its bead alone. -/
theorem issueReg_next {r : Fin 16} {cyc : Nat} {f : Bead → Bead} {s : State} {n : Nat}
    (h1 : s.curBead r = some n) (h2 : (s.bead n).cycles ≤ s.fld R.ROD_BEAD_BUDGET_BUDGET n)
    (he : ∀ b : Bead, (f b).entries = b.entries) :
    issueReg r true cyc f s = .next ((s.charge r cyc).setBead n
      ((f { s.bead n with cycles := (s.bead n).cycles + cyc }).seqTo ((s.bead n).pc + 1))) := by
  have h := issueWith_next (r := r) (cyc := cyc) (after := fun s _ => s)
    (f := fun s n b => (Except.ok (s, f b) : Eff).map (fun p => (p.1, p.2.seqTo (b.pc + 1)))) h1 h2 rfl (by simp [he])
  rw [ite_self] at h
  exact h

end Sys2Proof.Machine
end

