-- ==== Sys2Proof/Laws/Link.lean ====
section
/-! SUPPORT. The meter link's frames (13 R335): little-endian numbers read back, and a receiver reads the frame that was sent. -/

namespace Sys2Proof.Machine

@[simp] theorem length_leBytes (n v : Nat) : (leBytes n v).length = n := by
  induction n generalizing v with
  | zero => rfl
  | succ n ih => simp [leBytes, ih]

@[simp] theorem leNat_leBytes (n v : Nat) : leNat (leBytes n v) = v % 256 ^ n := by
  induction n generalizing v with
  | zero => simp [leBytes, leNat, Nat.mod_one]
  | succ n ih =>
    have h : v % 256 ^ (n + 1) = v % 256 + 256 * (v / 256 % 256 ^ n) := by rw [Nat.pow_succ', Nat.mod_mul]
    rw [h, leBytes, leNat, ih, BitVec.toNat_ofNat]

/-- The number at the place where a part of a byte string begins. -/
theorem leAt_append (xs ys zs : List Byte) (k n : Nat) (hk : xs.length = k) (hn : ys.length = n) : leAt (xs ++ (ys ++ zs)) k n = leNat ys := by
  simp [leAt, ← hn, ← hk]

/-- The frame at the head of what was sent is the one that was sent. -/
theorem linkHead_linkFrame (typ c : Nat) (p rest : List Byte) (t : typ < 256) (l : linkLength typ p.length = true) (n : p.length < 65536) :
    linkHead (linkFrame typ c p ++ rest) = some (typ, p, rest) := by
  obtain ⟨H, hH⟩ : ∃ H, H = [(0xA5 : Byte), 0x5A, 0x02, BitVec.ofNat 8 typ] ++ leBytes 2 p.length ++ leBytes 2 c := ⟨_, rfl⟩
  obtain ⟨K, hK⟩ : ∃ K, K = leBytes 4 (crc32c (H ++ p)).toNat := ⟨_, rfl⟩
  have h8 : H.length = 8 := by simp [hH]
  have k4 : K.length = 4 := by simp [hK]
  have whole : linkFrame typ c p ++ rest = H ++ (p ++ (K ++ rest)) := by simp [linkFrame, hH, hK]
  have a1 : leAt (H ++ (p ++ (K ++ rest))) 3 1 = typ := by
    have := leAt_append [0xA5, 0x5A, 0x02] [BitVec.ofNat 8 typ] (leBytes 2 p.length ++ leBytes 2 c ++ (p ++ (K ++ rest))) 3 1 rfl rfl
    simpa [hH, leNat, Nat.mod_eq_of_lt t] using this
  have a2 : leAt (H ++ (p ++ (K ++ rest))) 4 2 = p.length := by
    have := leAt_append [0xA5, 0x5A, 0x02, BitVec.ofNat 8 typ] (leBytes 2 p.length) (leBytes 2 c ++ (p ++ (K ++ rest))) 4 2 rfl (by simp)
    simpa [hH, Nat.mod_eq_of_lt n] using this
  have a3 : leAt (H ++ (p ++ (K ++ rest))) (8 + p.length) 4 = (crc32c (H ++ p)).toNat := by
    have := leAt_append (H ++ p) K rest (8 + p.length) 4 (by simp [h8]) k4
    rw [List.append_assoc] at this
    have lt : (crc32c (H ++ p)).toNat < 256 ^ 4 := Nat.lt_of_lt_of_le (crc32c (H ++ p)).isLt (Nat.le_of_eq rfl)
    rw [this, hK, leNat_leBytes, Nat.mod_eq_of_lt lt]
  have a4 : (H ++ (p ++ (K ++ rest))).take (8 + p.length) = H ++ p := by
    rw [← List.append_assoc, List.take_left' (by simp [h8])]
  have a5 : (H ++ (p ++ (K ++ rest))).take 3 = [0xA5, 0x5A, 0x02] := by simp [hH]
  have a6 : ((H ++ (p ++ (K ++ rest))).drop 8).take p.length = p := by
    rw [List.drop_left' h8, List.take_left' rfl]
  have a7 : (H ++ (p ++ (K ++ rest))).drop (12 + p.length) = rest := by
    rw [show H ++ (p ++ (K ++ rest)) = (H ++ p ++ K) ++ rest by simp, List.drop_left' (by simp [h8, k4]; omega)]
  rw [whole]
  simp only [linkHead, a1, a2, a3, a4, a5, a6, a7, l, true_and]
  rw [if_pos (by simp [h8, k4]; omega)]

@[simp] theorem linkScan_nil (n : Nat) : linkScan n [] = ([], 0) := by cases n <;> rfl

end Sys2Proof.Machine
end

