-- ==== Sys2Proof/Laws/Skel.lean ====
section
/-! SUPPORT. What hardly any operation changes, gathered in one value: the queue, the part, the frame phase, whether frames are
meant to run, and the time of the tick edge. Each operation of the model has one lemma under Laws/ that says what it does to it. -/

namespace Sys2Proof.Machine

/-- The queue, the part, the phase of the frame, the power mode, an update's control pause, and the module time, number and count of the
frame. -/
structure Skel where
  pending : List Instr
  part : Part
  phase : Phase
  mode : PMode
  paused : Bool
  edge : Nat
  number : Nat
  mono : Nat

/-- The skeleton of a state. -/
def State.skel (s : State) : Skel := ⟨s.pending, s.part, s.fr.phase, s.pwr.mode, s.pwr.paused, s.fr.edgeNs, s.fr.number, s.fr.mono⟩

/-- The time of the tick edge after `s`. -/
def State.nextEdge (s : State) : Nat := s.fr.edgeNs + s.tickLen

/-- The skeleton with another tick edge. -/
def Skel.ticked (k : Skel) (ns mono : Nat) : Skel := { k with edge := ns, number := (ns + 9999999) / State.frameNs, mono := mono }

/-- The skeleton as a tick that starts at module time `ns` leaves it. -/
def Skel.tickStart (k : Skel) (ns : Nat) : Skel :=
  { k with phase := .snap, edge := ns, number := (ns + 9999999) / State.frameNs, mono := 0 }

/-- The skeleton after a start at module time `ns`. -/
def Skel.started (k : Skel) (ns : Nat) : Skel := { k.tickStart ns with mode := .on, paused := false }

namespace State

theorem skel_mk (part : Part) (pending : List Instr) (regs : SMap Word) (fmem ftwin imem cmem : SMap Byte) (fr : Frame)
    (beads : SMap Bead) (rods : SMap Rod) (bar : Bar) (port : Arb) (icu : Icu) (evr : Evr) (flt : Flt) (flow : Flow)
    (images : SMap Image) (drv : Drv) (lce : Lce) (rad : Rad) (links : Links) (seg : Seg) (pwr : Pwr) (wch : Wch) (nand : Nand)
    (rtc : Rtc) (ntu : Ntu) (key : Key) (isl : Island) (met : MetLink) (upd : Upd) (host : HostUnit) (fp : Fp)
    (out : List Output) (free : Nat) :
    State.skel ⟨part, pending, regs, fmem, ftwin, imem, cmem, fr, beads, rods, bar, port, icu, evr, flt, flow, images, drv, lce, rad,
      links, seg, pwr, wch, nand, rtc, ntu, key, isl, met, upd, host, fp, out, free⟩
      = ⟨pending, part, fr.phase, pwr.mode, pwr.paused, fr.edgeNs, fr.number, fr.mono⟩ := rfl

theorem pending_skel (s : State) : s.pending = s.skel.pending := rfl
theorem part_skel (s : State) : s.part = s.skel.part := rfl
theorem phase_skel (s : State) : s.fr.phase = s.skel.phase := rfl
theorem mode_skel (s : State) : s.pwr.mode = s.skel.mode := rfl
theorem paused_skel (s : State) : s.pwr.paused = s.skel.paused := rfl
theorem edge_skel (s : State) : s.fr.edgeNs = s.skel.edge := rfl
theorem number_skel (s : State) : s.fr.number = s.skel.number := rfl
theorem mono_skel (s : State) : s.fr.mono = s.skel.mono := rfl

/-- Folding an operation that keeps the skeleton keeps it. -/
theorem foldl_skel {α : Type} (f : State → α → State) (h : ∀ s x, (f s x).skel = s.skel) (l : List α) (s : State) :
    (l.foldl f s).skel = s.skel := by
  induction l generalizing s with
  | nil => rfl
  | cons x l ih => exact (ih (f s x)).trans (h s x)

end State

end Sys2Proof.Machine
end

