-- ==== Sys2Proof/Laws/SkelBase.lean ====
section
/-! SUPPORT. What the skeleton of a state is after each operation: the shared operations, event delivery, the segment and the engine. -/

namespace Sys2Proof.Machine

open State

theorem State.wr_skel (s : State) (a : Nat) (w : Word) : (State.wr s a w).skel = s.skel := by
  unfold State.wr
  simp only [skel_mk, pending_skel, part_skel, phase_skel, mode_skel, paused_skel, edge_skel, number_skel, mono_skel]

theorem State.setFld_skel (s : State) (f : Fld) (v : Nat) (i : Nat) (j : Nat) : (State.setFld s f v i j).skel = s.skel := by
  unfold State.setFld
  simp only [State.wr_skel]

theorem State.setBit_skel (s : State) (f : Fld) (v : Bool) (i : Nat) (j : Nat) : (State.setBit s f v i j).skel = s.skel := by
  unfold State.setBit
  simp only [State.setFld_skel]

theorem State.setFldI_skel (s : State) (f : Fld) (v : Int) (i : Nat) (j : Nat) : (State.setFldI s f v i j).skel = s.skel := by
  unfold State.setFldI
  simp only [State.setFld_skel]

theorem State.addSat_skel (s : State) (f : Fld) (n : Nat) (i : Nat) (j : Nat) : (State.addSat s f n i j).skel = s.skel := by
  unfold State.addSat
  simp only [State.setFld_skel]

theorem State.addWrap_skel (s : State) (f : Fld) (n : Nat) (i : Nat) (j : Nat) : (State.addWrap s f n i j).skel = s.skel := by
  unfold State.addWrap
  simp only [State.setFld_skel]

theorem State.atUs_skel (s : State) (t : Nat) : (State.atUs s t).skel = s.skel := by
  unfold State.atUs
  simp only [skel_mk, pending_skel, part_skel, phase_skel, mode_skel, paused_skel, edge_skel, number_skel, mono_skel]

theorem State.whenDue_skel (s : State) (ns : Nat) (f : State → State) (h : ∀ t, (f t).skel = t.skel) :
    (s.whenDue ns f).skel = s.skel := by
  unfold State.whenDue
  split
  · exact (h _).trans (State.atUs_skel _ _)
  · rfl

theorem State.emit_skel (s : State) (o : Output) : (State.emit s o).skel = s.skel := by
  unfold State.emit
  simp only [skel_mk, pending_skel, part_skel, phase_skel, mode_skel, paused_skel, edge_skel, number_skel, mono_skel]

theorem State.answer_skel (s : State) (who : Requester) (st : Status) : (State.answer s who st).skel = s.skel := by
  unfold State.answer
  simp only [State.emit_skel]

theorem State.setReady_skel (s : State) (n : Nat) : (State.setReady s n).skel = s.skel := by
  unfold State.setReady
  simp only [State.setFld_skel, State.wr_skel]

theorem State.clearReady_skel (s : State) (n : Nat) : (State.clearReady s n).skel = s.skel := by
  unfold State.clearReady
  simp only [State.wr_skel]

theorem State.putF_skel (s : State) (a : Nat) (n : Nat) (v : Nat) : (State.putF s a n v).skel = s.skel := by
  unfold State.putF
  simp only [skel_mk, pending_skel, part_skel, phase_skel, mode_skel, paused_skel, edge_skel, number_skel, mono_skel]

theorem State.setLan_skel (s : State) (lid : Nat) (off : Nat) (n : Nat) (v : Nat) : (State.setLan s lid off n v).skel = s.skel := by
  unfold State.setLan
  simp only [State.putF_skel]

theorem State.setEvrLog_skel (s : State) (l : Nat) (g : EvrLog) : (State.setEvrLog s l g).skel = s.skel := by
  unfold State.setEvrLog
  simp only [skel_mk, pending_skel, part_skel, phase_skel, mode_skel, paused_skel, edge_skel, number_skel, mono_skel, State.setFld_skel]

theorem State.evrHold_skel (s : State) (l : Nat) (r : Rec) : (State.evrHold s l r).skel = s.skel := by
  unfold State.evrHold
  simp only [skel_mk, pending_skel, part_skel, phase_skel, mode_skel, paused_skel, edge_skel, number_skel, mono_skel, apply_ite State.skel, ite_self, State.addSat_skel]

theorem State.assertSrc_skel (s : State) (n : Nat) : (State.assertSrc s n).skel = s.skel := by
  unfold State.assertSrc
  simp only [skel_mk, pending_skel, part_skel, phase_skel, mode_skel, paused_skel, edge_skel, number_skel, mono_skel, apply_ite State.skel, ite_self]

theorem State.dropSrc_skel (s : State) (n : Nat) : (State.dropSrc s n).skel = s.skel := by
  unfold State.dropSrc
  simp only [skel_mk, pending_skel, part_skel, phase_skel, mode_skel, paused_skel, edge_skel, number_skel, mono_skel]

theorem State.setBead_skel (s : State) (n : Nat) (b : Bead) : (State.setBead s n b).skel = s.skel := by
  unfold State.setBead
  simp only [skel_mk, pending_skel, part_skel, phase_skel, mode_skel, paused_skel, edge_skel, number_skel, mono_skel]

theorem State.setRod_skel (s : State) (r : Nat) (x : Rod) : (State.setRod s r x).skel = s.skel := by
  unfold State.setRod
  simp only [skel_mk, pending_skel, part_skel, phase_skel, mode_skel, paused_skel, edge_skel, number_skel, mono_skel]

theorem State.setTarget_skel (s : State) (t : Nat) (x : IcuTarget) : (State.setTarget s t x).skel = s.skel := by
  unfold State.setTarget
  simp only [skel_mk, pending_skel, part_skel, phase_skel, mode_skel, paused_skel, edge_skel, number_skel, mono_skel]

theorem State.draw_skel (s : State) : (State.draw s).2.skel = s.skel := by
  unfold State.draw
  simp only [skel_mk, pending_skel, part_skel, phase_skel, mode_skel, paused_skel, edge_skel, number_skel, mono_skel]

theorem State.setLoopState_skel (s : State) (l : Nat) (st : Nat) : (State.setLoopState s l st).skel = s.skel := by
  unfold State.setLoopState
  simp only [State.setFld_skel]

theorem State.setLoopOut_skel (s : State) (l : Nat) (u : Int) : (State.setLoopOut s l u).skel = s.skel := by
  unfold State.setLoopOut
  (repeat' split) <;> (first | with_reducible rfl | (simp only [State.setFldI_skel, State.setFld_skel]; done))

theorem State.loopClose_skel (s : State) (l : Nat) : (State.loopClose s l).skel = s.skel := by
  unfold State.loopClose
  simp only [skel_mk, pending_skel, part_skel, phase_skel, mode_skel, paused_skel, edge_skel, number_skel, mono_skel, State.setBit_skel, State.setLoopState_skel]

theorem State.loopOpen_skel (s : State) (l : Nat) : (State.loopOpen s l).skel = s.skel := by
  unfold State.loopOpen
  simp only [State.setBit_skel, State.setLoopState_skel]

theorem State.loopsGarnet_skel (s : State) : (State.loopsGarnet s).skel = s.skel := by
  unfold State.loopsGarnet
  simp only [apply_ite State.skel, ite_self, foldl_skel, implies_true, State.setLoopOut_skel, State.loopOpen_skel]

theorem State.loopsSwitch_skel (s : State) (pos : Nat) : (State.loopsSwitch s pos).skel = s.skel := by
  unfold State.loopsSwitch
  simp only [skel_mk, pending_skel, part_skel, phase_skel, mode_skel, paused_skel, edge_skel, number_skel, mono_skel, apply_ite State.skel, ite_self, foldl_skel, implies_true, State.loopOpen_skel, State.loopClose_skel, State.setLoopState_skel, State.setLoopOut_skel]

theorem State.loopsOnyx_skel (s : State) : (State.loopsOnyx s).skel = s.skel := by
  unfold State.loopsOnyx
  simp only [foldl_skel, implies_true, State.setLoopOut_skel, State.loopOpen_skel, State.setFld_skel]

theorem State.loopsFailsafe_skel (s : State) : (State.loopsFailsafe s).skel = s.skel := by
  unfold State.loopsFailsafe
  simp only [foldl_skel, implies_true, State.setFld_skel, State.setLoopOut_skel, State.loopOpen_skel]

theorem State.loop0_skel (s : State) (on : Bool) : (State.loop0 s on).skel = s.skel := by
  unfold State.loop0
  simp only [apply_ite State.skel, ite_self, State.loopClose_skel, State.setLoopOut_skel, State.loopOpen_skel]

theorem State.setDchan_skel (s : State) (c : Nat) (x : DrvChan) : (State.setDchan s c x).skel = s.skel := by
  unfold State.setDchan
  simp only [skel_mk, pending_skel, part_skel, phase_skel, mode_skel, paused_skel, edge_skel, number_skel, mono_skel]

theorem State.ramp_skel (s : State) (a : Nat) (b : Nat) (rate : Nat) : (State.ramp s a b rate).skel = s.skel := by
  unfold State.ramp
  simp only [skel_mk, pending_skel, part_skel, phase_skel, mode_skel, paused_skel, edge_skel, number_skel, mono_skel]

theorem State.clearMeasured_skel (s : State) : (State.clearMeasured s).skel = s.skel := by
  unfold State.clearMeasured
  simp only [part_skel, foldl_skel, implies_true, State.setDchan_skel]

theorem State.busOff_skel (s : State) : (State.busOff s).skel = s.skel := by
  unfold State.busOff
  simp only [State.loop0_skel, State.ramp_skel, State.setBit_skel, State.setFld_skel]

theorem State.busStart_skel (s : State) : (State.busStart s).skel = s.skel := by
  unfold State.busStart
  simp only [State.loop0_skel, State.ramp_skel, State.clearMeasured_skel, State.setBit_skel, State.setFld_skel]

theorem State.busRecovery_skel (s : State) : (State.busRecovery s).skel = s.skel := by
  unfold State.busRecovery
  simp only [State.ramp_skel, State.clearMeasured_skel, State.setBit_skel, State.setFld_skel]

theorem State.busTry_skel (s : State) : (State.busTry s).skel = s.skel := by
  unfold State.busTry
  simp only [apply_ite State.skel, ite_self, State.busStart_skel]

theorem State.chanMove_skel (s : State) (c : Nat) (level : Nat) (fadeMs : Nat) (source : Nat) : (State.chanMove s c level fadeMs source).skel = s.skel := by
  unfold State.chanMove
  simp only [apply_ite State.skel, ite_self, State.setDchan_skel, State.setFld_skel, State.busRecovery_skel]

theorem State.chanTake_skel (s : State) (x : DrvStaged) : (State.chanTake s x).skel = s.skel := by
  unfold State.chanTake
  simp only [apply_ite State.skel, ite_self, State.chanMove_skel]

theorem State.setFeeder_skel (s : State) (f : Nat) (x : DrvFeeder) : (State.setFeeder s f x).skel = s.skel := by
  unfold State.setFeeder
  simp only [skel_mk, pending_skel, part_skel, phase_skel, mode_skel, paused_skel, edge_skel, number_skel, mono_skel]

theorem State.syncFeedback_skel (s : State) (f : Nat) : (State.syncFeedback s f).skel = s.skel := by
  unfold State.syncFeedback
  simp only [apply_ite State.skel, ite_self, State.setBit_skel]

theorem State.coil_skel (s : State) (f : Nat) : (State.coil s f).skel = s.skel := by
  unfold State.coil
  simp only [skel_mk, pending_skel, part_skel, phase_skel, mode_skel, paused_skel, edge_skel, number_skel, mono_skel, apply_ite State.skel, ite_self, State.setBit_skel, State.setFeeder_skel, State.syncFeedback_skel]

theorem State.coils_skel (s : State) : (State.coils s).skel = s.skel := by
  unfold State.coils
  simp only [foldl_skel, implies_true, State.coil_skel]

theorem State.feederCmd_skel (s : State) (f : Nat) (close : Bool) : (State.feederCmd s f close).skel = s.skel := by
  unfold State.feederCmd
  simp only [State.setBit_skel, State.coil_skel, State.setFeeder_skel]

theorem State.drvPowerOff_skel (s : State) : (State.drvPowerOff s).skel = s.skel := by
  unfold State.drvPowerOff
  simp only [skel_mk, pending_skel, part_skel, phase_skel, mode_skel, paused_skel, edge_skel, number_skel, mono_skel, State.coils_skel, State.busOff_skel]

theorem State.chanHandover_skel (s : State) (c : Nat) (level : Nat) (asked : Nat) (source : Nat) : (State.chanHandover s c level asked source).skel = s.skel := by
  unfold State.chanHandover
  simp only [State.chanMove_skel]

theorem State.setConn_skel (s : State) (lid : Nat) (c : Conn) : (State.setConn s lid c).skel = s.skel := by
  unfold State.setConn
  simp only [skel_mk, pending_skel, part_skel, phase_skel, mode_skel, paused_skel, edge_skel, number_skel, mono_skel]

theorem State.setTlq_skel (s : State) (x : Nat) (q : List TlqEntry) : (State.setTlq s x q).skel = s.skel := by
  unfold State.setTlq
  simp only [skel_mk, pending_skel, part_skel, phase_skel, mode_skel, paused_skel, edge_skel, number_skel, mono_skel, State.setFld_skel]

theorem State.tlqOffer_skel (s : State) (x : Nat) (e : TlqEntry) : (State.tlqOffer s x e).2.skel = s.skel := by
  unfold State.tlqOffer
  (repeat' split) <;> (first | with_reducible rfl | (simp only [State.setTlq_skel]; done))

theorem State.enqueue_skel (s : State) (i : DownItem) : (State.enqueue s i).skel = s.skel := by
  unfold State.enqueue
  simp only [skel_mk, pending_skel, part_skel, phase_skel, mode_skel, paused_skel, edge_skel, number_skel, mono_skel]

theorem State.enqueueMesh_skel (s : State) (i : DownItem) : (State.enqueueMesh s i).skel = s.skel := by
  unfold State.enqueueMesh
  simp only [foldl_skel, implies_true, State.enqueue_skel]

theorem State.enqueueAll_skel (s : State) (cls : Nat) (m : Msg) (octets due : Nat) : (State.enqueueAll s cls m octets due).skel = s.skel := by
  unfold State.enqueueAll
  simp only [apply_ite State.skel, ite_self, foldl_skel, implies_true, State.enqueue_skel, State.enqueueMesh_skel]

theorem State.nextSeq_skel (s : State) : (State.nextSeq s).2.skel = s.skel := by
  unfold State.nextSeq
  simp only [skel_mk, pending_skel, part_skel, phase_skel, mode_skel, paused_skel, edge_skel, number_skel, mono_skel]

theorem State.connHeard_skel (s : State) (lid : Nat) : (State.connHeard s lid).skel = s.skel := by
  unfold State.connHeard
  simp only [skel_mk, pending_skel, part_skel, phase_skel, mode_skel, paused_skel, edge_skel, number_skel, mono_skel, apply_ite State.skel, ite_self, State.addSat_skel, State.setConn_skel]

theorem State.holdDst_skel (s : State) (lid : Nat) : (State.holdDst s lid).skel = s.skel := by
  unfold State.holdDst
  simp only [skel_mk, pending_skel, part_skel, phase_skel, mode_skel, paused_skel, edge_skel, number_skel, mono_skel, State.setBit_skel]

theorem State.windowGone_skel (s : State) (lid : Nat) : (State.windowGone s lid).skel = s.skel := by
  unfold State.windowGone
  simp only [skel_mk, pending_skel, part_skel, phase_skel, mode_skel, paused_skel, edge_skel, number_skel, mono_skel, apply_ite State.skel, ite_self]

theorem State.connDrop_skel (s : State) (lid : Nat) : (State.connDrop s lid).skel = s.skel := by
  unfold State.connDrop
  simp only [State.setBit_skel, State.addSat_skel, State.setConn_skel, State.holdDst_skel, State.windowGone_skel]

theorem State.setBeadState_skel (s : State) (n : Nat) (st : Nat) : (State.setBeadState s n st).skel = s.skel := by
  unfold State.setBeadState
  simp only [State.setFld_skel]

theorem State.syncIdle_skel (s : State) (t : Nat) : (State.syncIdle s t).skel = s.skel := by
  unfold State.syncIdle State.markBusy
  dsimp only
  rw [State.setBit_skel]
  (repeat' split) <;> rfl

theorem State.setRp_skel (s : State) (t : Nat) (p : Nat) : (State.setRp s t p).skel = s.skel := by
  unfold State.setRp
  simp only [State.syncIdle_skel, State.setFld_skel]

theorem State.setCur_skel (s : State) (r : Nat) (c : Option Nat) : (State.setCur s r c).skel = s.skel := by
  unfold State.setCur
  (repeat' split) <;> (first | with_reducible rfl | (simp only [State.syncIdle_skel, State.setFld_skel, State.setBit_skel]; done))

theorem State.begin_skel (s : State) (n : Nat) (arrival : Nat) : (State.begin s n arrival).skel = s.skel := by
  unfold State.begin
  simp only [State.setBit_skel, State.setBead_skel]

theorem State.syncParked_skel (s : State) (r : Nat) : (State.syncParked s r).skel = s.skel := by
  unfold State.syncParked
  simp only [State.setFld_skel]

theorem State.resume_skel (s : State) (r : Nat) (slot : Nat) : (State.resume s r slot).skel = s.skel := by
  unfold State.resume
  simp only [State.setRod_skel, State.syncParked_skel, State.setCur_skel, State.setBead_skel]

theorem State.selectNext_skel (s : State) (r : Nat) : (State.selectNext s r).skel = s.skel := by
  unfold State.selectNext
  (repeat' split) <;> (first | (simp_all only [skel_mk, pending_skel, part_skel, phase_skel, mode_skel, paused_skel, edge_skel, number_skel, mono_skel, apply_ite State.skel, ite_self, foldl_skel, implies_true, State.setCur_skel, State.resume_skel, State.setBeadState_skel, State.setRod_skel]; done) | grind [State.setCur_skel, State.resume_skel, State.setBeadState_skel, State.setRod_skel, skel_mk, foldl_skel])

theorem State.kick_skel (s : State) (r : Nat) : (State.kick s r).skel = s.skel := by
  unfold State.kick
  simp only [apply_ite State.skel, ite_self, State.selectNext_skel]

theorem State.setClaim_skel (s : State) (t : Nat) (w : Word) : (State.setClaim s t w).skel = s.skel := by
  unfold State.setClaim
  simp only [State.wr_skel]

theorem State.startHandler_skel (s : State) (n : Nat) (r : Nat) (arrival : Nat) : (State.startHandler s n r arrival).skel = s.skel := by
  unfold State.startHandler
  simp only [State.setRod_skel, State.begin_skel, State.setBead_skel, State.setCur_skel, State.setBeadState_skel]

theorem State.endClaim_skel (s : State) (n : Nat) : (State.endClaim s n).skel = s.skel := by
  unfold State.endClaim
  simp only [apply_ite State.skel, ite_self, State.setBit_skel, State.addSat_skel]

theorem State.endService_skel (s : State) (t : Nat) : (State.endService s t).1.skel = s.skel := by
  unfold State.endService
  simp only [apply_ite State.skel, ite_self, apply_ite Prod.fst, State.setFld_skel, State.setTarget_skel, State.endClaim_skel]

theorem State.endCond_skel (s : State) (n : Nat) : (State.endCond s n).skel = s.skel := by
  unfold State.endCond
  (repeat' split) <;> (first | with_reducible rfl | (simp only [skel_mk, pending_skel, part_skel, phase_skel, mode_skel, paused_skel, edge_skel, number_skel, mono_skel, apply_ite State.skel, ite_self, foldl_skel, implies_true, State.wr_skel, State.setFld_skel, State.setBit_skel]; done))

theorem State.startCond_skel (s : State) (n : Nat) : (State.startCond s n).skel = s.skel := by
  unfold State.startCond
  (repeat' split) <;> (first | with_reducible rfl | (simp only [skel_mk, pending_skel, part_skel, phase_skel, mode_skel, paused_skel, edge_skel, number_skel, mono_skel, apply_ite State.skel, ite_self, foldl_skel, implies_true, State.wr_skel, State.setFld_skel, State.setBit_skel]; done))

theorem State.unmark_skel (s : State) (n : Nat) : (State.unmark s n).skel = s.skel := by
  unfold State.unmark
  simp only [skel_mk, pending_skel, part_skel, phase_skel, mode_skel, paused_skel, edge_skel, number_skel, mono_skel]

theorem State.noteDrop_skel (n : Nat) (s0 s : State) : (State.noteDrop n s0 s).skel = s.skel := by
  unfold State.noteDrop
  simp only [skel_mk, pending_skel, part_skel, phase_skel, mode_skel, paused_skel, edge_skel, number_skel, mono_skel, apply_ite State.skel, ite_self, State.addSat_skel, State.unmark_skel]

theorem State.fltNote_skel (s : State) : (State.fltNote s).skel = s.skel := by
  unfold State.fltNote
  simp only [State.setBit_skel]

theorem State.startTimer_skel (s : State) (t : Nat) : (State.startTimer s t).skel = s.skel := by
  unfold State.startTimer
  simp only [State.setTarget_skel]

theorem State.popContext_skel (s : State) (t : Nat) : (State.popContext s t).skel = s.skel := by
  unfold State.popContext
  (repeat' split) <;> (first | (simp_all only [skel_mk, pending_skel, part_skel, phase_skel, mode_skel, paused_skel, edge_skel, number_skel, mono_skel, apply_ite State.skel, ite_self, foldl_skel, implies_true, State.setClaim_skel, State.selectNext_skel, State.setRod_skel, State.setTarget_skel, State.resume_skel, State.setCur_skel]; done) | grind [State.setClaim_skel, State.selectNext_skel, State.setRod_skel, State.setTarget_skel, State.resume_skel, State.setCur_skel, skel_mk, foldl_skel])

theorem State.setPrevAt_skel (s : State) (t : Nat) (k : Nat) (v : Nat) : (State.setPrevAt s t k v).skel = s.skel := by
  unfold State.setPrevAt
  simp only [apply_ite State.skel, ite_self, State.setTarget_skel, State.setClaim_skel]

theorem State.handDown_skel (s : State) (t k v : Nat) : (State.handDown s t k v).skel = s.skel := by
  unfold State.handDown
  (repeat' split) <;> (first | with_reducible rfl | (simp only [skel_mk, pending_skel, part_skel, phase_skel, mode_skel, paused_skel, edge_skel, number_skel, mono_skel, apply_ite State.skel, ite_self, foldl_skel, implies_true, State.setRp_skel, State.setPrevAt_skel]; done))

theorem State.endAt_skel (s : State) (t k : Nat) : (State.endAt s t k).skel = s.skel := by
  unfold State.endAt
  simp only [apply_ite State.skel, ite_self, State.setFld_skel, State.setTarget_skel, State.endClaim_skel, State.handDown_skel]

theorem State.unstack_skel (s : State) (t : Nat) (slot : Nat) : (State.unstack s t slot).skel = s.skel := by
  unfold State.unstack
  (repeat' split) <;> (first | (simp_all only [skel_mk, pending_skel, part_skel, phase_skel, mode_skel, paused_skel, edge_skel, number_skel, mono_skel, apply_ite State.skel, ite_self, foldl_skel, implies_true, State.setTarget_skel, State.endAt_skel, State.setRod_skel]; done) | grind [State.setTarget_skel, State.endAt_skel, State.setRod_skel, skel_mk, foldl_skel])

theorem State.setLeaf_skel (s : State) (l : Nat) (g : Leafing) : (State.setLeaf s l g).skel = s.skel := by
  unfold State.setLeaf
  simp only [skel_mk, pending_skel, part_skel, phase_skel, mode_skel, paused_skel, edge_skel, number_skel, mono_skel]

theorem State.noteSend_skel (s : State) (x : SegSend) : (State.noteSend s x).skel = s.skel := by
  unfold State.noteSend
  simp only [State.setLeaf_skel]

theorem State.takeParts_skel (s : State) (id : Nat) : (State.takeParts s id).skel = s.skel := by
  unfold State.takeParts
  simp only [skel_mk, pending_skel, part_skel, phase_skel, mode_skel, paused_skel, edge_skel, number_skel, mono_skel, foldl_skel, implies_true, State.setTlq_skel]

theorem State.queueBroadcast_skel (s : State) (id frame : Nat) (xs : List SegSend) : (State.queueBroadcast s id frame xs).skel = s.skel := by
  unfold State.queueBroadcast
  simp only [skel_mk, pending_skel, part_skel, phase_skel, mode_skel, paused_skel, edge_skel, number_skel, mono_skel, foldl_skel, implies_true, State.setFld_skel, State.enqueueAll_skel]

theorem State.sendBroadcast_skel (s : State) (frame : Nat) (xs : List SegSend) : (State.sendBroadcast s frame xs).skel = s.skel := by
  unfold State.sendBroadcast
  (repeat' split) <;> (first | with_reducible rfl | (simp only [skel_mk, pending_skel, part_skel, phase_skel, mode_skel, paused_skel, edge_skel, number_skel, mono_skel, apply_ite State.skel, ite_self, foldl_skel, implies_true, State.takeParts_skel, State.queueBroadcast_skel]; done))

theorem State.stageChan_skel (s : State) (x : SegSend) : (State.stageChan s x).skel = s.skel := by
  unfold State.stageChan
  simp only [skel_mk, pending_skel, part_skel, phase_skel, mode_skel, paused_skel, edge_skel, number_skel, mono_skel, apply_ite State.skel, ite_self]

theorem State.sendLevels_skel (s : State) (xs : List SegSend) : (State.sendLevels s xs).skel = s.skel := by
  unfold State.sendLevels
  simp only [foldl_skel, implies_true, State.noteSend_skel, State.sendBroadcast_skel, State.stageChan_skel]

theorem State.dropRest_skel (s : State) (l old granted : Nat) : (State.dropRest s l old granted).skel = s.skel := by
  unfold State.dropRest
  simp only [State.setLeaf_skel]

theorem State.settle_skel (s : State) (first : Bool) (xs : List SegSend) : (State.settle s first xs).1.skel = s.skel := by
  unfold State.settle
  simp only [skel_mk, pending_skel, part_skel, phase_skel, mode_skel, paused_skel, edge_skel, number_skel, mono_skel, foldl_skel, implies_true, State.setFld_skel, State.setBit_skel, State.addSat_skel, State.noteDrop_skel, State.dropRest_skel]

theorem State.tallySnap_skel (s : State) : (State.tallySnap s).skel = s.skel := by
  unfold State.tallySnap
  (repeat' split) <;> (first | with_reducible rfl | (simp only [skel_mk, pending_skel, part_skel, phase_skel, mode_skel, paused_skel, edge_skel, number_skel, mono_skel, foldl_skel, implies_true, State.setFld_skel, State.setBit_skel]; done))

theorem State.tallyTake_skel (s : State) : (State.tallyTake s).skel = s.skel := by
  unfold State.tallyTake
  simp only [skel_mk, pending_skel, part_skel, phase_skel, mode_skel, paused_skel, edge_skel, number_skel, mono_skel]

theorem State.forceChan_skel (source : Nat) (s : State) (c : Nat) (level : Nat) : (State.forceChan source s c level).skel = s.skel := by
  unfold State.forceChan
  simp only [State.chanMove_skel, State.setLeaf_skel]

theorem State.garnetLeaves_skel (s : State) : (State.garnetLeaves s).skel = s.skel := by
  unfold State.garnetLeaves
  simp only [skel_mk, pending_skel, part_skel, phase_skel, mode_skel, paused_skel, edge_skel, number_skel, mono_skel, apply_ite State.skel, ite_self, foldl_skel, implies_true, State.setLeaf_skel, State.chanHandover_skel]

theorem State.cmdResult_skel (s : State) (handle : Nat) (lid : Nat) (st : Status) (dup : Bool) (data : List Byte) : (State.cmdResult s handle lid st dup data).skel = s.skel := by
  unfold State.cmdResult
  simp only [State.wr_skel, State.setFld_skel, State.assertSrc_skel, State.addWrap_skel]

theorem State.cmdSend_skel (s : State) (lid : Nat) : (State.cmdSend s lid).skel = s.skel := by
  unfold State.cmdSend
  (repeat' split) <;> (first | (simp_all only [skel_mk, pending_skel, part_skel, phase_skel, mode_skel, paused_skel, edge_skel, number_skel, mono_skel, apply_ite State.skel, ite_self, foldl_skel, implies_true, State.enqueue_skel, State.setLeaf_skel]; done) | grind [State.enqueue_skel, State.setLeaf_skel, skel_mk, foldl_skel])

theorem State.cmdPut_skel (s : State) (lid : Nat) (c : SegCmd) : (State.cmdPut s lid c).skel = s.skel := by
  unfold State.cmdPut
  simp only [apply_ite State.skel, ite_self, State.setLeaf_skel, State.cmdSend_skel]

theorem State.cmdRequest_skel (s : State) (handle : Nat) (lid : Nat) (code : Nat) (payload : List Byte) (session : Option Nat) : (State.cmdRequest s handle lid code payload session).2.skel = s.skel := by
  unfold State.cmdRequest
  (repeat' split) <;> (first | with_reducible rfl | (simp only [State.cmdPut_skel, State.addSat_skel]; done))

theorem State.letPark_skel (s : State) (r : Nat) : (State.letPark s r).skel = s.skel := by
  unfold State.letPark
  (repeat' split) <;> (first | with_reducible rfl | (simp only [skel_mk, pending_skel, part_skel, phase_skel, mode_skel, paused_skel, edge_skel, number_skel, mono_skel, apply_ite State.skel, ite_self, foldl_skel, implies_true, State.setRod_skel, State.setCur_skel, State.syncParked_skel]; done))

theorem State.setAside_skel (s : State) (r : Nat) : (State.setAside s r).skel = s.skel := by
  unfold State.setAside
  (repeat' split) <;> (first | with_reducible rfl | (simp only [skel_mk, pending_skel, part_skel, phase_skel, mode_skel, paused_skel, edge_skel, number_skel, mono_skel, apply_ite State.skel, ite_self, foldl_skel, implies_true, State.setRod_skel, State.setCur_skel]; done))

theorem State.dropPortCredit_skel (s : State) (r slot : Nat) : (State.dropPortCredit s r slot).skel = s.skel := by
  unfold State.dropPortCredit
  simp only [skel_mk, pending_skel, part_skel, phase_skel, mode_skel, paused_skel, edge_skel, number_skel, mono_skel]

theorem State.syncNext_skel (s : State) (n : Nat) : (State.syncNext s n).skel = s.skel := by
  unfold State.syncNext
  simp only [State.setFld_skel]

theorem State.queueLog_skel (s : State) (n : Nat) : (State.queueLog s n).skel = s.skel := by
  unfold State.queueLog
  simp only [skel_mk, pending_skel, part_skel, phase_skel, mode_skel, paused_skel, edge_skel, number_skel, mono_skel, State.setBead_skel]

theorem State.dropLog_skel (s : State) (n : Nat) : (State.dropLog s n).skel = s.skel := by
  unfold State.dropLog
  simp only [State.setBead_skel]

theorem State.park_skel (s : State) (r n bursts pc : Nat) : (State.park s r n bursts pc).skel = s.skel := by
  unfold State.park
  simp only [apply_ite State.skel, ite_self, State.setBead_skel, State.setRod_skel, State.syncParked_skel, State.selectNext_skel]

theorem State.charge_skel (s : State) (r : Nat) (cyc : Nat) : (State.charge s r cyc).skel = s.skel := by
  unfold State.charge
  simp only [State.setRod_skel]

theorem State.writeSelector_skel (s : State) (slot : Nat) (trial : Bool) : (State.writeSelector s slot trial).skel = s.skel := by
  unfold State.writeSelector
  simp only [skel_mk, pending_skel, part_skel, phase_skel, mode_skel, paused_skel, edge_skel, number_skel, mono_skel, State.setFld_skel, State.setBit_skel]

theorem State.bootSelect_skel (s : State) : (State.bootSelect s).skel = s.skel := by
  unfold State.bootSelect
  simp only [State.setFld_skel, State.setBit_skel]

theorem State.routeAdv_skel (s : State) : (State.routeAdv s).skel = s.skel := by
  unfold State.routeAdv
  simp only [skel_mk, pending_skel, part_skel, phase_skel, mode_skel, paused_skel, edge_skel, number_skel, mono_skel, State.enqueueMesh_skel]

theorem State.metCtShow_skel (s : State) : (State.metCtShow s).skel = s.skel := by
  unfold State.metCtShow
  (repeat' split) <;> (first | with_reducible rfl | (simp only [skel_mk, pending_skel, part_skel, phase_skel, mode_skel, paused_skel, edge_skel, number_skel, mono_skel, apply_ite State.skel, ite_self, foldl_skel, implies_true, State.setFld_skel, State.setBit_skel]; done))

theorem State.inputsSnap_skel (s : State) : (State.inputsSnap s).skel = s.skel := by
  unfold State.inputsSnap
  simp only [skel_mk, pending_skel, part_skel, phase_skel, mode_skel, paused_skel, edge_skel, number_skel, mono_skel]

theorem State.toIsland_skel (s : State) (typ : Nat) (payload : List Byte) : (State.toIsland s typ payload).skel = s.skel := by
  unfold State.toIsland
  simp only [skel_mk, pending_skel, part_skel, phase_skel, mode_skel, paused_skel, edge_skel, number_skel, mono_skel, State.emit_skel]

theorem State.noteWrite_skel (a : Nat) (s t : State) : (State.noteWrite a s t).skel = t.skel := by
  unfold State.noteWrite
  split
  · exact State.noteDrop_skel _ _ _
  · rfl

theorem State.twinRestore_skel (s : State) (addr : Nat) : (State.twinRestore s addr).skel = s.skel := by
  unfold State.twinRestore
  simp only [skel_mk, pending_skel, part_skel, phase_skel, mode_skel, paused_skel, edge_skel, number_skel, mono_skel]

theorem State.showLost_skel (s : State) : (State.showLost s).skel = s.skel := by
  unfold State.showLost
  simp only [foldl_skel, implies_true, State.setBit_skel]

theorem State.markAck_skel (s : State) (a : AckDue) (bits : Nat) : (State.markAck s a bits).skel = s.skel := by
  unfold State.markAck
  simp only [skel_mk, pending_skel, part_skel, phase_skel, mode_skel, paused_skel, edge_skel, number_skel, mono_skel]

theorem State.ackDrop_skel (s : State) (a : AckDue) : (State.ackDrop s a).skel = s.skel := by
  unfold State.ackDrop
  simp only [skel_mk, pending_skel, part_skel, phase_skel, mode_skel, paused_skel, edge_skel, number_skel, mono_skel, State.addSat_skel, State.markAck_skel]

theorem State.srcHeard_skel (s : State) (src : RxAddr) : (State.srcHeard s src).skel = s.skel := by
  unfold State.srcHeard
  (repeat' split) <;> (first | with_reducible rfl | (simp only [skel_mk, pending_skel, part_skel, phase_skel, mode_skel, paused_skel, edge_skel, number_skel, mono_skel, apply_ite State.skel, ite_self, foldl_skel, implies_true, State.setConn_skel, State.connHeard_skel]; done))

theorem State.rxKeep_skel (s : State) (f : RxFrame) (x mode chan mtch ns : Nat) : (State.rxKeep s f x mode chan mtch ns).skel = s.skel := by
  unfold State.rxKeep
  simp only [skel_mk, pending_skel, part_skel, phase_skel, mode_skel, paused_skel, edge_skel, number_skel, mono_skel, State.addSat_skel]

theorem State.steerStop_skel (s : State) : (State.steerStop s).skel = s.skel := by
  unfold State.steerStop
  simp only [apply_ite State.skel, ite_self, State.setBit_skel]

theorem State.fromIsland_skel (s : State) (typ : Nat) (payload : List Byte) : (State.fromIsland s typ payload).skel = s.skel := by
  unfold State.fromIsland
  simp only [skel_mk, pending_skel, part_skel, phase_skel, mode_skel, paused_skel, edge_skel, number_skel, mono_skel, State.emit_skel]

theorem State.readReq_skel (s : State) (kind first count : Nat) : (State.readReq s kind first count).skel = s.skel := by
  unfold State.readReq
  simp only [apply_ite State.skel, ite_self, foldl_skel, implies_true, State.toIsland_skel, State.fromIsland_skel]

theorem State.islHello_skel (s : State) : (State.islHello s).skel = s.skel := by
  unfold State.islHello
  simp only [State.fromIsland_skel]

theorem State.flightFailed_skel (s : State) (g : Flight) : (State.flightFailed s g).skel = s.skel := by
  unfold State.flightFailed
  extract_lets src s1 c
  have h1 : s1.skel = s.skel := by
    show (match g.item.msg with
      | .joinRsp _ _ short _ _ _ => _
      | _ => s).skel = s.skel
    split <;> rfl
  split
  · exact (State.setConn_skel _ _ _).trans h1
  · exact h1

theorem State.ptpHear_skel (s : State) (p : Nat) (via : PtpVia) (f : State → State) (hf : ∀ t, (f t).skel = t.skel) :
    (State.ptpHear s p via f).skel = s.skel := by
  unfold State.ptpHear
  split
  · rfl
  · split
    · exact State.addSat_skel _ _ _ _ _
    · split
      · exact hf _
      · rfl

theorem State.loopsHeld_skel (s : State) : (State.loopsHeld s).skel = s.skel := by
  unfold State.loopsHeld
  simp only [apply_ite State.skel, ite_self, State.loopsSwitch_skel]

theorem State.sampleNext_skel (s : State) (l : Nat) : (State.sampleNext s l).skel = s.skel := by
  unfold State.sampleNext
  simp only [skel_mk, pending_skel, part_skel, phase_skel, mode_skel, paused_skel, edge_skel, number_skel, mono_skel]

theorem State.markBusy_skel (s : State) (t : Nat) : (State.markBusy s t).skel = s.skel := by
  unfold State.markBusy
  simp only [skel_mk, pending_skel, part_skel, phase_skel, mode_skel, paused_skel, edge_skel, number_skel, mono_skel, apply_ite State.skel, ite_self]

theorem State.watchStart_skel (s : State) : (State.watchStart s).skel = s.skel := by
  unfold State.watchStart
  simp only [skel_mk, pending_skel, part_skel, phase_skel, mode_skel, paused_skel, edge_skel, number_skel, mono_skel]

theorem State.dropLeft_skel (s : State) (j : Nat) : (State.dropLeft s j).skel = s.skel := by
  unfold State.dropLeft
  simp only [skel_mk, pending_skel, part_skel, phase_skel, mode_skel, paused_skel, edge_skel, number_skel, mono_skel, apply_ite State.skel, ite_self]

theorem State.deafen_skel (s : State) (ds : List Nat) (span : Nat × Nat) : (State.deafen s ds span).skel = s.skel := by
  unfold State.deafen
  simp only [skel_mk, pending_skel, part_skel, phase_skel, mode_skel, paused_skel, edge_skel, number_skel, mono_skel]

theorem State.sessClear_skel (s : State) (i : Nat) : (State.sessClear s i).skel = s.skel := by
  unfold State.sessClear
  simp only [skel_mk, pending_skel, part_skel, phase_skel, mode_skel, paused_skel, edge_skel, number_skel, mono_skel, State.wr_skel]

theorem State.notAgain_skel (s : State) (i : Nat) : (State.notAgain s i).skel = s.skel := by
  unfold State.notAgain
  simp only [skel_mk, pending_skel, part_skel, phase_skel, mode_skel, paused_skel, edge_skel, number_skel, mono_skel]

theorem State.addBlob_skel (s : State) (b : Nat × List Byte × List Byte) : (State.addBlob s b).skel = s.skel := by
  unfold State.addBlob
  simp only [skel_mk, pending_skel, part_skel, phase_skel, mode_skel, paused_skel, edge_skel, number_skel, mono_skel, apply_ite State.skel, ite_self]

theorem State.unsealData_skel (s : State) (k : Nat) (key iv c : List Byte) : (State.unsealData s k key iv c).skel = s.skel := by
  unfold State.unsealData
  (repeat' split) <;> (first | with_reducible rfl | (simp only [skel_mk, pending_skel, part_skel, phase_skel, mode_skel, paused_skel, edge_skel, number_skel, mono_skel, apply_ite State.skel, ite_self, foldl_skel, implies_true, State.emit_skel]; done))

theorem State.metWant_skel (s : State) (first n : Nat) : (State.metWant s first n).skel = s.skel := by
  unfold State.metWant
  simp only [skel_mk, pending_skel, part_skel, phase_skel, mode_skel, paused_skel, edge_skel, number_skel, mono_skel, State.readReq_skel]

theorem State.unreserve_skel (s : State) (f : RxFrame) : (State.unreserve s f).skel = s.skel := by
  unfold State.unreserve
  simp only [skel_mk, pending_skel, part_skel, phase_skel, mode_skel, paused_skel, edge_skel, number_skel, mono_skel]

theorem State.holdLeap_skel (s : State) (due : Option (Nat × Bool)) (l61 l59 : Bool) : (State.holdLeap s due l61 l59).skel = s.skel := by
  unfold State.holdLeap
  simp only [skel_mk, pending_skel, part_skel, phase_skel, mode_skel, paused_skel, edge_skel, number_skel, mono_skel, State.setBit_skel]

theorem State.takeLeap_skel (s : State) (l61 l59 : Bool) : (State.takeLeap s l61 l59).skel = s.skel := by
  unfold State.takeLeap
  simp only [apply_ite State.skel, ite_self, State.holdLeap_skel]

theorem State.netStart_skel (s : State) (net : Int) : (State.netStart s net).skel = s.skel := by
  unfold State.netStart
  dsimp only
  (repeat' split) <;> (first | rfl | (simp_all only [skel_mk, pending_skel, part_skel, phase_skel, mode_skel, paused_skel, edge_skel, number_skel, mono_skel, apply_ite State.skel, ite_self, foldl_skel, implies_true, State.takeLeap_skel]; done) | grind [State.takeLeap_skel, skel_mk, foldl_skel])

theorem State.ownFill_skel (s : State) : (State.ownFill s).skel = s.skel := by
  unfold State.ownFill
  (repeat' split) <;> (first | with_reducible rfl | (simp only [skel_mk, pending_skel, part_skel, phase_skel, mode_skel, paused_skel, edge_skel, number_skel, mono_skel, apply_ite State.skel, ite_self, foldl_skel, implies_true, State.cmdSend_skel]; done))

theorem State.islMonth_skel (s : State) : (State.islMonth s).skel = s.skel := by
  unfold State.islMonth
  simp only [skel_mk, pending_skel, part_skel, phase_skel, mode_skel, paused_skel, edge_skel, number_skel, mono_skel, apply_ite State.skel, ite_self]

theorem State.metReceive_skel (s : State) (us typ : Nat) (bytes : List Byte) (f : State → List Byte → State)
    (h : ∀ t p, (f t p).skel = t.skel) : (s.metReceive us typ bytes f).skel = s.skel := by
  unfold State.metReceive
  split
  · rw [foldl_skel _ h, State.addSat_skel, State.atUs_skel]
  · rfl

theorem State.rxPhr_skel (s : State) (f : RxFrame) : (State.rxPhr s f).skel = s.skel := by
  unfold State.rxPhr
  simp only [skel_mk, pending_skel, part_skel, phase_skel, mode_skel, paused_skel, edge_skel, number_skel, mono_skel, apply_ite State.skel, ite_self, State.setBit_skel, State.addSat_skel]

theorem State.noteVledin_skel (s : State) (vledin : Nat) (ok : Bool) : (State.noteVledin s vledin ok).skel = s.skel := by
  unfold State.noteVledin
  simp only [skel_mk, pending_skel, part_skel, phase_skel, mode_skel, paused_skel, edge_skel, number_skel, mono_skel]

theorem State.pwmBegin_skel (s : State) : (State.pwmBegin s).skel = s.skel := by
  unfold State.pwmBegin
  simp only [skel_mk, pending_skel, part_skel, phase_skel, mode_skel, paused_skel, edge_skel, number_skel, mono_skel]

theorem State.rtcClock_skel (s : State) (us : Nat) : (State.rtcClock s us).skel = s.skel := by
  unfold State.rtcClock
  (repeat' split) <;> (first | with_reducible rfl | (simp only [skel_mk, pending_skel, part_skel, phase_skel, mode_skel, paused_skel, edge_skel, number_skel, mono_skel, apply_ite State.skel, ite_self, foldl_skel, implies_true, State.atUs_skel]; done))

end Sys2Proof.Machine
end

