-- ==== Sys2Proof/Laws/SkelUnits.lean ====
section
/-! SUPPORT. What the skeleton of a state is after each operation: the units, from the flow reckoner to network time. -/

namespace Sys2Proof.Machine

open State

theorem State.setEvin_skel (s : State) (i : Nat) (q : List EvEntry) : (State.setEvin s i q).skel = s.skel := by
  unfold State.setEvin
  simp only [skel_mk, pending_skel, part_skel, phase_skel, mode_skel, paused_skel, edge_skel, number_skel, mono_skel, State.setFld_skel]

theorem State.evinEdge_skel (s : State) (i count : Nat) (rising : Bool) : (State.evinEdge s i count rising).skel = s.skel := by
  unfold State.evinEdge
  simp only [apply_ite State.skel, ite_self, State.setBit_skel, State.addSat_skel, State.setEvin_skel]

theorem State.fltSync_skel (s : State) : (State.fltSync s).skel = s.skel := by
  unfold State.fltSync
  simp only [State.setFld_skel]

theorem State.fltServe_skel (s : State) (r : FaultRec) : (State.fltServe s r).skel = s.skel := by
  unfold State.fltServe
  simp only [skel_mk, pending_skel, part_skel, phase_skel, mode_skel, paused_skel, edge_skel, number_skel, mono_skel, State.fltSync_skel]

theorem State.fltFirst_skel (s : State) (cls : Nat) : (State.fltFirst s cls).skel = s.skel := by
  unfold State.fltFirst
  simp only [apply_ite State.skel, ite_self, State.addSat_skel, State.fltNote_skel, State.fltServe_skel]

theorem State.setRtcTime_skel (s : State) (t : RtcTime) : (State.setRtcTime s t).skel = s.skel := by
  unfold State.setRtcTime
  simp only [State.wr_skel]

theorem State.rtcCold_skel (s : State) : (State.rtcCold s).skel = s.skel := by
  unfold State.rtcCold
  simp only [skel_mk, pending_skel, part_skel, phase_skel, mode_skel, paused_skel, edge_skel, number_skel, mono_skel, State.setRtcTime_skel, State.setFld_skel, State.setBit_skel, State.wr_skel]

theorem State.setNtuPort_skel (s : State) (p : Nat) (x : NtuPort) : (State.setNtuPort s p x).skel = s.skel := by
  unfold State.setNtuPort
  simp only [skel_mk, pending_skel, part_skel, phase_skel, mode_skel, paused_skel, edge_skel, number_skel, mono_skel]

theorem State.portSync_skel (s : State) : (State.portSync s).skel = s.skel := by
  unfold State.portSync
  simp only [skel_mk, pending_skel, part_skel, phase_skel, mode_skel, paused_skel, edge_skel, number_skel, mono_skel, apply_ite State.skel, ite_self, foldl_skel, implies_true, State.setFld_skel, State.setBit_skel, State.setNtuPort_skel]

theorem State.setNtuState_skel (s : State) (st : Nat) : (State.setNtuState s st).skel = s.skel := by
  unfold State.setNtuState
  simp only [skel_mk, pending_skel, part_skel, phase_skel, mode_skel, paused_skel, edge_skel, number_skel, mono_skel, apply_ite State.skel, ite_self, State.setBit_skel, State.setFld_skel, State.setReady_skel, State.clearReady_skel]

theorem State.holdover_skel (s : State) (jump : Bool) : (State.holdover s jump).skel = s.skel := by
  unfold State.holdover
  simp only [skel_mk, pending_skel, part_skel, phase_skel, mode_skel, paused_skel, edge_skel, number_skel, mono_skel, State.setBit_skel, State.setNtuState_skel, State.setFldI_skel]

theorem State.notifyAll_skel (s : State) (topic : Nat) (data : List Nat) : (State.notifyAll s topic data).skel = s.skel := by
  unfold State.notifyAll
  simp only [apply_ite State.skel, ite_self, foldl_skel, implies_true, State.emit_skel]

theorem State.photoWrite_skel (s : State) : (State.photoWrite s).skel = s.skel := by
  unfold State.photoWrite
  simp only [apply_ite State.skel, ite_self, foldl_skel, implies_true, State.feederCmd_skel]

theorem State.photoSync_skel (s : State) : (State.photoSync s).skel = s.skel := by
  unfold State.photoSync
  simp only [apply_ite State.skel, ite_self, State.setBit_skel, State.photoWrite_skel]

theorem State.bootMeasure_skel (s : State) : (State.bootMeasure s).skel = s.skel := by
  unfold State.bootMeasure
  simp only [skel_mk, pending_skel, part_skel, phase_skel, mode_skel, paused_skel, edge_skel, number_skel, mono_skel, foldl_skel, implies_true, State.setFld_skel]

theorem State.setKeySlot_skel (s : State) (k : Nat) (x : KeySlot) : (State.setKeySlot s k x).skel = s.skel := by
  unfold State.setKeySlot
  simp only [skel_mk, pending_skel, part_skel, phase_skel, mode_skel, paused_skel, edge_skel, number_skel, mono_skel]

theorem State.showKey_skel (s : State) (k : Nat) (st : Nat) : (State.showKey s k st).skel = s.skel := by
  unfold State.showKey
  (repeat' split) <;> (first | with_reducible rfl | (simp only [State.setFld_skel, State.setBit_skel]; done))

theorem State.deriveSlot_skel (s : State) (k : Nat) : (State.deriveSlot s k).skel = s.skel := by
  unfold State.deriveSlot
  (repeat' split) <;> (first | with_reducible rfl | (simp only [State.showKey_skel, State.setKeySlot_skel]; done))

theorem State.deriveAll_skel (s : State) : (State.deriveAll s).skel = s.skel := by
  unfold State.deriveAll
  simp only [foldl_skel, implies_true, State.deriveSlot_skel]

theorem State.unbind_skel (s : State) (n : Nat) : (State.unbind s n).skel = s.skel := by
  unfold State.unbind
  simp only [State.setBit_skel, State.setFld_skel]

theorem State.setImage_skel (s : State) (i : Nat) (x : Image) : (State.setImage s i x).skel = s.skel := by
  unfold State.setImage
  simp only [skel_mk, pending_skel, part_skel, phase_skel, mode_skel, paused_skel, edge_skel, number_skel, mono_skel]

theorem State.lceAutoclose_skel (s : State) : (State.lceAutoclose s).skel = s.skel := by
  unfold State.lceAutoclose
  simp only [apply_ite State.skel, ite_self, foldl_skel, implies_true, State.loopClose_skel]

theorem State.dropLogs_skel (s : State) : (State.dropLogs s).skel = s.skel := by
  unfold State.dropLogs
  simp only [skel_mk, pending_skel, part_skel, phase_skel, mode_skel, paused_skel, edge_skel, number_skel, mono_skel, foldl_skel, implies_true, State.setBead_skel]

theorem State.rodsStop_skel (s : State) : (State.rodsStop s).skel = { s.skel with phase := .stopped } := by
  have hb : ∀ t : State, ({ t with bar := {} } : State).skel = t.skel := fun _ => rfl
  have hp : ∀ t : State, ({ t with fr := { t.fr with phase := .stopped } } : State).skel = { t.skel with phase := .stopped } :=
    fun _ => rfl
  unfold State.rodsStop
  rw [State.clearReady_skel]
  refine (hb _).trans ((foldl_skel _ (fun _ _ => State.setCur_skel _ _ _) _ _).trans ?_)
  rw [State.dropLogs_skel]
  exact hp s

theorem State.keyCopy2_skel (s : State) (k : Nat) : (State.keyCopy2 s k).skel = s.skel := by
  unfold State.keyCopy2
  (repeat' split) <;> (first | (simp_all only [skel_mk, pending_skel, part_skel, phase_skel, mode_skel, paused_skel, edge_skel, number_skel, mono_skel, apply_ite State.skel, ite_self, foldl_skel, implies_true, State.setKeySlot_skel, State.setFld_skel]; done) | grind [State.setKeySlot_skel, State.setFld_skel, skel_mk, foldl_skel])

theorem State.keySync_skel (s : State) : (State.keySync s).skel = s.skel := by
  unfold State.keySync
  simp only [foldl_skel, implies_true, State.keyCopy2_skel, State.setKeySlot_skel]

theorem State.g1Remap_skel (s : State) : (State.g1Remap s).skel = s.skel := by
  unfold State.g1Remap
  simp only [apply_ite State.skel, ite_self, foldl_skel, implies_true, State.enqueue_skel, State.setConn_skel]

theorem State.retune_skel (s : State) (ds : List Nat) : (State.retune s ds).skel = s.skel := by
  unfold State.retune
  simp only [State.deafen_skel]

theorem State.agateRestore_skel (s : State) : (State.agateRestore s).skel = s.skel := by
  unfold State.agateRestore
  (repeat' split) <;> (first | with_reducible rfl | (simp only [skel_mk, pending_skel, part_skel, phase_skel, mode_skel, paused_skel, edge_skel, number_skel, mono_skel, apply_ite State.skel, ite_self, foldl_skel, implies_true, State.setFld_skel, State.g1Remap_skel, State.retune_skel]; done))

theorem State.activatingBack_skel (s : State) : (State.activatingBack s).skel = s.skel := by
  unfold State.activatingBack
  simp only [foldl_skel, implies_true, State.setFld_skel]

theorem State.setSess_skel (s : State) (i : Nat) (x : Session) : (State.setSess s i x).skel = s.skel := by
  unfold State.setSess
  simp only [skel_mk, pending_skel, part_skel, phase_skel, mode_skel, paused_skel, edge_skel, number_skel, mono_skel]

theorem State.respond_skel (s : State) (i : Nat) (id : Nat) (st : Status) (res : List Int) : (State.respond s i id st res).skel = s.skel := by
  unfold State.respond
  simp only [apply_ite State.skel, ite_self, State.setSess_skel, State.emit_skel]

theorem State.syncSessions_skel (s : State) : (State.syncSessions s).skel = s.skel := by
  unfold State.syncSessions
  simp only [State.setFld_skel]

theorem State.txnDrop_skel (s : State) (i : Nat) : (State.txnDrop s i).skel = s.skel := by
  unfold State.txnDrop
  simp only [State.setFld_skel, State.setBit_skel, State.setSess_skel]

theorem State.clearSlot_skel (s : State) (i : Nat) : (State.clearSlot s i).skel = s.skel := by
  unfold State.clearSlot
  simp only [skel_mk, pending_skel, part_skel, phase_skel, mode_skel, paused_skel, edge_skel, number_skel, mono_skel, State.wr_skel]

theorem State.ntuOnyx_skel (s : State) : (State.ntuOnyx s).skel = s.skel := by
  unfold State.ntuOnyx
  dsimp only
  (repeat' split) <;> (first | rfl | (simp_all only [skel_mk, pending_skel, part_skel, phase_skel, mode_skel, paused_skel, edge_skel, number_skel, mono_skel, apply_ite State.skel, ite_self, foldl_skel, implies_true, State.holdover_skel]; done) | grind [State.holdover_skel, skel_mk, foldl_skel])

theorem State.imgResult_skel (s : State) (i : Nat) (st : Status) (reason : Nat) : (State.imgResult s i st reason).skel = s.skel := by
  unfold State.imgResult
  simp only [State.setFld_skel]

theorem State.verifyAgain_skel (s : State) : (State.verifyAgain s).skel = s.skel := by
  unfold State.verifyAgain
  refine (foldl_skel _ ?_ _ _).trans rfl
  intro t i
  split
  · rfl
  · exact State.imgResult_skel _ _ _ _

theorem State.setFlow_skel (s : State) (f : Flow) : (State.setFlow s f).skel = s.skel := by
  unfold State.setFlow
  simp only [skel_mk, pending_skel, part_skel, phase_skel, mode_skel, paused_skel, edge_skel, number_skel, mono_skel]

theorem State.flowSnap_skel (s : State) (beforeNs : Nat) : (State.flowSnap s beforeNs).skel = s.skel := by
  unfold State.flowSnap
  simp only [skel_mk, pending_skel, part_skel, phase_skel, mode_skel, paused_skel, edge_skel, number_skel, mono_skel, apply_ite State.skel, ite_self, State.setFlow_skel, State.setBit_skel]

theorem State.flowAges_skel (s : State) : (State.flowAges s).skel = s.skel := by
  unfold State.flowAges
  simp only [mono_skel, apply_ite State.skel, ite_self, foldl_skel, implies_true, State.setFld_skel, State.setFlow_skel]

theorem State.radSnap_skel (s : State) (edge : Nat) : (State.radSnap s edge).skel = s.skel := by
  unfold State.radSnap
  simp only [skel_mk, pending_skel, part_skel, phase_skel, mode_skel, paused_skel, edge_skel, number_skel, mono_skel]

theorem State.noteRoute_skel (s : State) (n : RouteNote) : (State.noteRoute s n).skel = s.skel := by
  unfold State.noteRoute
  simp only [skel_mk, pending_skel, part_skel, phase_skel, mode_skel, paused_skel, edge_skel, number_skel, mono_skel, apply_ite State.skel, ite_self, State.setLan_skel, State.setBit_skel, State.setConn_skel]

theorem State.reachSnap_skel (edge : Nat) (s : State) (lid : Nat) : (State.reachSnap edge s lid).skel = s.skel := by
  unfold State.reachSnap
  simp only [apply_ite State.skel, ite_self, State.setLan_skel]

theorem State.linkSnap_skel (s : State) (edge : Nat) : (State.linkSnap s edge).skel = s.skel := by
  unfold State.linkSnap
  simp only [skel_mk, pending_skel, part_skel, phase_skel, mode_skel, paused_skel, edge_skel, number_skel, mono_skel, apply_ite State.skel, ite_self, foldl_skel, implies_true, State.noteRoute_skel, State.reachSnap_skel, State.routeAdv_skel]

theorem State.ainCodes_skel (s : State) (codes : List Nat) : (State.ainCodes s codes).skel = s.skel := by
  unfold State.ainCodes
  simp only [foldl_skel, implies_true, State.setFld_skel]

theorem State.lceEdge_skel (s : State) (codes : List Nat) : (State.lceEdge s codes).skel = s.skel := by
  unfold State.lceEdge
  simp only [skel_mk, pending_skel, part_skel, phase_skel, mode_skel, paused_skel, edge_skel, number_skel, mono_skel, State.ainCodes_skel]

theorem State.shorten_skel (vbus : Nat) (x1 : Nat) (x2 : State) (x3 : List Nat) (x4 : Nat) : (State.shorten vbus x1 x2 x3 x4).skel = x2.skel := by
  (fun_induction State.shorten vbus x1 x2 x3 x4 <;> grind [State.setDchan_skel, skel_mk, foldl_skel])

theorem State.dissipation_skel (s : State) (vbus : Nat) : (State.dissipation s vbus).skel = s.skel := by
  unfold State.dissipation
  simp only [part_skel, apply_ite State.skel, ite_self, foldl_skel, implies_true, State.setFld_skel, State.setBit_skel, State.ramp_skel, State.shorten_skel, State.setDchan_skel]

theorem State.handOver_skel (s : State) (vbus : Nat) (replace : Bool) : (State.handOver s vbus replace).skel = s.skel := by
  unfold State.handOver
  (repeat' split) <;> (first | (simp_all only [skel_mk, pending_skel, part_skel, phase_skel, mode_skel, paused_skel, edge_skel, number_skel, mono_skel, apply_ite State.skel, ite_self, foldl_skel, implies_true, State.setFld_skel, State.ramp_skel, State.setBit_skel]; done) | grind [State.setFld_skel, State.ramp_skel, State.setBit_skel, skel_mk, foldl_skel])

theorem State.busSettle_skel (s : State) (vbus : Nat) : (State.busSettle s vbus).skel = s.skel := by
  unfold State.busSettle
  (repeat' split) <;> (first | with_reducible rfl | (simp only [State.handOver_skel, State.ramp_skel]; done))

theorem State.takeLevels_skel (s : State) : (State.takeLevels s).skel = s.skel := by
  unfold State.takeLevels
  simp only [skel_mk, pending_skel, part_skel, phase_skel, mode_skel, paused_skel, edge_skel, number_skel, mono_skel, foldl_skel, implies_true, State.chanTake_skel]

theorem State.drvConfig_skel (s : State) : (State.drvConfig s).skel = s.skel := by
  unfold State.drvConfig
  simp only [skel_mk, pending_skel, part_skel, phase_skel, mode_skel, paused_skel, edge_skel, number_skel, mono_skel, apply_ite State.skel, ite_self, foldl_skel, implies_true, State.setDchan_skel, State.busRecovery_skel]

theorem State.drvTherm_skel (s : State) (bank : Int) : (State.drvTherm s bank).skel = s.skel := by
  unfold State.drvTherm
  simp only [skel_mk, pending_skel, part_skel, phase_skel, mode_skel, paused_skel, edge_skel, number_skel, mono_skel, State.setFldI_skel]

theorem State.drvEdge_skel (s : State) (x : Sense) : (State.drvEdge s x).skel = s.skel := by
  unfold State.drvEdge
  simp only [apply_ite State.skel, ite_self, State.setFld_skel, State.dissipation_skel, State.busSettle_skel, State.takeLevels_skel, State.drvConfig_skel, State.drvTherm_skel]

theorem State.rtcResult_skel (s : State) (st : Status) (source : Nat) : (State.rtcResult s st source).skel = s.skel := by
  unfold State.rtcResult
  simp only [State.setFld_skel]

theorem State.powerRequest_skel (s : State) (agate : Bool) : (State.powerRequest s agate).skel = s.skel := by
  unfold State.powerRequest
  simp only [skel_mk, pending_skel, part_skel, phase_skel, mode_skel, paused_skel, edge_skel, number_skel, mono_skel, apply_ite State.skel, ite_self, State.setBit_skel]

theorem State.almFire_skel (s : State) (a : Nat) (late : Bool) : (State.almFire s a late).skel = s.skel := by
  unfold State.almFire
  simp only [apply_ite State.skel, ite_self, State.setFld_skel, State.setBit_skel, State.powerRequest_skel]

theorem State.almSkips_skel (s : State) (old : Int) (new : Int) : (State.almSkips s old new).skel = s.skel := by
  unfold State.almSkips
  simp only [apply_ite State.skel, ite_self, foldl_skel, implies_true, State.almFire_skel]

theorem State.updHalf_skel (s : State) (k : Nat) (f : KeyHalf → KeyHalf) : (State.updHalf s k f).skel = s.skel := by
  unfold State.updHalf
  (repeat' split) <;> (first | (simp_all only [skel_mk, pending_skel, part_skel, phase_skel, mode_skel, paused_skel, edge_skel, number_skel, mono_skel, apply_ite State.skel, ite_self, foldl_skel, implies_true, State.setKeySlot_skel]; done) | grind [State.setKeySlot_skel, skel_mk, foldl_skel])

theorem State.keyEdge_skel (s : State) : (State.keyEdge s).skel = s.skel := by
  unfold State.keyEdge
  simp only [apply_ite State.skel, ite_self, foldl_skel, implies_true, State.updHalf_skel, State.setKeySlot_skel, State.deriveAll_skel]

theorem State.tickEdge_skel (s : State) : (State.tickEdge s).skel = s.skel.ticked s.nextEdge (s.fr.mono + 1) := by
  unfold State.tickEdge
  simp only [State.addSat_skel, State.setBit_skel, State.setFldI_skel]
  rfl

theorem State.admitSync_skel (s : State) : (State.admitSync s).skel = s.skel := by
  unfold State.admitSync
  simp only [foldl_skel, implies_true, State.setFld_skel]

theorem State.loadBead_skel (s : State) (p : Place) : (State.loadBead s p).skel = s.skel := by
  unfold State.loadBead
  simp only [State.setBit_skel, State.wr_skel, State.setBead_skel, State.setFld_skel, State.syncNext_skel]

theorem State.startNow_skel (s : State) (n : Nat) : (State.startNow s n).skel = s.skel := by
  unfold State.startNow
  simp only [State.syncNext_skel, State.setBeadState_skel, State.setBead_skel]

theorem State.imageMemory_skel (s : State) (m : Mpi) (old : Option Mpi) (bs : List Byte) : (State.imageMemory s m old bs).skel = s.skel := by
  unfold State.imageMemory
  simp only [skel_mk, pending_skel, part_skel, phase_skel, mode_skel, paused_skel, edge_skel, number_skel, mono_skel]

theorem State.bindAll_skel (s : State) (m : Mpi) (ps : List Place) : (State.bindAll s m ps).skel = s.skel := by
  unfold State.bindAll
  (repeat' split) <;> (first | (simp_all only [skel_mk, pending_skel, part_skel, phase_skel, mode_skel, paused_skel, edge_skel, number_skel, mono_skel, apply_ite State.skel, ite_self, foldl_skel, implies_true, State.setFld_skel, State.setBit_skel]; done) | grind [State.setFld_skel, State.setBit_skel, skel_mk, foldl_skel])

theorem State.beadRequests_skel (s : State) (n : Nat) : (State.beadRequests s n).skel = s.skel := by
  unfold State.beadRequests
  simp only [apply_ite State.skel, ite_self, State.startNow_skel, State.syncNext_skel, State.setBeadState_skel, State.setBead_skel, State.wr_skel, State.setFld_skel]

theorem State.writeSwset_skel (s : State) (k : Nat) (v : Word) : (State.writeSwset s k v).2.skel = s.skel := by
  unfold State.writeSwset
  simp only [apply_ite State.skel, ite_self, foldl_skel, implies_true, State.assertSrc_skel]

theorem State.writeSrcCfg_skel (s : State) (who : Requester) (n : Nat) (v : Word) : (State.writeSrcCfg s who n v).2.skel = s.skel := by
  unfold State.writeSrcCfg
  simp only [apply_ite State.skel, ite_self, apply_ite Prod.snd, State.setFld_skel, State.unmark_skel]

theorem State.icuWrite_skel (s : State) (who : Requester) (a : Nat) (v : Word) (t : _) (h : State.icuWrite s who a v = some t) : t.2.skel = s.skel := by
  unfold State.icuWrite at h
  grind [State.setFld_skel, State.writeSwset_skel, State.writeSrcCfg_skel, skel_mk]

theorem State.fltAck_skel (s : State) : (State.fltAck s).skel = s.skel := by
  unfold State.fltAck
  simp only [State.setBit_skel]

theorem State.writeBeadCtrl_skel (s : State) (n : Nat) (v : Word) : (State.writeBeadCtrl s n v).2.skel = s.skel := by
  unfold State.writeBeadCtrl
  (repeat' split) <;> (first | (simp_all only [skel_mk, pending_skel, part_skel, phase_skel, mode_skel, paused_skel, edge_skel, number_skel, mono_skel, apply_ite State.skel, ite_self, foldl_skel, implies_true, State.setBead_skel, State.setBeadState_skel]; done) | grind [State.setBead_skel, State.setBeadState_skel, skel_mk, foldl_skel])

theorem State.imgActivate_skel (s : State) (i : Nat) : (State.imgActivate s i).2.skel = s.skel := by
  unfold State.imgActivate
  (repeat' split) <;> (first | with_reducible rfl | (simp only [State.imgResult_skel, State.setFld_skel, State.setImage_skel]; done))

theorem State.beadStop_skel (s : State) (n : Nat) : (State.beadStop s n).skel = s.skel := by
  unfold State.beadStop
  simp only [apply_ite State.skel, ite_self, State.setBead_skel, State.setBeadState_skel, State.syncNext_skel]

theorem State.imgDeactivate_skel (s : State) (i : Nat) : (State.imgDeactivate s i).2.skel = s.skel := by
  unfold State.imgDeactivate
  simp only [apply_ite State.skel, ite_self, foldl_skel, implies_true, apply_ite Prod.snd, State.setFld_skel, State.unbind_skel, State.setImage_skel, State.beadStop_skel, State.notAgain_skel]

theorem State.trialWrite_skel (s : State) (n : Nat) : (State.trialWrite s n).skel = s.skel := by
  unfold State.trialWrite
  simp only [apply_ite State.skel, ite_self, State.addSat_skel]

theorem State.leaveSlot_skel (s : State) (i : Nat) : (State.leaveSlot s i).skel = s.skel := by
  unfold State.leaveSlot
  simp only [foldl_skel, implies_true, State.setBead_skel, State.setImage_skel]

theorem State.writeRxpart_skel (s : State) (p : Nat) (v : Word) : (State.writeRxpart s p v).2.skel = s.skel := by
  unfold State.writeRxpart
  (repeat' split) <;> (first | (simp_all only [skel_mk, pending_skel, part_skel, phase_skel, mode_skel, paused_skel, edge_skel, number_skel, mono_skel, apply_ite State.skel, ite_self, foldl_skel, implies_true, State.setFld_skel]; done) | grind [State.setFld_skel, skel_mk, foldl_skel])

theorem State.writeWin_skel (s0 : State) (x : Nat) (v : Word) : (State.writeWin s0 x v).2.skel = s0.skel := by
  unfold State.writeWin
  extract_lets src s s1
  have h : s.skel = s0.skel := by
    show (if x = 0 then _ else s0).skel = s0.skel
    split <;> rfl
  have h1 : s1.skel = s0.skel := (State.setFld_skel _ _ _ _ _).trans h
  clear_value s s1
  split
  · exact h1
  · exact (State.g1Remap_skel _).trans ((State.retune_skel _ _).trans h1)

theorem State.writeHopCfg_skel (s : State) (h : Nat) (v : Word) : (State.writeHopCfg s h v).2.skel = s.skel := by
  unfold State.writeHopCfg
  simp only [skel_mk, pending_skel, part_skel, phase_skel, mode_skel, paused_skel, edge_skel, number_skel, mono_skel, apply_ite State.skel, ite_self, State.wr_skel, apply_ite Prod.snd]

theorem State.writeHopEnt_skel (s : State) (i : Nat) (v : Word) : (State.writeHopEnt s i v).2.skel = s.skel := by
  unfold State.writeHopEnt
  (repeat' split) <;> (first | with_reducible rfl | (simp only [State.wr_skel]; done))

theorem State.writeLinkCfg_skel (s : State) (v : Word) : (State.writeLinkCfg s v).2.skel = s.skel := by
  unfold State.writeLinkCfg
  simp only [skel_mk, pending_skel, part_skel, phase_skel, mode_skel, paused_skel, edge_skel, number_skel, mono_skel, apply_ite State.skel, ite_self, apply_ite Prod.snd, State.wr_skel, State.g1Remap_skel]

theorem State.writeLinkMap_skel (s : State) (v : Word) : (State.writeLinkMap s v).2.skel = s.skel := by
  unfold State.writeLinkMap
  simp only [skel_mk, pending_skel, part_skel, phase_skel, mode_skel, paused_skel, edge_skel, number_skel, mono_skel, apply_ite State.skel, ite_self, State.setFld_skel, State.enqueueAll_skel, apply_ite Prod.snd]

theorem State.ptpDisable_skel (s : State) : (State.ptpDisable s).skel = s.skel := by
  unfold State.ptpDisable
  simp only [skel_mk, pending_skel, part_skel, phase_skel, mode_skel, paused_skel, edge_skel, number_skel, mono_skel, apply_ite State.skel, ite_self, State.holdover_skel]

theorem State.writeNtuCtrl_skel (s : State) (v : Word) : (State.writeNtuCtrl s v).2.skel = s.skel := by
  unfold State.writeNtuCtrl
  simp only [apply_ite State.skel, ite_self, State.wr_skel, State.ptpDisable_skel, State.portSync_skel]

theorem State.writeJumpAccept_skel (s : State) (v : Word) : (State.writeJumpAccept s v).2.skel = s.skel := by
  unfold State.writeJumpAccept
  (repeat' split) <;> (first | with_reducible rfl | (simp only [skel_mk, pending_skel, part_skel, phase_skel, mode_skel, paused_skel, edge_skel, number_skel, mono_skel]; done))

theorem State.ntuWrite_skel (s : State) (a : Nat) (v : Word) (t : _) (h : State.ntuWrite s a v = some t) : t.2.skel = s.skel := by
  unfold State.ntuWrite at h
  grind [State.writeNtuCtrl_skel, State.writeJumpAccept_skel, State.portSync_skel, State.wr_skel, skel_mk]

theorem State.writeDrvCtrl_skel (s : State) (v : Word) : (State.writeDrvCtrl s v).2.skel = s.skel := by
  unfold State.writeDrvCtrl
  simp only [apply_ite State.skel, ite_self, State.setBit_skel, State.busOff_skel, State.ramp_skel, State.clearMeasured_skel, State.setFld_skel, State.busTry_skel, apply_ite Prod.snd]

theorem State.drvRestart_skel (s : State) : (State.drvRestart s).skel = s.skel := by
  unfold State.drvRestart
  simp only [skel_mk, pending_skel, part_skel, phase_skel, mode_skel, paused_skel, edge_skel, number_skel, mono_skel, State.setFld_skel, State.setBit_skel, State.busTry_skel, State.noteDrop_skel]

theorem State.writeDrvRestart_skel (s : State) (v : Word) : (State.writeDrvRestart s v).2.skel = s.skel := by
  unfold State.writeDrvRestart
  (repeat' split) <;> (first | with_reducible rfl | (simp only [State.drvRestart_skel]; done))

theorem State.writeIset_skel (s : State) (v : Word) : (State.writeIset s v).2.skel = s.skel := by
  unfold State.writeIset
  (repeat' split) <;> (first | with_reducible rfl | (simp only [State.setFld_skel]; done))

theorem State.vmaxSet_skel (s : State) : (State.vmaxSet s).skel = s.skel := by
  unfold State.vmaxSet
  simp only [apply_ite State.skel, ite_self, State.ramp_skel, State.busSettle_skel]

theorem State.writeChanCfg_skel (s : State) (c : Nat) (v : Word) : (State.writeChanCfg s c v).2.skel = s.skel := by
  unfold State.writeChanCfg
  simp only [skel_mk, pending_skel, part_skel, phase_skel, mode_skel, paused_skel, edge_skel, number_skel, mono_skel, apply_ite State.skel, ite_self, State.wr_skel, apply_ite Prod.snd]

theorem State.drvWrite_skel (s : State) (a : Nat) (v : Word) (t : _) (h : State.drvWrite s a v = some t) : t.2.skel = s.skel := by
  unfold State.drvWrite at h
  grind [State.writeDrvCtrl_skel, State.writeDrvRestart_skel, State.writeIset_skel, State.vmaxSet_skel, State.wr_skel, State.writeChanCfg_skel, State.feederCmd_skel, State.syncFeedback_skel, State.coil_skel, State.setBit_skel, skel_mk]

theorem State.writeAoutMan_skel (s : State) (k : Nat) (v : Word) : (State.writeAoutMan s k v).2.skel = s.skel := by
  unfold State.writeAoutMan
  (repeat' split) <;> (first | with_reducible rfl | (simp only [State.setLoopOut_skel, State.setFld_skel]; done))

theorem State.writeLceCtrl_skel (s : State) (l : Nat) (v : Word) : (State.writeLceCtrl s l v).2.skel = s.skel := by
  unfold State.writeLceCtrl
  simp only [apply_ite State.skel, ite_self, State.loopClose_skel, State.loopOpen_skel, apply_ite Prod.snd]

theorem State.writeLceCfg_skel (s : State) (l : Nat) (v : Word) : (State.writeLceCfg s l v).2.skel = s.skel := by
  unfold State.writeLceCfg
  simp only [part_skel, apply_ite State.skel, ite_self, State.wr_skel, apply_ite Prod.snd]

theorem State.writeLoopReg_skel (s : State) (l : Nat) (o : Nat) (v : Word) : (State.writeLoopReg s l o v).2.skel = s.skel := by
  unfold State.writeLoopReg
  (repeat' split) <;> (first | with_reducible rfl | (simp only [State.writeLceCfg_skel, State.wr_skel]; done))

theorem State.writeAlmCtrl_skel (s : State) (a : Nat) (v : Word) : (State.writeAlmCtrl s a v).2.skel = s.skel := by
  unfold State.writeAlmCtrl
  (repeat' split) <;> (first | with_reducible rfl | (simp only [State.setFld_skel]; done))

theorem State.syncQueue_skel (s : State) : (State.syncQueue s).skel = s.skel := by
  unfold State.syncQueue
  simp only [State.setFld_skel]

theorem State.keyBusy_skel (s : State) : (State.keyBusy s).skel = s.skel := by
  unfold State.keyBusy
  simp only [State.addSat_skel]

theorem State.halfWrite_skel (s : State) (k : Nat) (h : KeyHalf) : (State.halfWrite s k h).skel = s.skel := by
  unfold State.halfWrite
  simp only [apply_ite State.skel, ite_self, State.setFld_skel, State.setKeySlot_skel]

theorem State.keyStart_skel (s : State) : (State.keyStart s).skel = s.skel := by
  unfold State.keyStart
  dsimp only
  (repeat' split) <;> (first | rfl | (simp_all only [skel_mk, pending_skel, part_skel, phase_skel, mode_skel, paused_skel, edge_skel, number_skel, mono_skel, apply_ite State.skel, ite_self, foldl_skel, implies_true, State.syncQueue_skel, State.halfWrite_skel]; done) | grind [State.syncQueue_skel, State.halfWrite_skel, skel_mk, foldl_skel])

theorem State.keyQueue_skel (s : State) (j : KeyJob) : (State.keyQueue s j).skel = s.skel := by
  unfold State.keyQueue
  simp only [skel_mk, pending_skel, part_skel, phase_skel, mode_skel, paused_skel, edge_skel, number_skel, mono_skel, State.keyStart_skel]

theorem State.setWchRule_skel (s : State) (r : Nat) (x : WchRule) : (State.setWchRule s r x).skel = s.skel := by
  unfold State.setWchRule
  simp only [skel_mk, pending_skel, part_skel, phase_skel, mode_skel, paused_skel, edge_skel, number_skel, mono_skel]

theorem State.wchWrite_skel (s : State) (a : Nat) (v : Word) (t : _) (h : State.wchWrite s a v = some t) : t.2.skel = s.skel := by
  unfold State.wchWrite at h
  grind [State.wr_skel, State.photoSync_skel, State.setBit_skel, State.setWchRule_skel, skel_mk]

theorem State.unqueue_skel (s : State) (i : DownItem) : (State.unqueue s i).skel = s.skel := by
  unfold State.unqueue
  simp only [skel_mk, pending_skel, part_skel, phase_skel, mode_skel, paused_skel, edge_skel, number_skel, mono_skel]

theorem State.offerItem_skel (s : State) (i : DownItem) : (State.offerItem s i).skel = s.skel := by
  unfold State.offerItem
  (repeat' split) <;> (first | (simp_all only [skel_mk, pending_skel, part_skel, phase_skel, mode_skel, paused_skel, edge_skel, number_skel, mono_skel, apply_ite State.skel, ite_self, foldl_skel, implies_true, State.nextSeq_skel, State.tlqOffer_skel, State.unqueue_skel]; done) | grind [State.nextSeq_skel, State.tlqOffer_skel, State.unqueue_skel, skel_mk, foldl_skel])

theorem State.offerUrgent_skel (x0 : Nat) (x1 : State) : (State.offerUrgent x0 x1).skel = x1.skel := by
  (fun_induction State.offerUrgent x0 x1 <;> grind [State.offerItem_skel, skel_mk, foldl_skel])

theorem State.offerNow_skel (s : State) : (State.offerNow s).skel = s.skel := by
  unfold State.offerNow
  simp only [State.offerUrgent_skel]

theorem State.suppressAcks_skel (s : State) (x : Nat) (span : Nat × Nat) : (State.suppressAcks s x span).skel = s.skel := by
  unfold State.suppressAcks
  simp only [foldl_skel, implies_true, State.ackDrop_skel]

theorem State.addAir_skel (s : State) (x : Nat) (ns : Nat) : (State.addAir s x ns).skel = s.skel := by
  unfold State.addAir
  simp only [skel_mk, pending_skel, part_skel, phase_skel, mode_skel, paused_skel, edge_skel, number_skel, mono_skel, State.addSat_skel]

theorem State.transmit_skel (s : State) (x mode chan : Nat) (span : Nat × Nat) : (State.transmit s x mode chan span).skel = s.skel := by
  unfold State.transmit
  simp only [skel_mk, pending_skel, part_skel, phase_skel, mode_skel, paused_skel, edge_skel, number_skel, mono_skel, apply_ite State.skel, ite_self, State.emit_skel, State.addAir_skel]

theorem State.launchSend_skel (s : State) (x : Nat) (e : TlqEntry) (d : Nat) : (State.launchSend s x e d).skel = s.skel := by
  unfold State.launchSend
  simp only [skel_mk, pending_skel, part_skel, phase_skel, mode_skel, paused_skel, edge_skel, number_skel, mono_skel, apply_ite State.skel, ite_self, State.setFld_skel, State.addSat_skel, State.emit_skel, State.setTlq_skel, State.suppressAcks_skel, State.transmit_skel]

theorem State.keyErase_skel (s : State) (k : Nat) : (State.keyErase s k).skel = s.skel := by
  unfold State.keyErase
  simp only [apply_ite State.skel, ite_self, State.setFld_skel, State.setKeySlot_skel]

theorem State.forwardOne_skel (t : State) (bmr : List Byte) (b : Nat × List Byte × List Byte) : (State.forwardOne t bmr b).skel = t.skel := by
  unfold State.forwardOne
  (repeat' split) <;> (first | with_reducible rfl | (simp only [skel_mk, pending_skel, part_skel, phase_skel, mode_skel, paused_skel, edge_skel, number_skel, mono_skel, apply_ite State.skel, ite_self, foldl_skel, implies_true, State.addSat_skel, State.setKeySlot_skel]; done))

theorem State.sealData_skel (s : State) (k : Nat) (key data : List Byte) : (State.sealData s k key data).skel = s.skel := by
  unfold State.sealData
  (repeat' split) <;> (first | (simp_all only [skel_mk, pending_skel, part_skel, phase_skel, mode_skel, paused_skel, edge_skel, number_skel, mono_skel, apply_ite State.skel, ite_self, foldl_skel, implies_true, State.emit_skel, State.setKeySlot_skel, State.forwardOne_skel, State.addBlob_skel]; done) | grind [State.emit_skel, State.setKeySlot_skel, State.forwardOne_skel, State.addBlob_skel, skel_mk, foldl_skel])

theorem State.chanAuto_skel (s : State) (c : Nat) : (State.chanAuto s c).skel = s.skel := by
  unfold State.chanAuto
  (repeat' split) <;> (first | (simp_all only [skel_mk, pending_skel, part_skel, phase_skel, mode_skel, paused_skel, edge_skel, number_skel, mono_skel, apply_ite State.skel, ite_self, foldl_skel, implies_true, State.chanHandover_skel, State.setLeaf_skel]; done) | grind [State.chanHandover_skel, State.setLeaf_skel, skel_mk, foldl_skel])

theorem State.flowApply_skel (s : State) : (State.flowApply s).skel = s.skel := by
  unfold State.flowApply
  (repeat' split) <;> (first | (simp_all only [skel_mk, pending_skel, part_skel, phase_skel, mode_skel, paused_skel, edge_skel, number_skel, mono_skel, apply_ite State.skel, ite_self, foldl_skel, implies_true, State.setFld_skel, State.setBit_skel, State.setFlow_skel, State.showLost_skel]; done) | grind [State.setFld_skel, State.setBit_skel, State.setFlow_skel, State.showLost_skel, skel_mk, foldl_skel])

theorem State.flowElem_skel (m : FlowMsg) (s : State) (e : FlowElem) : (State.flowElem m s e).skel = s.skel := by
  unfold State.flowElem
  (repeat' split) <;> (first | with_reducible rfl | (simp only [skel_mk, pending_skel, part_skel, phase_skel, mode_skel, paused_skel, edge_skel, number_skel, mono_skel, apply_ite State.skel, ite_self, foldl_skel, implies_true, State.setFld_skel, State.setBit_skel, State.setFlow_skel]; done))

theorem State.flowMessages_skel (s : State) : (State.flowMessages s).skel = s.skel := by
  unfold State.flowMessages
  simp only [skel_mk, pending_skel, part_skel, phase_skel, mode_skel, paused_skel, edge_skel, number_skel, mono_skel, foldl_skel, implies_true, State.flowElem_skel]

theorem State.setHostPeer_skel (s : State) (p : Nat) (x : HostPeer) : (State.setHostPeer s p x).skel = s.skel := by
  unfold State.setHostPeer
  simp only [skel_mk, pending_skel, part_skel, phase_skel, mode_skel, paused_skel, edge_skel, number_skel, mono_skel]

theorem State.peerHeard_skel (s : State) (p : Nat) : (State.peerHeard s p).skel = s.skel := by
  unfold State.peerHeard
  simp only [State.setHostPeer_skel]

theorem State.xchgTo_skel (s : State) (p : Nat) : (State.xchgTo s p).skel = s.skel := by
  unfold State.xchgTo
  simp only [number_skel, apply_ite State.skel, ite_self, foldl_skel, implies_true, State.setFld_skel, State.addSat_skel, State.emit_skel]

theorem State.flowSend_skel (s : State) : (State.flowSend s).skel = s.skel := by
  unfold State.flowSend
  simp only [skel_mk, pending_skel, part_skel, phase_skel, mode_skel, paused_skel, edge_skel, number_skel, mono_skel, apply_ite State.skel, ite_self, foldl_skel, implies_true, State.xchgTo_skel, State.setFld_skel]

theorem State.flowFuse_skel (s : State) : (State.flowFuse s).skel = s.skel := by
  unfold State.flowFuse
  simp only [State.setFlow_skel, State.addSat_skel]

theorem State.flowUpdate_skel (s : State) : (State.flowUpdate s).skel = s.skel := by
  unfold State.flowUpdate
  simp only [skel_mk, pending_skel, part_skel, phase_skel, mode_skel, paused_skel, edge_skel, number_skel, mono_skel, apply_ite State.skel, ite_self, State.flowApply_skel, State.flowMessages_skel, State.setFlow_skel, State.flowFuse_skel, State.flowSend_skel]

theorem State.peerMessage_skel (s : State) (p : Nat) (frame : Nat) (elems : List FlowElem) : (State.peerMessage s p frame elems).skel = s.skel := by
  unfold State.peerMessage
  simp only [skel_mk, pending_skel, part_skel, phase_skel, mode_skel, paused_skel, edge_skel, number_skel, mono_skel, apply_ite State.skel, ite_self, foldl_skel, implies_true, State.setFld_skel, State.setBit_skel, State.assertSrc_skel, State.peerHeard_skel]

theorem State.bndLost_skel (s : State) (b : Nat) : (State.bndLost s b).skel = s.skel := by
  unfold State.bndLost
  simp only [skel_mk, pending_skel, part_skel, phase_skel, mode_skel, paused_skel, edge_skel, number_skel, mono_skel, State.setBit_skel]

theorem State.peerNote_skel (s : State) (src : RxAddr) (e : PeerEntry) : (State.peerNote s src e).skel = s.skel := by
  unfold State.peerNote
  (repeat' split) <;> (first | with_reducible rfl | (simp only [skel_mk, pending_skel, part_skel, phase_skel, mode_skel, paused_skel, edge_skel, number_skel, mono_skel]; done))

theorem State.ackQueue_skel (s : State) (a : AckDue) : (State.ackQueue s a).skel = s.skel := by
  unfold State.ackQueue
  simp only [skel_mk, pending_skel, part_skel, phase_skel, mode_skel, paused_skel, edge_skel, number_skel, mono_skel, apply_ite State.skel, ite_self, foldl_skel, implies_true, State.ackDrop_skel]

theorem State.connJoin_skel (s : State) (lid : Nat) : (State.connJoin s lid).skel = s.skel := by
  unfold State.connJoin
  simp only [skel_mk, pending_skel, part_skel, phase_skel, mode_skel, paused_skel, edge_skel, number_skel, mono_skel, State.setBit_skel, State.setConn_skel, State.windowGone_skel]

theorem State.ackFlight_skel (s : State) (trx seq e : Nat) : (State.ackFlight s trx seq e).skel = s.skel := by
  unfold State.ackFlight
  dsimp only
  (repeat' split) <;> (first | rfl | (simp_all only [skel_mk, pending_skel, part_skel, phase_skel, mode_skel, paused_skel, edge_skel, number_skel, mono_skel, apply_ite State.skel, ite_self, foldl_skel, implies_true, State.setConn_skel, State.connHeard_skel, State.connJoin_skel]; done) | grind [State.setConn_skel, State.connHeard_skel, State.connJoin_skel, skel_mk, foldl_skel])

theorem State.linkTake_skel (s : State) (f : RxFrame) (mtch : Nat) : (State.linkTake s f mtch).skel = s.skel := by
  unfold State.linkTake
  (repeat' split) <;> (first | with_reducible rfl | (simp only [skel_mk, pending_skel, part_skel, phase_skel, mode_skel, paused_skel, edge_skel, number_skel, mono_skel, apply_ite State.skel, ite_self, foldl_skel, implies_true, State.setConn_skel, State.routeAdv_skel, State.srcHeard_skel, State.enqueueMesh_skel]; done))

theorem State.rxStore_skel (s : State) (f : RxFrame) (x mode chan mtch ns : Nat) : (State.rxStore s f x mode chan mtch ns).skel = s.skel := by
  unfold State.rxStore
  simp only [apply_ite State.skel, ite_self, State.peerNote_skel, State.ackQueue_skel, State.linkTake_skel, State.rxKeep_skel]

theorem State.rxDuplicate_skel (s : State) (f : RxFrame) (x mode chan mtch ns : Nat) (entry : PeerEntry) : (State.rxDuplicate s f x mode chan mtch ns entry).skel = s.skel := by
  unfold State.rxDuplicate
  simp only [apply_ite State.skel, ite_self, State.addSat_skel, State.ackQueue_skel, State.srcHeard_skel]

theorem State.rxFrame_skel (s0 : State) (f : RxFrame) : (State.rxFrame s0 f).skel = s0.skel := by
  unfold State.rxFrame
  (repeat' split) <;> (first | (simp_all only [skel_mk, pending_skel, part_skel, phase_skel, mode_skel, paused_skel, edge_skel, number_skel, mono_skel, apply_ite State.skel, ite_self, foldl_skel, implies_true, State.addSat_skel, State.rxKeep_skel, State.ackFlight_skel, State.rxStore_skel, State.rxDuplicate_skel, State.unreserve_skel]; done) | grind [State.addSat_skel, State.rxKeep_skel, State.ackFlight_skel, State.rxStore_skel, State.rxDuplicate_skel, State.unreserve_skel, skel_mk, foldl_skel])

theorem State.ackSend_skel (s : State) (a : AckDue) : (State.ackSend s a).skel = s.skel := by
  unfold State.ackSend
  dsimp only
  (repeat' split) <;> (first | rfl | (simp_all only [skel_mk, pending_skel, part_skel, phase_skel, mode_skel, paused_skel, edge_skel, number_skel, mono_skel, apply_ite State.skel, ite_self, foldl_skel, implies_true, State.addSat_skel, State.emit_skel, State.setConn_skel, State.markAck_skel, State.ackDrop_skel, State.transmit_skel]; done) | grind [State.addSat_skel, State.emit_skel, State.setConn_skel, State.markAck_skel, State.ackDrop_skel, State.transmit_skel, skel_mk, foldl_skel])

theorem State.offerTree_skel (s : State) : (State.offerTree s).skel = s.skel := by
  unfold State.offerTree
  extract_lets ls
  split
  · rfl
  · split
    · extract_lets
      split <;> first | rfl | exact State.offerItem_skel _ _
    · rfl

theorem State.offerNext_skel (s : State) : (State.offerNext s).skel = s.skel := by
  unfold State.offerNext
  (repeat' split) <;> (first | with_reducible rfl | (simp only [State.offerItem_skel, State.offerTree_skel]; done))

theorem State.eventPass_skel (s : State) (lid : Nat) (ev : Nat) : (State.eventPass s lid ev).skel = s.skel := by
  unfold State.eventPass
  (repeat' split) <;> (first | (simp_all only [skel_mk, pending_skel, part_skel, phase_skel, mode_skel, paused_skel, edge_skel, number_skel, mono_skel, apply_ite State.skel, ite_self, foldl_skel, implies_true, State.setConn_skel]; done) | grind [State.setConn_skel, skel_mk, foldl_skel])

theorem State.eventMissed_skel (s : State) (lid : Nat) : (State.eventMissed s lid).skel = s.skel := by
  unfold State.eventMissed
  simp only [apply_ite State.skel, ite_self, State.setConn_skel]

theorem State.openWindow_skel (s : State) (lid : Nat) (ev : Nat) (guard : Nat) : (State.openWindow s lid ev guard).skel = s.skel := by
  unfold State.openWindow
  simp only [skel_mk, pending_skel, part_skel, phase_skel, mode_skel, paused_skel, edge_skel, number_skel, mono_skel, apply_ite State.skel, ite_self, State.eventPass_skel, State.eventMissed_skel, State.setConn_skel]

theorem State.closeWindow_skel (s : State) (lid : Nat) : (State.closeWindow s lid).skel = s.skel := by
  unfold State.closeWindow
  simp only [skel_mk, pending_skel, part_skel, phase_skel, mode_skel, paused_skel, edge_skel, number_skel, mono_skel, apply_ite State.skel, ite_self, State.setConn_skel, State.eventMissed_skel]

theorem State.photoSample_skel (s : State) (lx : Nat) : (State.photoSample s lx).skel = s.skel := by
  unfold State.photoSample
  extract_lets n d l _ s1 was dark s2
  have h_s1 : s1.skel = s.skel := by
    unfold s1
    (first | with_reducible rfl | (simp only [skel_mk, pending_skel, part_skel, phase_skel, mode_skel, paused_skel, edge_skel, number_skel, mono_skel, apply_ite State.skel, ite_self, foldl_skel, implies_true]; done) | ((repeat' split) <;> (first | with_reducible rfl | (simp only [skel_mk, pending_skel, part_skel, phase_skel, mode_skel, paused_skel, edge_skel, number_skel, mono_skel, apply_ite State.skel, ite_self, foldl_skel, implies_true]; done) | grind [skel_mk, foldl_skel])) | grind [skel_mk, foldl_skel])
  have h_s2 : s2.skel = s.skel := by
    unfold s2
    (first | with_reducible rfl | (simp only [skel_mk, pending_skel, part_skel, phase_skel, mode_skel, paused_skel, edge_skel, number_skel, mono_skel, apply_ite State.skel, ite_self, foldl_skel, implies_true, State.setBit_skel, h_s1]; done) | ((repeat' split) <;> (first | with_reducible rfl | (simp only [skel_mk, pending_skel, part_skel, phase_skel, mode_skel, paused_skel, edge_skel, number_skel, mono_skel, apply_ite State.skel, ite_self, foldl_skel, implies_true, State.setBit_skel, h_s1]; done) | grind [skel_mk, foldl_skel, State.setBit_skel, h_s1])) | grind [skel_mk, foldl_skel, State.setBit_skel, h_s1])
  (first | with_reducible rfl | (simp only [skel_mk, pending_skel, part_skel, phase_skel, mode_skel, paused_skel, edge_skel, number_skel, mono_skel, apply_ite State.skel, ite_self, foldl_skel, implies_true, State.photoWrite_skel, h_s1, h_s2]; done) | ((repeat' split) <;> (first | with_reducible rfl | (simp only [skel_mk, pending_skel, part_skel, phase_skel, mode_skel, paused_skel, edge_skel, number_skel, mono_skel, apply_ite State.skel, ite_self, foldl_skel, implies_true, State.photoWrite_skel, h_s1, h_s2]; done) | grind [skel_mk, foldl_skel, State.photoWrite_skel, h_s1, h_s2])) | grind [skel_mk, foldl_skel, State.photoWrite_skel, h_s1, h_s2])

theorem State.watchLatch_skel (s : State) (w : WatchIn) : (State.watchLatch s w).skel = s.skel := by
  unfold State.watchLatch
  simp only [foldl_skel, implies_true, State.setFld_skel, State.setBit_skel, State.setFldI_skel]

theorem State.onyxTick_skel (s : State) : (State.onyxTick s).skel = s.skel := by
  unfold State.onyxTick
  simp only [skel_mk, pending_skel, part_skel, phase_skel, mode_skel, paused_skel, edge_skel, number_skel, mono_skel]

theorem State.txnRefused_skel (s : State) (i id : Nat) : (State.txnRefused s i id).skel = s.skel := by
  unfold State.txnRefused
  simp only [apply_ite State.skel, ite_self, State.respond_skel, State.txnDrop_skel]

theorem State.sessHeard_skel (s : State) (i : Nat) : (State.sessHeard s i).skel = s.skel := by
  unfold State.sessHeard
  simp only [State.setSess_skel]

theorem State.calRestore_skel (s : State) : (State.calRestore s).skel = s.skel := by
  unfold State.calRestore
  simp only [skel_mk, pending_skel, part_skel, phase_skel, mode_skel, paused_skel, edge_skel, number_skel, mono_skel, apply_ite State.skel, ite_self, State.wr_skel]

theorem State.imgReceive_skel (s : State) (slot : Nat) (session : Nat) (id : Nat) : (State.imgReceive s slot session id).skel = s.skel := by
  unfold State.imgReceive
  simp only [State.setFld_skel, State.setImage_skel, State.clearSlot_skel]

theorem State.imgReceived_skel (s : State) (session : Nat) (id : Nat) (bs : List Byte) : (State.imgReceived s session id bs).skel = s.skel := by
  unfold State.imgReceived
  (repeat' split) <;> (first | with_reducible rfl | (simp only [State.setFld_skel, State.setImage_skel]; done))

theorem State.imgShow_skel (s : State) (i : Nat) (m : Mpi) : (State.imgShow s i m).skel = s.skel := by
  unfold State.imgShow
  simp only [State.setFld_skel]

theorem State.imgTimeout_skel (s : State) (i : Nat) : (State.imgTimeout s i).skel = s.skel := by
  unfold State.imgTimeout
  simp only [apply_ite State.skel, ite_self, State.imgResult_skel, State.setFld_skel]

theorem State.openStream_skel (s : State) (i : Nat) (id : Nat) (op : Nat) (len : Nat) (data : List Byte) : (State.openStream s i id op len data).skel = s.skel := by
  unfold State.openStream
  simp only [State.setSess_skel]

theorem State.closeStream_skel (s : State) (i : Nat) (id : Nat) : (State.closeStream s i id).skel = s.skel := by
  unfold State.closeStream
  simp only [State.setSess_skel]

theorem State.almTick_skel (s : State) (a : Nat) : (State.almTick s a).skel = s.skel := by
  unfold State.almTick
  simp only [apply_ite State.skel, ite_self, State.almFire_skel, State.addSat_skel, State.setFld_skel]

theorem State.rtcTick_skel (s0 : State) : (State.rtcTick s0).skel = s0.skel := by
  unfold State.rtcTick
  simp only [skel_mk, pending_skel, part_skel, phase_skel, mode_skel, paused_skel, edge_skel, number_skel, mono_skel, apply_ite State.skel, ite_self, State.setBit_skel, State.addWrap_skel, State.setRtcTime_skel, State.almTick_skel, State.steerStop_skel]

theorem State.rtcSteer_skel (s : State) : (State.rtcSteer s).skel = s.skel := by
  unfold State.rtcSteer
  simp only [skel_mk, pending_skel, part_skel, phase_skel, mode_skel, paused_skel, edge_skel, number_skel, mono_skel, apply_ite State.skel, ite_self, State.setFldI_skel, State.setBit_skel]

theorem State.calAdjust_skel (s : State) : (State.calAdjust s).skel = s.skel := by
  unfold State.calAdjust
  simp only [State.setFldI_skel]

theorem State.diagEvt_skel (s : State) (d : Nat) : (State.diagEvt s d).skel = s.skel := by
  unfold State.diagEvt
  (repeat' split) <;> (first | with_reducible rfl | (simp only [State.setBit_skel]; done))

theorem State.checkPass_skel (s : State) (c : Nat) (vf : Nat) : (State.checkPass s c vf).skel = s.skel := by
  unfold State.checkPass
  simp only [State.setFld_skel, State.setDchan_skel]

theorem State.loopSample_skel (s : State) (l : Nat) (x : LoopIn) : (State.loopSample s l x).skel = s.skel := by
  unfold State.loopSample
  simp only [skel_mk, pending_skel, part_skel, phase_skel, mode_skel, paused_skel, edge_skel, number_skel, mono_skel, State.setFldI_skel, State.setBit_skel, State.setLoopOut_skel]

theorem State.raiseJump_skel (s : State) (p : Nat) : (State.raiseJump s p).skel = s.skel := by
  unfold State.raiseJump
  simp only [skel_mk, pending_skel, part_skel, phase_skel, mode_skel, paused_skel, edge_skel, number_skel, mono_skel, State.setBit_skel, State.holdover_skel]

theorem State.servo_skel (s : State) (offset : Int) (logSync : Int) : (State.servo s offset logSync).skel = s.skel := by
  unfold State.servo
  simp only [skel_mk, pending_skel, part_skel, phase_skel, mode_skel, paused_skel, edge_skel, number_skel, mono_skel, State.setFldI_skel]

theorem State.lockRun_skel (s : State) (offset : Int) : (State.lockRun s offset).skel = s.skel := by
  unfold State.lockRun
  simp only [skel_mk, pending_skel, part_skel, phase_skel, mode_skel, paused_skel, edge_skel, number_skel, mono_skel]

theorem State.measureRtc_skel (s : State) (offset logSync : Int) : (State.measureRtc s offset logSync).skel = s.skel := by
  unfold State.measureRtc
  simp only [skel_mk, pending_skel, part_skel, phase_skel, mode_skel, paused_skel, edge_skel, number_skel, mono_skel, apply_ite State.skel, ite_self, State.servo_skel, State.lockRun_skel, State.netStart_skel]

theorem State.measureTrack_skel (s : State) (p : Nat) (offset : Int) (logSync : Int) : (State.measureTrack s p offset logSync).skel = s.skel := by
  unfold State.measureTrack
  simp only [apply_ite State.skel, ite_self, State.raiseJump_skel, State.lockRun_skel, State.servo_skel, State.setNtuState_skel]

theorem State.measureHold_skel (s : State) (p : Nat) (offset logSync : Int) : (State.measureHold s p offset logSync).skel = s.skel := by
  unfold State.measureHold
  simp only [skel_mk, pending_skel, part_skel, phase_skel, mode_skel, paused_skel, edge_skel, number_skel, mono_skel, apply_ite State.skel, ite_self, State.setBit_skel, State.setNtuState_skel, State.raiseJump_skel, State.servo_skel, State.lockRun_skel]

theorem State.setSat_skel (s : State) (f : Fld) (x : Int) (p : Nat) : (State.setSat s f x p).skel = s.skel := by
  unfold State.setSat
  simp only [State.setFldI_skel]

theorem State.takeUtc_skel (s : State) (a : Announce) : (State.takeUtc s a).skel = s.skel := by
  unfold State.takeUtc
  simp only [skel_mk, pending_skel, part_skel, phase_skel, mode_skel, paused_skel, edge_skel, number_skel, mono_skel, State.setBit_skel, State.takeLeap_skel]

theorem State.portChange_skel (s : State) (p : Nat) : (State.portChange s p).skel = s.skel := by
  have h5 : ∀ t : State, (if t.ntuState = 2 then t.setNtuState 1 else t).skel = t.skel := by
    intro t
    split <;> simp only [State.setNtuState_skel]
  have hm : ∀ t : State, ((match (t.ntuPort p).master with
      | some a => t.takeUtc a
      | none => t).portSync).skel = t.skel := by
    intro t
    rw [State.portSync_skel]
    split <;> simp only [State.takeUtc_skel]
  refine (hm _).trans ((h5 _).trans ?_)
  simp only [skel_mk, pending_skel, part_skel, phase_skel, mode_skel, paused_skel, edge_skel, number_skel, mono_skel, State.setNtuPort_skel, State.setBit_skel, State.setFld_skel]

theorem State.setMaster_skel (s : State) (p : Nat) (f : Option Foreign) : (State.setMaster s p f).skel = s.skel := by
  unfold State.setMaster
  (repeat' split) <;> (first | with_reducible rfl | (simp only [skel_mk, pending_skel, part_skel, phase_skel, mode_skel, paused_skel, edge_skel, number_skel, mono_skel, apply_ite State.skel, ite_self, foldl_skel, implies_true, State.setFld_skel, State.setNtuPort_skel]; done))

theorem State.foreignNote_skel (s : State) (p : Nat) (a : Announce) : (State.foreignNote s p a).skel = s.skel := by
  unfold State.foreignNote
  (repeat' split) <;> (first | (simp_all only [skel_mk, pending_skel, part_skel, phase_skel, mode_skel, paused_skel, edge_skel, number_skel, mono_skel, apply_ite State.skel, ite_self, foldl_skel, implies_true, State.setNtuPort_skel, State.setMaster_skel]; done) | grind [State.setNtuPort_skel, State.setMaster_skel, skel_mk, foldl_skel])

theorem State.announce_skel (s : State) (p : Nat) (a : Announce) : (State.announce s p a).skel = s.skel := by
  unfold State.announce
  split
  · rfl
  · split
    · exact State.addSat_skel _ _ _ _ _
    · split
      · rfl
      · extract_lets s2 act
        have h2 : s2.skel = s.skel := State.foreignNote_skel _ _ _
        clear_value s2 act
        split
        · exact (State.portSync_skel _).trans h2
        · split
          · exact (State.portSync_skel _).trans ((State.takeUtc_skel _ _).trans h2)
          · split
            · exact (State.portChange_skel _ _).trans h2
            · extract_lets n
              split
              · exact (State.portChange_skel _ _).trans h2
              · exact (State.portSync_skel _).trans ((State.setNtuPort_skel _ _ _).trans h2)

theorem State.masterLost_skel (s : State) (p : Nat) : (State.masterLost s p).skel = s.skel := by
  unfold State.masterLost
  extract_lets x rest s1 o src s2 s3
  have h1 : s1.skel = s.skel := (State.setMaster_skel _ _ _).trans (State.setNtuPort_skel _ _ _)
  clear_value s1
  have h2 : s2.skel = s.skel := (State.setBit_skel _ _ _ _ _).trans h1
  clear_value s2
  have h3 : s3.skel = s.skel := by
    show (if s2.ntuState = 1 ∨ s2.ntuState = 2 then _ else s2).skel = s.skel
    split
    · exact (State.setBit_skel _ _ _ _ _).trans ((State.holdover_skel _ _).trans h2)
    · exact h2
  clear_value s3
  split
  · refine (State.portSync_skel _).trans ?_
    split
    · exact (State.takeUtc_skel _ _).trans h1
    · exact h1
  · split
    · exact (State.portSync_skel _).trans h1
    · split
      · exact (State.portChange_skel _ _).trans h1
      · exact (State.portSync_skel _).trans h3

theorem State.leapStep_skel (s : State) (ns : Nat) (pos : Bool) : (State.leapStep s ns pos).skel = s.skel := by
  unfold State.leapStep
  simp only [skel_mk, pending_skel, part_skel, phase_skel, mode_skel, paused_skel, edge_skel, number_skel, mono_skel, State.setBit_skel, State.setFldI_skel]

theorem State.peerAlive_skel (s : State) (p : Nat) : (State.peerAlive s p).skel = s.skel := by
  unfold State.peerAlive
  simp only [apply_ite State.skel, ite_self, State.emit_skel, State.setHostPeer_skel]

end Sys2Proof.Machine
end

