-- ==== Sys2Proof/Laws/SkelSegment.lean ====
section
/-! SUPPORT. What the skeleton of a state is after each operation: the segment, the meter island, updates, sessions and the panel. -/

namespace Sys2Proof.Machine

open State

theorem State.syncEnrol_skel (s : State) : (State.syncEnrol s).skel = s.skel := by
  unfold State.syncEnrol
  simp only [State.setFld_skel, State.noteDrop_skel]

theorem State.enrolNode_skel (s : State) (q : JoinReq) : (State.enrolNode s q).1.skel = s.skel := by
  unfold State.enrolNode
  simp only [skel_mk, pending_skel, part_skel, phase_skel, mode_skel, paused_skel, edge_skel, number_skel, mono_skel, apply_ite State.skel, ite_self, State.syncEnrol_skel, apply_ite Prod.fst]

theorem State.entryEvent_skel (s : State) (n t : Nat) (x1 : EntryEvent) : (State.entryEvent s n t x1).skel = s.skel := by
  unfold State.entryEvent
  (repeat' split) <;> (first | with_reducible rfl | (simp only [skel_mk, pending_skel, part_skel, phase_skel, mode_skel, paused_skel, edge_skel, number_skel, mono_skel, apply_ite State.skel, ite_self, foldl_skel, implies_true, State.assertSrc_skel, State.setBeadState_skel, State.endCond_skel, State.startCond_skel, State.noteDrop_skel, State.evinEdge_skel, State.enrolNode_skel, State.fltFirst_skel]; done))

theorem State.arbitrate_skel (s : State) (t r0 : Nat) (ev : EntryEvent) : (State.arbitrate s t r0 ev).1.skel = s.skel := by
  unfold State.arbitrate
  (repeat' split) <;> (first | (simp_all only [skel_mk, pending_skel, part_skel, phase_skel, mode_skel, paused_skel, edge_skel, number_skel, mono_skel, apply_ite State.skel, ite_self, foldl_skel, implies_true, apply_ite Prod.fst, apply_ite Prod.snd, State.addSat_skel, State.entryEvent_skel, State.startTimer_skel]; done) | grind [State.addSat_skel, State.entryEvent_skel, State.startTimer_skel, skel_mk, foldl_skel])

theorem State.setUpdState_skel (s : State) (st : Nat) : (State.setUpdState s st).skel = s.skel := by
  unfold State.setUpdState
  simp only [State.setFld_skel]

theorem State.updEvt_skel (s : State) (f : Fld) : (State.updEvt s f).skel = s.skel := by
  unfold State.updEvt
  simp only [apply_ite State.skel, ite_self, State.setBit_skel, State.notifyAll_skel]

theorem State.updParts_skel (s : State) : (State.updParts s).skel = s.skel := by
  unfold State.updParts
  simp only [foldl_skel, implies_true, State.setFld_skel, State.setBit_skel]

theorem State.remeasure_skel (s : State) : (State.remeasure s).skel = s.skel := by
  unfold State.remeasure
  simp only [skel_mk, pending_skel, part_skel, phase_skel, mode_skel, paused_skel, edge_skel, number_skel, mono_skel, apply_ite State.skel, ite_self, foldl_skel, implies_true, State.bootMeasure_skel, State.setKeySlot_skel, State.deriveAll_skel]

theorem State.selectorTo_skel (s : State) (k : Nat) (trial : Bool) : (State.selectorTo s k trial).skel = s.skel := by
  unfold State.selectorTo
  simp only [State.updParts_skel, State.remeasure_skel, State.writeSelector_skel]

theorem State.thaw_skel (s : State) (z : Frozen) : (State.thaw s z).skel = s.skel := by
  unfold State.thaw
  simp only [skel_mk, pending_skel, part_skel, phase_skel, mode_skel, paused_skel, edge_skel, number_skel, mono_skel, foldl_skel, implies_true, State.wr_skel]

theorem State.classBReset_skel (s : State) : (State.classBReset s).skel = s.skel := by
  unfold State.classBReset
  simp only [skel_mk, pending_skel, part_skel, phase_skel, mode_skel, paused_skel, edge_skel, number_skel, mono_skel, foldl_skel, implies_true, State.setLan_skel, State.wr_skel, State.setFld_skel]

theorem State.rollbackBegin_skel (s : State) (cause : Nat) : (State.rollbackBegin s cause).skel = s.skel := by
  unfold State.rollbackBegin
  simp only [skel_mk, pending_skel, part_skel, phase_skel, mode_skel, paused_skel, edge_skel, number_skel, mono_skel, State.setUpdState_skel]

theorem State.updRefuse_skel (s : State) (st : Status) (reason : Nat) : (State.updRefuse s st reason).skel = s.skel := by
  unfold State.updRefuse
  simp only [State.setFld_skel]

theorem State.setSlotParts_skel (s : State) (k : Nat) (ps : List UpdPart) : (State.setSlotParts s k ps).skel = s.skel := by
  unfold State.setSlotParts
  simp only [skel_mk, pending_skel, part_skel, phase_skel, mode_skel, paused_skel, edge_skel, number_skel, mono_skel]

theorem State.eraseStaged_skel (s : State) : (State.eraseStaged s).skel = s.skel := by
  unfold State.eraseStaged
  simp only [skel_mk, pending_skel, part_skel, phase_skel, mode_skel, paused_skel, edge_skel, number_skel, mono_skel, State.setSlotParts_skel, State.updParts_skel, State.setFld_skel]

theorem State.peersDown_skel (s : State) : (State.peersDown s).skel = s.skel := by
  unfold State.peersDown
  simp only [foldl_skel, implies_true, State.setFld_skel]

theorem State.countFaults_skel (s : State) : (State.countFaults s).skel = s.skel := by
  unfold State.countFaults
  simp only [foldl_skel, implies_true, State.setFld_skel]

theorem State.clearClassM_skel (s : State) (lid : Nat) : (State.clearClassM s lid).skel = s.skel := by
  unfold State.clearClassM
  simp only [State.setLan_skel]

theorem State.cmdSnap_skel (s : State) : (State.cmdSnap s).skel = s.skel := by
  unfold State.cmdSnap
  simp only [skel_mk, pending_skel, part_skel, phase_skel, mode_skel, paused_skel, edge_skel, number_skel, mono_skel, apply_ite State.skel, ite_self, foldl_skel, implies_true, State.setLan_skel]

theorem State.cmdOwn_skel (s : State) (lid : Nat) (code : Nat) (payload : List Byte) : (State.cmdOwn s lid code payload).skel = s.skel := by
  unfold State.cmdOwn
  simp only [State.cmdPut_skel]

theorem State.leaveSnap_skel (s : State) (lid : Nat) : (State.leaveSnap s lid).skel = s.skel := by
  unfold State.leaveSnap
  (repeat' split) <;> (first | (simp_all only [skel_mk, pending_skel, part_skel, phase_skel, mode_skel, paused_skel, edge_skel, number_skel, mono_skel, apply_ite State.skel, ite_self, foldl_skel, implies_true, State.holdDst_skel, State.setLeaf_skel, State.countFaults_skel, State.clearClassM_skel, State.cmdOwn_skel]; done) | grind [State.holdDst_skel, State.setLeaf_skel, State.countFaults_skel, State.clearClassM_skel, State.cmdOwn_skel, skel_mk, foldl_skel])

theorem State.addNote_skel (s : State) (n : FaultNote) : (State.addNote s n).skel = s.skel := by
  unfold State.addNote
  simp only [skel_mk, pending_skel, part_skel, phase_skel, mode_skel, paused_skel, edge_skel, number_skel, mono_skel]

theorem State.clearCode_skel (s : State) (lid : Nat) (code : Nat) : (State.clearCode s lid code).skel = s.skel := by
  unfold State.clearCode
  simp only [apply_ite State.skel, ite_self, State.setLeaf_skel, State.countFaults_skel, State.addNote_skel]

theorem State.flapCode_skel (s : State) (lid code : Nat) (g : Leafing) : (State.flapCode s lid code g).skel = s.skel := by
  unfold State.flapCode
  simp only [skel_mk, pending_skel, part_skel, phase_skel, mode_skel, paused_skel, edge_skel, number_skel, mono_skel, State.setLeaf_skel, State.countFaults_skel, State.addNote_skel]

theorem State.raiseCode_skel (s : State) (lid code : Nat) (ring : Bool) : (State.raiseCode s lid code ring).skel = s.skel := by
  unfold State.raiseCode
  (repeat' split) <;> (first | with_reducible rfl | (simp only [skel_mk, pending_skel, part_skel, phase_skel, mode_skel, paused_skel, edge_skel, number_skel, mono_skel, apply_ite State.skel, ite_self, foldl_skel, implies_true, State.setFld_skel, State.addSat_skel, State.addWrap_skel, State.assertSrc_skel, State.setLeaf_skel, State.countFaults_skel, State.addNote_skel, State.flapCode_skel]; done))

theorem State.takeReport_skel (s : State) (lid : Nat) (ns : Nat) (frame : Nat) (r : StatusReport) : (State.takeReport s lid ns frame r).skel = s.skel := by
  unfold State.takeReport
  simp only [apply_ite State.skel, ite_self, State.setLan_skel, State.setLeaf_skel, State.clearCode_skel, State.raiseCode_skel]

theorem State.sendJoinRsp_skel (s : State) (eui : Nat) (st : Status) (lid lap : Nat) (key : List Byte) (slot : Option (Nat × Nat × Nat)) : (State.sendJoinRsp s eui st lid lap key slot).skel = s.skel := by
  unfold State.sendJoinRsp
  simp only [State.enqueue_skel]

theorem State.commission_skel (s : State) (lid : Nat) (q : JoinReq) : (State.commission s lid q).skel = s.skel := by
  unfold State.commission
  simp only [State.setLan_skel]

theorem State.statusSnap_skel (s : State) (lid : Nat) : (State.statusSnap s lid).skel = s.skel := by
  unfold State.statusSnap
  simp only [apply_ite State.skel, ite_self, State.setLan_skel, State.setLeaf_skel, State.clearCode_skel]

theorem State.updEdge_skel (s : State) : (State.updEdge s).skel = s.skel := by
  unfold State.updEdge
  simp only [apply_ite State.skel, ite_self, State.setFld_skel]

theorem State.bulkHops_skel (s : State) (lap : Nat) (code : Nat) (block : Nat) (payload : List Byte) (due : Nat) : (State.bulkHops s lap code block payload due).skel = s.skel := by
  unfold State.bulkHops
  simp only [foldl_skel, implies_true, State.enqueue_skel]

theorem State.campGo_skel (s : State) (st : Nat) : (State.campGo s st).skel = s.skel := by
  unfold State.campGo
  simp only [skel_mk, pending_skel, part_skel, phase_skel, mode_skel, paused_skel, edge_skel, number_skel, mono_skel, State.assertSrc_skel, State.setFld_skel]

theorem State.campStart_skel (s : State) (i : Nat) : (State.campStart s i).2.skel = s.skel := by
  unfold State.campStart
  (repeat' split) <;> (first | with_reducible rfl | (simp only [skel_mk, pending_skel, part_skel, phase_skel, mode_skel, paused_skel, edge_skel, number_skel, mono_skel, foldl_skel, implies_true, State.setFld_skel, State.bulkHops_skel, State.campGo_skel]; done))

theorem State.bulkTo_skel (s : State) (lid : Nat) (code : Nat) (payload : List Byte) : (State.bulkTo s lid code payload).skel = s.skel := by
  unfold State.bulkTo
  simp only [State.enqueue_skel]

theorem State.campActivate_skel (s : State) : (State.campActivate s).2.skel = s.skel := by
  unfold State.campActivate
  simp only [skel_mk, pending_skel, part_skel, phase_skel, mode_skel, paused_skel, edge_skel, number_skel, mono_skel, apply_ite State.skel, ite_self, foldl_skel, implies_true, State.bulkTo_skel, State.campGo_skel, apply_ite Prod.snd]

theorem State.campAbort_skel (s : State) : (State.campAbort s).2.skel = s.skel := by
  unfold State.campAbort
  (repeat' split) <;> (first | with_reducible rfl | (simp only [skel_mk, pending_skel, part_skel, phase_skel, mode_skel, paused_skel, edge_skel, number_skel, mono_skel, State.campGo_skel]; done))

theorem State.writeFwCtrl_skel (s : State) (v : Word) : (State.writeFwCtrl s v).2.skel = s.skel := by
  unfold State.writeFwCtrl
  (repeat' split) <;> (first | with_reducible rfl | (simp only [State.campStart_skel, State.campActivate_skel, State.campAbort_skel]; done))

theorem State.metIdent_skel (s : State) : (State.metIdent s).skel = s.skel := by
  unfold State.metIdent
  simp only [State.setBit_skel, State.toIsland_skel]

theorem State.metTsync_skel (s : State) : (State.metTsync s).skel = s.skel := by
  unfold State.metTsync
  simp only [State.toIsland_skel]

theorem State.metWrite_skel (s : State) (a : Nat) (v : Word) (t : _) (h : State.metWrite s a v = some t) : t.2.skel = s.skel := by
  unfold State.metWrite at h
  grind [State.metIdent_skel, State.metTsync_skel, skel_mk]

theorem State.updActivate_skel (s : State) : (State.updActivate s).2.skel = s.skel := by
  unfold State.updActivate
  (repeat' split) <;> (first | with_reducible rfl | (simp only [skel_mk, pending_skel, part_skel, phase_skel, mode_skel, paused_skel, edge_skel, number_skel, mono_skel, State.updRefuse_skel, State.setUpdState_skel]; done))

theorem State.updRollback_skel (s : State) : (State.updRollback s).2.skel = s.skel := by
  unfold State.updRollback
  (repeat' split) <;> (first | with_reducible rfl | (simp only [State.updRefuse_skel, State.rollbackBegin_skel]; done))

theorem State.setFp_skel (s : State) (x : Fp) : (State.setFp s x).skel = s.skel := by
  unfold State.setFp
  simp only [skel_mk, pending_skel, part_skel, phase_skel, mode_skel, paused_skel, edge_skel, number_skel, mono_skel]

theorem State.setPin_skel (s : State) (pin : Nat) : (State.setPin s pin).skel = s.skel := by
  unfold State.setPin
  simp only [State.draw_skel, State.setFp_skel]

theorem State.setPeer_skel (s : State) (p : Nat) (st : Nat) : (State.setPeer s p st).skel = s.skel := by
  unfold State.setPeer
  simp only [State.setBit_skel, State.setFld_skel]

theorem State.enrolBar_skel (s : State) : (State.enrolBar s).skel = s.skel := by
  unfold State.enrolBar
  simp only [skel_mk, pending_skel, part_skel, phase_skel, mode_skel, paused_skel, edge_skel, number_skel, mono_skel, apply_ite State.skel, ite_self, State.syncEnrol_skel]

theorem State.shed_skel (s : State) : (State.shed s).skel = s.skel := by
  unfold State.shed
  simp only [skel_mk, pending_skel, part_skel, phase_skel, mode_skel, paused_skel, edge_skel, number_skel, mono_skel, apply_ite State.skel, ite_self, foldl_skel, implies_true, State.sendLevels_skel, State.setLeaf_skel, State.setBit_skel]

theorem State.leafSend_skel (stagedOf : Nat → List SegLevel) (s : State) (l : Nat) : (State.leafSend stagedOf s l).1.skel = s.skel := by
  unfold State.leafSend
  (repeat' split) <;> (first | (simp_all only [skel_mk, pending_skel, part_skel, phase_skel, mode_skel, paused_skel, edge_skel, number_skel, mono_skel, apply_ite State.skel, ite_self, foldl_skel, implies_true, apply_ite Prod.fst, apply_ite Prod.snd, State.setLeaf_skel, State.shed_skel]; done) | grind [State.setLeaf_skel, State.shed_skel, skel_mk, foldl_skel])

theorem State.leafSends_skel (stagedOf : Nat → List SegLevel) (x1 : State) (x2 : List Nat) : (State.leafSends stagedOf x1 x2).1.skel = x1.skel := by
  (fun_induction State.leafSends stagedOf x1 x2 <;> grind [State.leafSend_skel, skel_mk, foldl_skel])

theorem State.segEmit_skel (s : State) (leaves : List Nat) : (State.segEmit s leaves).skel = s.skel := by
  unfold State.segEmit
  (repeat' split) <;> (first | with_reducible rfl | (simp only [skel_mk, pending_skel, part_skel, phase_skel, mode_skel, paused_skel, edge_skel, number_skel, mono_skel, apply_ite State.skel, ite_self, foldl_skel, implies_true, State.leafSends_skel, State.settle_skel, State.sendLevels_skel, State.tallyTake_skel]; done))

theorem State.prepareConn_skel (s : State) (lid : Nat) (gen2 : Bool) (t : _) (h : State.prepareConn s lid gen2 = some t) : t.skel = s.skel := by
  unfold State.prepareConn at h
  extract_lets sup src put si at h
  have hp : ∀ c, (put c).skel = s.skel := fun _ => rfl
  split at h
  · cases h; exact hp _
  · rw [Option.map_eq_some_iff] at h
    obtain ⟨a, -, rfl⟩ := h
    exact hp _

theorem State.joinEmit_skel (s : State) : (State.joinEmit s).skel = s.skel := by
  unfold State.joinEmit
  refine (foldl_skel _ ?_ _ _).trans rfl
  intro t w
  extract_lets lid q
  split
  · exact State.sendJoinRsp_skel _ _ _ _ _ _ _
  · rename_i t1 h1
    simp only [State.sendJoinRsp_skel, State.setLeaf_skel, State.setLan_skel]
    exact State.prepareConn_skel _ _ _ _ h1

theorem State.postDispatch_skel (s : State) : (State.postDispatch s).skel = s.skel := by
  unfold State.postDispatch
  refine (foldl_skel _ ?_ _ _).trans rfl
  intro t p
  have h := State.cmdRequest_skel t p.1 p.2.1 p.2.2.1 p.2.2.2 none
  split <;> rename_i t1 e <;> rw [e] at h
  · exact h
  · rw [State.notifyAll_skel, State.cmdResult_skel]; exact h

theorem State.segHandover_skel (s : State) (leaves : List Nat) : (State.segHandover s leaves).skel = s.skel := by
  unfold State.segHandover
  have h := State.leafSends_skel (fun _ => []) s leaves
  split
  rename_i s1 xs e1
  rw [e1] at h
  have h2 := State.settle_skel s1 false xs
  split
  rename_i s2 ys e2
  rw [e2] at h2
  simp only [State.sendLevels_skel]
  exact h2.trans h

theorem State.metAsk_skel (s : State) (newest logs : Nat) : (State.metAsk s newest logs).skel = s.skel := by
  unfold State.metAsk
  (repeat' split) <;> (first | with_reducible rfl | (simp only [skel_mk, pending_skel, part_skel, phase_skel, mode_skel, paused_skel, edge_skel, number_skel, mono_skel, apply_ite State.skel, ite_self, foldl_skel, implies_true, State.readReq_skel, State.metWant_skel]; done))

theorem State.pauseLaunch_skel (s : State) (x lim : Nat) (x1 : Nat) : (State.pauseLaunch s x lim x1).skel = s.skel := by
  induction x1 generalizing s with
  | zero => rfl
  | succ n ih =>
    unfold State.pauseLaunch
    split
    · split
      · exact (ih _).trans ((State.launchSend_skel _ _ _ _).trans (State.setTlq_skel _ _ _))
      · rfl
    · rfl

theorem State.trialSwitch_skel (s : State) : (State.trialSwitch s).skel = s.skel := by
  unfold State.trialSwitch
  simp only [skel_mk, pending_skel, part_skel, phase_skel, mode_skel, paused_skel, edge_skel, number_skel, mono_skel, State.selectorTo_skel, State.setFld_skel]

theorem State.copyUnlisted_skel (s : State) (m : Manifest) : (State.copyUnlisted s m).skel = s.skel := by
  unfold State.copyUnlisted
  simp only [State.updParts_skel, State.setSlotParts_skel]

theorem State.campFill_skel (s : State) : (State.campFill s).skel = s.skel := by
  unfold State.campFill
  simp only [skel_mk, pending_skel, part_skel, phase_skel, mode_skel, paused_skel, edge_skel, number_skel, mono_skel, foldl_skel, implies_true, State.bulkTo_skel]

theorem State.cmdEnd_skel (s : State) (lid : Nat) (st : Status) (dup : Bool) (data : List Byte) : (State.cmdEnd s lid st dup data).skel = s.skel := by
  unfold State.cmdEnd
  (repeat' split) <;> (first | (simp_all only [skel_mk, pending_skel, part_skel, phase_skel, mode_skel, paused_skel, edge_skel, number_skel, mono_skel, apply_ite State.skel, ite_self, foldl_skel, implies_true, State.setLeaf_skel, State.cmdResult_skel, State.cmdSend_skel, State.campFill_skel, State.ownFill_skel]; done) | grind [State.setLeaf_skel, State.cmdResult_skel, State.cmdSend_skel, State.campFill_skel, State.ownFill_skel, skel_mk, foldl_skel])

theorem State.takeRecord_skel (s : State) (lid : Nat) (n : Nat) (t : _) (h : State.takeRecord s lid n = some t) : t.skel = s.skel := by
  unfold State.takeRecord at h
  extract_lets ns at h
  split at h
  · cases h
  · cases h; rfl

theorem State.lapRecord_skel (s : State) (lid n : Nat) (f : State → State) (h : ∀ t, (f t).skel = t.skel) :
    (s.lapRecord lid n f).skel = s.skel := by
  unfold State.lapRecord
  split
  · rfl
  · split
    · exact State.addSat_skel _ _ _ _ _
    · rename_i t ht
      exact (h t).trans (State.takeRecord_skel _ _ _ _ ht)

theorem State.cmdFinish_skel (s : State) (lid : Nat) (st : Status) (dup : Bool) (data : List Byte) : (State.cmdFinish s lid st dup data).skel = s.skel := by
  unfold State.cmdFinish
  (repeat' split) <;> (first | with_reducible rfl | (simp only [State.cmdEnd_skel, State.respond_skel, State.notifyAll_skel]; done))

theorem State.sendFailsafe_skel (s : State) (lid : Nat) : (State.sendFailsafe s lid).skel = s.skel := by
  unfold State.sendFailsafe
  simp only [apply_ite State.skel, ite_self, State.cmdOwn_skel, State.setLeaf_skel]

theorem State.faultSummary_skel (s : State) : (State.faultSummary s).skel = s.skel := by
  unfold State.faultSummary
  simp only [skel_mk, pending_skel, part_skel, phase_skel, mode_skel, paused_skel, edge_skel, number_skel, mono_skel, apply_ite State.skel, ite_self, foldl_skel, implies_true, State.emit_skel, State.addSat_skel]

theorem State.setTargets_skel (s : State) (ts : List CampTarget) : (State.setTargets s ts).skel = s.skel := by
  unfold State.setTargets
  simp only [skel_mk, pending_skel, part_skel, phase_skel, mode_skel, paused_skel, edge_skel, number_skel, mono_skel, State.setFld_skel]

theorem State.campPass_skel (s : State) (want : Nat → Nat → Bool) : (State.campPass s want).skel = s.skel := by
  unfold State.campPass
  simp only [apply_ite State.skel, ite_self, foldl_skel, implies_true, State.bulkHops_skel, State.campGo_skel]

theorem State.campAsk_skel (s : State) (xs : List (Nat × Nat × Nat)) : (State.campAsk s xs).skel = s.skel := by
  unfold State.campAsk
  simp only [skel_mk, pending_skel, part_skel, phase_skel, mode_skel, paused_skel, edge_skel, number_skel, mono_skel, State.campFill_skel]

theorem State.campPoll_skel (s : State) : (State.campPoll s).skel = s.skel := by
  unfold State.campPoll
  simp only [State.campGo_skel, State.setTargets_skel, State.campAsk_skel]

theorem State.campVerify_skel (s : State) (mark : Bool) : (State.campVerify s mark).skel = s.skel := by
  unfold State.campVerify
  simp only [State.campGo_skel, State.setTargets_skel, State.campAsk_skel]

theorem State.campPollEnd_skel (s : State) : (State.campPollEnd s).skel = s.skel := by
  unfold State.campPollEnd
  dsimp only
  (repeat' split) <;> (first | rfl | (simp_all only [skel_mk, pending_skel, part_skel, phase_skel, mode_skel, paused_skel, edge_skel, number_skel, mono_skel, apply_ite State.skel, ite_self, foldl_skel, implies_true, State.setFld_skel, State.campPass_skel, State.campVerify_skel]; done) | grind [State.setFld_skel, State.campPass_skel, State.campVerify_skel, skel_mk, foldl_skel])

theorem State.campAnswer_skel (s : State) (lid : Nat) (a : CmdAnswer) : (State.campAnswer s lid a).skel = s.skel := by
  unfold State.campAnswer
  simp only [skel_mk, pending_skel, part_skel, phase_skel, mode_skel, paused_skel, edge_skel, number_skel, mono_skel, apply_ite State.skel, ite_self, State.campFill_skel, State.setTargets_skel, State.ownFill_skel]

theorem State.setIsl_skel (s : State) (x : Island) : (State.setIsl s x).skel = s.skel := by
  unfold State.setIsl
  simp only [skel_mk, pending_skel, part_skel, phase_skel, mode_skel, paused_skel, edge_skel, number_skel, mono_skel]

theorem State.islSend_skel (s : State) : (State.islSend s).skel = s.skel := by
  unfold State.islSend
  simp only [skel_mk, pending_skel, part_skel, phase_skel, mode_skel, paused_skel, edge_skel, number_skel, mono_skel, State.fromIsland_skel]

theorem State.islLog_skel (s : State) (code : Nat) (b : Bool) (data : List Byte) : (State.islLog s code b data).skel = s.skel := by
  unfold State.islLog
  simp only [skel_mk, pending_skel, part_skel, phase_skel, mode_skel, paused_skel, edge_skel, number_skel, mono_skel, apply_ite State.skel, ite_self, State.fromIsland_skel, State.islSend_skel]

theorem State.islChallenge_skel (s : State) : (State.islChallenge s).skel = s.skel := by
  unfold State.islChallenge
  simp only [skel_mk, pending_skel, part_skel, phase_skel, mode_skel, paused_skel, edge_skel, number_skel, mono_skel, State.draw_skel, State.fromIsland_skel]

theorem State.islAnswer_skel (s : State) (st : Status) : (State.islAnswer s st).skel = s.skel := by
  unfold State.islAnswer
  simp only [State.islChallenge_skel, State.fromIsland_skel]

theorem State.islSigned_skel (s : State) (m : SignedMsg) (f : State → Status × State) (h : ∀ t, (f t).2.skel = t.skel) :
    (s.islSigned m f).skel = s.skel := by
  have hk : ∀ (c : Prop) [Decidable c] (t : State), (if c then { t with isl := { t.isl with openSecs := 0 } } else t : State).skel = t.skel := by
    intro c _ t
    split <;> rfl
  unfold State.islSigned
  split
  · rfl
  · split
    · have hf := h s
      generalize f s = p at hf
      obtain ⟨st, t⟩ := p
      exact (State.islAnswer_skel _ _).trans ((hk _ _).trans hf)
    · exact (State.islAnswer_skel _ _).trans rfl

theorem State.islOpen_skel (s : State) (m : SignedMsg) (f : State → Status × State) (h : ∀ t, (f t).2.skel = t.skel) :
    (s.islOpen m f).skel = s.skel := by
  unfold State.islOpen
  refine State.islSigned_skel _ _ _ ?_
  intro t
  split
  · rfl
  · split
    · rfl
    · exact h t

theorem State.islParam_skel (s : State) (m : SignedMsg) (code : Nat) (data : Island → List Byte) (p : IslParam) :
    (s.islParam m code data p).skel = s.skel := by
  unfold State.islParam
  exact State.islOpen_skel _ _ _ (fun t => (State.islLog_skel _ _ _ _).trans rfl)

theorem State.islClose_skel (s : State) (cause : Nat) : (State.islClose s cause).skel = s.skel := by
  unfold State.islClose
  simp only [skel_mk, pending_skel, part_skel, phase_skel, mode_skel, paused_skel, edge_skel, number_skel, mono_skel, State.islLog_skel]

theorem State.islPeriod_skel (s : State) : (State.islPeriod s).skel = s.skel := by
  unfold State.islPeriod
  extract_lets x
  split <;> rfl

theorem State.islSpend_skel (s : State) (us : Nat) : (State.islSpend s us).skel = s.skel := by
  unfold State.islSpend
  simp only [skel_mk, pending_skel, part_skel, phase_skel, mode_skel, paused_skel, edge_skel, number_skel, mono_skel, apply_ite State.skel, ite_self]

theorem State.islMove_skel (s : State) (frac : Nat) (us : Int) : (State.islMove s frac us).skel = s.skel := by
  unfold State.islMove
  simp only [skel_mk, pending_skel, part_skel, phase_skel, mode_skel, paused_skel, edge_skel, number_skel, mono_skel, apply_ite State.skel, ite_self, State.islPeriod_skel]

theorem State.tsyncRsp_skel (s : State) (st : Status) (kind : Nat) (us : Int) : (State.tsyncRsp s st kind us).skel = s.skel := by
  unfold State.tsyncRsp
  simp only [State.fromIsland_skel]

theorem State.islInit_skel (s : State) (utcNs : Nat) (d : Int) : (State.islInit s utcNs d).skel = s.skel := by
  unfold State.islInit
  dsimp only
  (repeat' split) <;> (first | rfl | (simp_all only [skel_mk, pending_skel, part_skel, phase_skel, mode_skel, paused_skel, edge_skel, number_skel, mono_skel, apply_ite State.skel, ite_self, foldl_skel, implies_true, State.islLog_skel, State.tsyncRsp_skel, State.islMonth_skel]; done) | grind [State.islLog_skel, State.tsyncRsp_skel, State.islMonth_skel, skel_mk, foldl_skel])

theorem State.islTsync_skel (s : State) (utcNs frac : Nat) : (State.islTsync s utcNs frac).skel = s.skel := by
  unfold State.islTsync
  simp only [skel_mk, pending_skel, part_skel, phase_skel, mode_skel, paused_skel, edge_skel, number_skel, mono_skel, apply_ite State.skel, ite_self, State.islLog_skel, State.islSpend_skel, State.islMove_skel, State.tsyncRsp_skel, State.islInit_skel]

theorem State.islSecond_skel (s0 : State) (q : IslandIn) : (State.islSecond s0 q).skel = s0.skel := by
  have hi : ∀ (c : Prop) [Decidable c] (t u : State), u.skel = t.skel → (if c then t else u).skel = t.skel := by
    intro c _ t u h
    split
    · rfl
    · exact h
  unfold State.islSecond
  rw [State.islSend_skel]
  exact (hi _ _ _ (foldl_skel _ (fun _ _ => State.islHello_skel _) _ _)).trans ((State.islSpend_skel _ _).trans rfl)

theorem State.islResume_skel (s : State) (was : Nat) : (State.islResume s was).skel = s.skel := by
  unfold State.islResume
  simp only [skel_mk, pending_skel, part_skel, phase_skel, mode_skel, paused_skel, edge_skel, number_skel, mono_skel, apply_ite State.skel, ite_self, State.islPeriod_skel]

theorem State.islStart_skel (s : State) (outage : Nat) (clock : Bool) : (State.islStart s outage clock).skel = s.skel := by
  unfold State.islStart
  simp only [skel_mk, pending_skel, part_skel, phase_skel, mode_skel, paused_skel, edge_skel, number_skel, mono_skel, apply_ite State.skel, ite_self, State.islHello_skel, State.islLog_skel, State.islChallenge_skel, State.islClose_skel, State.islResume_skel]

theorem State.metFrame_skel (s : State) (us typ : Nat) (bytes : List Byte) (f : State → List Byte → State)
    (h : ∀ t p, (f t p).skel = t.skel) : (s.metFrame us typ bytes f).skel = s.skel := by
  unfold State.metFrame
  exact State.metReceive_skel _ _ _ _ _ (fun t p => by
    split
    · exact (h _ p).trans rfl
    · rfl)

theorem State.island_skel (s : State) (f : State → State) (h : ∀ t, (f t).skel = t.skel) : (s.island f).skel = s.skel := by
  unfold State.island
  split
  · exact h _
  · rfl

theorem State.forwardSeal_skel (s : State) (bmr : List Byte) : (State.forwardSeal s bmr).skel = s.skel := by
  unfold State.forwardSeal
  simp only [foldl_skel, implies_true, State.forwardOne_skel]

theorem State.pauseOver_skel (s : State) : (State.pauseOver s).skel = { s.skel with phase := .emit, paused := false } := rfl

theorem State.hostConnAdd_skel (s : State) (c : HostConn) : (State.hostConnAdd s c).skel = s.skel := by
  unfold State.hostConnAdd
  simp only [skel_mk, pending_skel, part_skel, phase_skel, mode_skel, paused_skel, edge_skel, number_skel, mono_skel]

theorem State.hostConnDrop_skel (s : State) (c : Nat) : (State.hostConnDrop s c).skel = s.skel := by
  unfold State.hostConnDrop
  simp only [skel_mk, pending_skel, part_skel, phase_skel, mode_skel, paused_skel, edge_skel, number_skel, mono_skel]

theorem State.showSess_skel (s : State) (i : Nat) (st : Nat) (role : Nat) (dtls : Bool) (version : Nat) (features : Nat) : (State.showSess s i st role dtls version features).skel = s.skel := by
  unfold State.showSess
  simp only [State.setFld_skel, State.setBit_skel]

theorem State.newToken_skel (s : State) (i : Nat) : (State.newToken s i).skel = s.skel := by
  unfold State.newToken
  simp only [State.draw_skel, State.setSess_skel]

theorem State.showPage_skel (s : State) (p : Nat) : (State.showPage s p).skel = s.skel := by
  unfold State.showPage
  simp only [skel_mk, pending_skel, part_skel, phase_skel, mode_skel, paused_skel, edge_skel, number_skel, mono_skel, State.setFld_skel, State.setBit_skel]

theorem State.pinPrompt_skel (s : State) (refNs : Nat) : (State.pinPrompt s refNs).skel = s.skel := by
  unfold State.pinPrompt
  simp only [skel_mk, pending_skel, part_skel, phase_skel, mode_skel, paused_skel, edge_skel, number_skel, mono_skel, State.showPage_skel]

theorem State.peerShake_skel (s : State) (p : Nat) (serial : Nat) (good : Bool) : (State.peerShake s p serial good).skel = s.skel := by
  unfold State.peerShake
  simp only [apply_ite State.skel, ite_self, State.setBit_skel, State.setPeer_skel, State.peerHeard_skel]

theorem State.setFpInput_skel (s : State) (k : Nat) (x : FpInput) : (State.setFpInput s k x).skel = s.skel := by
  unfold State.setFpInput
  simp only [skel_mk, pending_skel, part_skel, phase_skel, mode_skel, paused_skel, edge_skel, number_skel, mono_skel]

theorem State.setRegBit_skel (s : State) (f : Fld) (k : Nat) (v : Bool) : (State.setRegBit s f k v).skel = s.skel := by
  unfold State.setRegBit
  simp only [State.wr_skel]

theorem State.displayOn_skel (s : State) : (State.displayOn s).skel = s.skel := by
  unfold State.displayOn
  (repeat' split) <;> (first | with_reducible rfl | (simp only [skel_mk, pending_skel, part_skel, phase_skel, mode_skel, paused_skel, edge_skel, number_skel, mono_skel, apply_ite State.skel, ite_self, foldl_skel, implies_true, State.setBit_skel, State.metIdent_skel]; done))

theorem State.inputNote_skel (s : State) (k : Nat) (v : Bool) : (State.inputNote s k v).skel = s.skel := by
  unfold State.inputNote
  simp only [apply_ite State.skel, ite_self, State.setBit_skel, State.setFp_skel, State.setRegBit_skel, State.displayOn_skel]

theorem State.syncSwitch_skel (s : State) : (State.syncSwitch s).skel = s.skel := by
  unfold State.syncSwitch
  simp only [State.setBit_skel, State.setFld_skel]

theorem State.padSample_skel (s : State) (count : Nat) : (State.padSample s count).skel = s.skel := by
  unfold State.padSample
  simp only [State.setFld_skel, State.setFp_skel]

theorem State.holdSample_skel (s : State) (was : Bool) (offered : Bool) : (State.holdSample s was offered).skel = s.skel := by
  unfold State.holdSample
  simp only [State.setFp_skel]

theorem State.pinAgain_skel (s : State) : (State.pinAgain s).skel = s.skel := by
  unfold State.pinAgain
  simp only [State.setFp_skel]

theorem State.toPage_skel (s : State) (p : Nat) : (State.toPage s p).skel = s.skel := by
  unfold State.toPage
  (repeat' split) <;> (first | with_reducible rfl | (simp only [State.setFld_skel, State.setFp_skel, State.metIdent_skel]; done))

theorem State.pageKey_skel (s : State) (k : Nat) : (State.pageKey s k).skel = s.skel := by
  unfold State.pageKey
  (repeat' split) <;> (first | with_reducible rfl | (simp only [State.setFp_skel, State.toPage_skel]; done))

theorem State.islReceive_skel (s : State) (typ : Nat) (bytes : List Byte) (f : State → List Byte → State)
    (h : ∀ t p, (f t p).skel = t.skel) : (s.islReceive typ bytes f).skel = s.skel := by
  unfold State.islReceive
  exact State.island_skel _ _ (fun t => foldl_skel _ h _ _)

end Sys2Proof.Machine
end

