-- ==== Sys2Proof/Laws/SkelAccess.lean ====
section
/-! SUPPORT. What the skeleton of a state is after each operation: register writes and requests. -/

namespace Sys2Proof.Machine

open State

theorem State.plainWrite_skel (s : State) (a : Nat) (v : Word) : (State.plainWrite s a v).skel = s.skel := by
  unfold State.plainWrite
  (repeat' split) <;> (first | with_reducible rfl | (simp only [State.wr_skel]; done))

theorem State.rodWrite_skel (s : State) (a : Nat) (v : Word) (t : _) (h : State.rodWrite s a v = some t) : t.2.skel = s.skel := by
  unfold State.rodWrite at h
  grind [State.setFld_skel, State.fltAck_skel, State.setBit_skel, State.writeBeadCtrl_skel, skel_mk]

theorem State.flowWrite_skel (s : State) (a : Nat) (v : Word) (t : _) (h : State.flowWrite s a v = some t) : t.2.skel = s.skel := by
  unfold State.flowWrite at h
  split at h
  · cases h
    have h2 : ∀ (c : Bool) (t : State), (if c then t.setBit R.FLOW_STAT_PENDING true else t).skel = t.skel := by
      intro c t; split <;> simp only [State.setBit_skel]
    have h3 : ∀ (c : Bool) (t : State), (if c then { t with flow := { t.flow with clearReq := true } } else t).skel = t.skel := by
      intro c t; split <;> rfl
    exact (h3 _ _).trans ((h2 _ _).trans (State.setBit_skel _ _ _ _ _))
  · split at h
    · cases h; rfl
    · cases h

theorem State.setOwn_skel (s : State) (who : Requester) (a : Nat) (w : Word) : (State.setOwn s who a w).skel = s.skel := by
  unfold State.setOwn
  simp only [skel_mk, pending_skel, part_skel, phase_skel, mode_skel, paused_skel, edge_skel, number_skel, mono_skel]

theorem State.rdSelect_skel (s : State) (who : Requester) (hi : Word) : (State.rdSelect s who hi).skel = s.skel := by
  unfold State.rdSelect
  simp only [State.setOwn_skel]

theorem State.evrWrite_skel (s : State) (who : Requester) (a : Nat) (v : Word) (t : _) (h : State.evrWrite s who a v = some t) : t.2.skel = s.skel := by
  unfold State.evrWrite at h
  grind [State.setOwn_skel, State.rdSelect_skel, skel_mk]

theorem State.hostWrite_skel (s : State) (a : Nat) (v : Word) (t : _) (h : State.hostWrite s a v = some t) : t.2.skel = s.skel := by
  unfold State.hostWrite at h
  grind [State.setBit_skel, State.setPeer_skel, skel_mk]

theorem State.latchOf_skel (s : State) (who : Requester) (a : Nat) : (State.latchOf s who a).skel = s.skel := by
  unfold State.latchOf
  simp only [foldl_skel, implies_true, State.setOwn_skel]

theorem State.rclr_skel (s : State) (who : Requester) (a : Nat) : (State.rclr s who a).skel = s.skel := by
  unfold State.rclr
  (repeat' split) <;> (first | with_reducible rfl | (simp only [State.wr_skel]; done))

theorem State.reqRead_skel (s : State) (who : Requester) (a : Nat) : (State.reqRead s who a).2.2.skel = s.skel := by
  unfold State.reqRead
  (repeat' split) <;> (first | with_reducible rfl | (simp only [State.rclr_skel, State.latchOf_skel]; done))

theorem State.cmdRead_skel (s : State) (who : Requester) (us : Nat) (a : Nat) : (State.cmdRead s who us a).skel = s.skel := by
  unfold State.cmdRead
  (repeat' split) <;> (first | (simp_all only [skel_mk, pending_skel, part_skel, phase_skel, mode_skel, paused_skel, edge_skel, number_skel, mono_skel, apply_ite State.skel, ite_self, foldl_skel, implies_true, State.reqRead_skel, State.atUs_skel, State.emit_skel, State.answer_skel]; done) | grind [State.reqRead_skel, State.atUs_skel, State.emit_skel, State.answer_skel, skel_mk, foldl_skel])

theorem State.readRun_skel (who : Requester) (x1 : Nat) (x2 : State) (x3 : Nat) (x4 : List Int) : (State.readRun who x1 x2 x3 x4).1.skel = x2.skel := by
  (fun_induction State.readRun who x1 x2 x3 x4 <;> grind [State.reqRead_skel, skel_mk, foldl_skel])

theorem State.regRead_skel (s : State) (i : Nat) (id : Nat) (a : Nat) (n : Nat) : (State.regRead s i id a n).skel = s.skel := by
  unfold State.regRead
  simp only [apply_ite State.skel, ite_self, State.respond_skel, State.readRun_skel]

theorem State.heldView_skel (s : State) (i : Nat) : (State.heldView s i).skel = s.skel := by
  unfold State.heldView
  (repeat' split) <;> (first | with_reducible rfl | (simp only [skel_mk, pending_skel, part_skel, phase_skel, mode_skel, paused_skel, edge_skel, number_skel, mono_skel, apply_ite State.skel, ite_self, foldl_skel, implies_true, State.plainWrite_skel]; done))

theorem State.txnTouch_skel (s : State) (i : Nat) : (State.txnTouch s i).skel = s.skel := by
  unfold State.txnTouch
  (repeat' split) <;> (first | with_reducible rfl | (simp only [State.setSess_skel]; done))

theorem State.txnBegin_skel (s : State) (i : Nat) (id : Nat) : (State.txnBegin s i id).skel = s.skel := by
  unfold State.txnBegin
  simp only [skel_mk, pending_skel, part_skel, phase_skel, mode_skel, paused_skel, edge_skel, number_skel, mono_skel, apply_ite State.skel, ite_self, State.respond_skel, State.setSess_skel, State.setFld_skel, State.setBit_skel]

theorem State.txnCommit_skel (s : State) (i : Nat) (id : Nat) : (State.txnCommit s i id).skel = s.skel := by
  unfold State.txnCommit
  (repeat' split) <;> (first | with_reducible rfl | (simp only [skel_mk, pending_skel, part_skel, phase_skel, mode_skel, paused_skel, edge_skel, number_skel, mono_skel, State.respond_skel, State.txnDrop_skel]; done))

theorem State.txnAbort_skel (s : State) (i : Nat) (id : Nat) : (State.txnAbort s i id).skel = s.skel := by
  unfold State.txnAbort
  simp only [apply_ite State.skel, ite_self, State.respond_skel, State.txnDrop_skel]

theorem State.lanternCmd_skel (s : State) (i : Nat) (id : Nat) (lid : Nat) (code : Nat) (payload : List Byte) (txn : Bool) : (State.lanternCmd s i id lid code payload txn).skel = s.skel := by
  unfold State.lanternCmd
  (repeat' split) <;> (first | (simp_all only [skel_mk, pending_skel, part_skel, phase_skel, mode_skel, paused_skel, edge_skel, number_skel, mono_skel, apply_ite State.skel, ite_self, foldl_skel, implies_true, State.respond_skel, State.txnRefused_skel, State.cmdRequest_skel, State.cmdResult_skel]; done) | grind [State.respond_skel, State.txnRefused_skel, State.cmdRequest_skel, State.cmdResult_skel, skel_mk, foldl_skel])

theorem State.streamCredit_skel (s : State) (i : Nat) (x : HostStream) : (State.streamCredit s i x).skel = s.skel := by
  unfold State.streamCredit
  simp only [apply_ite State.skel, ite_self, State.setSess_skel, State.emit_skel]

end Sys2Proof.Machine
end

