-- ==== Sys2Proof/Laws/SkelFrame.lean ====
section
/-! SUPPORT. What the skeleton of a state is after each operation: power states, the frame edge and the bar. -/

namespace Sys2Proof.Machine

open State

theorem State.evrToNand_skel (all : Bool) (s : State) : (State.evrToNand all s).skel = s.skel := by
  unfold State.evrToNand
  simp only [skel_mk, pending_skel, part_skel, phase_skel, mode_skel, paused_skel, edge_skel, number_skel, mono_skel, State.setFld_skel]

theorem State.evrHand_skel (s : State) : (State.evrHand s).skel = s.skel := State.evrToNand_skel false s

theorem State.evrPend_skel (s : State) : (State.evrPend s).skel = s.skel := by
  unfold State.evrPend
  simp only [apply_ite State.skel, ite_self, State.setFld_skel, State.evrHand_skel]

theorem State.evrNew_skel (s0 : State) (l : Nat) (r : Rec) : (State.evrNew s0 l r).skel = s0.skel := by
  unfold State.evrNew
  simp only [apply_ite State.skel, ite_self, State.setBit_skel, State.setEvrLog_skel, State.evrPend_skel]

theorem State.evrEnter_skel (s : State) (l : Nat) (r : Rec) : (State.evrEnter s l r).skel = s.skel := by
  unfold State.evrEnter
  (repeat' split) <;> (first | (simp_all only [skel_mk, pending_skel, part_skel, phase_skel, mode_skel, paused_skel, edge_skel, number_skel, mono_skel, apply_ite State.skel, ite_self, foldl_skel, implies_true, State.addSat_skel, State.setEvrLog_skel, State.evrNew_skel]; done) | grind [State.addSat_skel, State.setEvrLog_skel, State.evrNew_skel, skel_mk, foldl_skel])

theorem State.report_skel (s : State) (l source : Nat) (ev : Event) (key data : List Nat) : (State.report s l source ev key data).skel = s.skel := by
  unfold State.report
  simp only [apply_ite State.skel, ite_self, State.evrEnter_skel, State.evrHold_skel]

theorem State.epochStep_skel (s : State) (source : Nat) (before : Int) (after : Int) : (State.epochStep s source before after).skel = s.skel := by
  unfold State.epochStep
  simp only [apply_ite State.skel, ite_self, State.addWrap_skel, State.report_skel]

theorem State.storm_skel (s : State) (n : Nat) : (State.storm s n).skel = s.skel := by
  unfold State.storm
  simp only [apply_ite State.skel, ite_self, State.report_skel, State.setBit_skel]

theorem State.claimSource_skel (s : State) (n t : Nat) : (State.claimSource s n t).skel = s.skel := by
  unfold State.claimSource
  simp only [skel_mk, pending_skel, part_skel, phase_skel, mode_skel, paused_skel, edge_skel, number_skel, mono_skel, apply_ite State.skel, ite_self, State.setFld_skel, State.setBit_skel, State.addSat_skel, State.dropSrc_skel, State.setTarget_skel, State.setRp_skel, State.setClaim_skel, State.storm_skel]

theorem State.enter_skel (s : State) (n : Nat) (t : Nat) (push : Option IcuCtx) : (State.enter s n t push).skel = s.skel := by
  unfold State.enter
  (repeat' split) <;> (first | with_reducible rfl | (simp only [State.setTarget_skel, State.claimSource_skel, State.startHandler_skel]; done))

theorem State.exit_skel (s : State) (t : Nat) (gone : Bool) (ev : EntryEvent) : (State.exit s t gone ev).1.skel = s.skel := by
  unfold State.exit
  (repeat' split) <;> (first | (simp_all only [skel_mk, pending_skel, part_skel, phase_skel, mode_skel, paused_skel, edge_skel, number_skel, mono_skel, apply_ite State.skel, ite_self, foldl_skel, implies_true, State.endService_skel, State.arbitrate_skel, State.enter_skel, State.setFld_skel, State.setRp_skel]; done) | grind [State.endService_skel, State.arbitrate_skel, State.enter_skel, State.setFld_skel, State.setRp_skel, skel_mk, foldl_skel])

theorem State.endHandler_skel (s : State) (t : Nat) : (State.endHandler s t).skel = s.skel := by
  unfold State.endHandler
  simp only [apply_ite State.skel, ite_self, State.exit_skel, State.popContext_skel]

theorem State.leaveRod_skel (s : State) (n : Nat) : (State.leaveRod s n).skel = s.skel := by
  unfold State.leaveRod
  simp only [apply_ite State.skel, ite_self, State.setRod_skel, State.syncParked_skel, State.selectNext_skel, State.kick_skel, State.unstack_skel, State.endHandler_skel, State.letPark_skel, State.setAside_skel, State.dropPortCredit_skel]

theorem State.beadFault_skel (s : State) (n : Nat) (cause : Status) (pc code : Nat) : (State.beadFault s n cause pc code).skel = s.skel := by
  unfold State.beadFault
  simp only [State.setFld_skel, State.report_skel, State.setBead_skel, State.setBeadState_skel, State.leaveRod_skel, State.syncNext_skel]

theorem State.endPass_skel (s : State) (n : Nat) (halt : Bool) : (State.endPass s n halt).skel = s.skel := by
  unfold State.endPass
  extract_lets b s1 c s2 cls next s3 s4
  have h1 : s1.skel = s.skel := by
    show (match b.openB with
      | some _ => _
      | none => s).skel = s.skel
    split <;> first | exact State.report_skel _ _ _ _ _ _ | rfl
  have h2 : s2.skel = s.skel := by
    show (if s.haltDrops n halt then c.dropLog n else c.queueLog n).skel = s.skel
    split
    · exact (State.dropLog_skel _ _).trans ((State.setFld_skel _ _ _ _ _).trans h1)
    · exact (State.queueLog_skel _ _).trans ((State.setFld_skel _ _ _ _ _).trans h1)
  rw [State.leaveRod_skel, State.syncNext_skel]
  exact (State.setBit_skel _ _ _ _ _).trans ((State.setBeadState_skel _ _ _).trans ((State.setBead_skel _ _ _).trans h2))

theorem State.manifestNote_skel (s : State) (st : Status) (m : Manifest) : (State.manifestNote s st m).skel = s.skel := by
  unfold State.manifestNote
  simp only [apply_ite State.skel, ite_self, State.report_skel]

theorem State.lastGasp_skel (s : State) : (State.lastGasp s).skel = s.skel := by
  unfold State.lastGasp
  simp only [foldl_skel, implies_true, State.nextSeq_skel, State.tlqOffer_skel]

theorem State.returnItem_skel (s : State) (i : DownItem) (late : Bool) : (State.returnItem s i late).skel = s.skel := by
  unfold State.returnItem
  (repeat' split) <;> (first | with_reducible rfl | (simp only [skel_mk, pending_skel, part_skel, phase_skel, mode_skel, paused_skel, edge_skel, number_skel, mono_skel, apply_ite State.skel, ite_self, foldl_skel, implies_true, State.lastGasp_skel]; done))

theorem State.tlqPut_skel (s : State) (x : Nat) (e : TlqEntry) : (State.tlqPut s x e).skel = s.skel := by
  unfold State.tlqPut
  (repeat' split) <;> (first | (simp_all only [skel_mk, pending_skel, part_skel, phase_skel, mode_skel, paused_skel, edge_skel, number_skel, mono_skel, apply_ite State.skel, ite_self, foldl_skel, implies_true, State.tlqOffer_skel, State.returnItem_skel]; done) | grind [State.tlqOffer_skel, State.returnItem_skel, skel_mk, foldl_skel])

theorem State.failsafeOne_skel (i : DownItem) (s : State) : (State.failsafeOne i s).skel = s.skel := by
  unfold State.failsafeOne
  simp only [apply_ite State.skel, ite_self, foldl_skel, implies_true, State.nextSeq_skel, State.tlqPut_skel]

theorem State.failsafeBroadcast_skel (s : State) (immediate : Bool) (reason first : Nat) : (State.failsafeBroadcast s immediate reason first).skel = s.skel := by
  unfold State.failsafeBroadcast
  simp only [foldl_skel, implies_true, State.enqueue_skel, State.failsafeOne_skel]

theorem State.tlqFlush_skel (s : State) (x : Nat) : (State.tlqFlush s x).skel = s.skel := by
  unfold State.tlqFlush
  simp only [foldl_skel, implies_true, State.setTlq_skel, State.returnItem_skel]

theorem State.trxStop_skel (s : State) (x : Nat) : (State.trxStop s x).skel = s.skel := by
  unfold State.trxStop
  simp only [skel_mk, pending_skel, part_skel, phase_skel, mode_skel, paused_skel, edge_skel, number_skel, mono_skel, State.clearReady_skel, State.tlqFlush_skel]

theorem State.saveAll_skel (s : State) (tables : Bool) : (State.saveAll s tables).skel = s.skel := by
  unfold State.saveAll
  simp only [skel_mk, pending_skel, part_skel, phase_skel, mode_skel, paused_skel, edge_skel, number_skel, mono_skel, apply_ite State.skel, ite_self, State.setBit_skel]

theorem State.restoreRegs_skel (s : State) : (State.restoreRegs s).skel = s.skel := by
  unfold State.restoreRegs
  (repeat' split) <;> (first | (simp_all only [skel_mk, pending_skel, part_skel, phase_skel, mode_skel, paused_skel, edge_skel, number_skel, mono_skel, apply_ite State.skel, ite_self, foldl_skel, implies_true, State.wr_skel]; done) | grind [State.wr_skel, skel_mk, foldl_skel])

theorem State.restoreBnd_skel (s : State) : (State.restoreBnd s).skel = s.skel := by
  unfold State.restoreBnd
  simp only [foldl_skel, implies_true, State.wr_skel]

theorem State.restoreF_skel (s : State) : (State.restoreF s).skel = s.skel := by
  unfold State.restoreF
  simp only [skel_mk, pending_skel, part_skel, phase_skel, mode_skel, paused_skel, edge_skel, number_skel, mono_skel]

theorem State.alwaysOnStart_skel (s : State) : (State.alwaysOnStart s).skel = s.skel := by
  unfold State.alwaysOnStart
  simp only [skel_mk, pending_skel, part_skel, phase_skel, mode_skel, paused_skel, edge_skel, number_skel, mono_skel, State.wr_skel, State.rtcCold_skel, State.watchStart_skel]

theorem State.evrStart_skel (s : State) : (State.evrStart s).skel = s.skel := by
  unfold State.evrStart
  simp only [skel_mk, pending_skel, part_skel, phase_skel, mode_skel, paused_skel, edge_skel, number_skel, mono_skel, State.addWrap_skel, State.setEvrLog_skel]

theorem State.watchFlush_skel (s : State) : (State.watchFlush s).skel = s.skel := by
  unfold State.watchFlush
  simp only [skel_mk, pending_skel, part_skel, phase_skel, mode_skel, paused_skel, edge_skel, number_skel, mono_skel, foldl_skel, implies_true, State.evrEnter_skel]

theorem State.evrMirror_skel (s0 : State) (x : Rec) : (State.evrMirror s0 x).skel = s0.skel := by
  unfold State.evrMirror
  simp only [apply_ite State.skel, ite_self, State.setEvrLog_skel, State.evrPend_skel]

theorem State.evrReady_skel (s : State) : (State.evrReady s).skel = s.skel := by
  unfold State.evrReady
  simp only [skel_mk, pending_skel, part_skel, phase_skel, mode_skel, paused_skel, edge_skel, number_skel, mono_skel, apply_ite State.skel, ite_self, foldl_skel, implies_true, State.setBit_skel, State.setReady_skel, State.evrEnter_skel, State.watchFlush_skel, State.evrMirror_skel]

theorem State.evrFlush_skel (s : State) : (State.evrFlush s).skel = s.skel := State.evrToNand_skel true s

theorem State.startRegs_skel (s : State) (warm : Bool) : (State.startRegs s warm).skel = s.skel := by
  unfold State.startRegs
  rw [State.setBit_skel, State.setBit_skel, State.setBit_skel, State.setUpdState_skel, State.setFld_skel, State.restoreBnd_skel,
    State.restoreRegs_skel]
  refine (foldl_skel _ ?_ _ _).trans rfl
  intro t e
  split
  · rfl
  · split
    · exact State.wr_skel _ _ _
    · rfl

theorem State.startImages_skel (old : State) (s : State) : (State.startImages old s).skel = s.skel := by
  unfold State.startImages
  simp only [skel_mk, pending_skel, part_skel, phase_skel, mode_skel, paused_skel, edge_skel, number_skel, mono_skel, foldl_skel, implies_true, State.setFld_skel, State.wr_skel]

theorem State.clearApp_skel (s : State) : (State.clearApp s).skel = s.skel := by
  unfold State.clearApp
  simp only [skel_mk, pending_skel, part_skel, phase_skel, mode_skel, paused_skel, edge_skel, number_skel, mono_skel]

theorem State.clearUnits_skel (s : State) : (State.clearUnits s).skel = s.skel := by
  unfold State.clearUnits
  simp only [skel_mk, pending_skel, part_skel, phase_skel, mode_skel, paused_skel, edge_skel, number_skel, mono_skel]

theorem State.startFaults_skel (s : State) (warm : Bool) : (State.startFaults s warm).skel = s.skel := by
  unfold State.startFaults
  simp only [skel_mk, pending_skel, part_skel, phase_skel, mode_skel, paused_skel, edge_skel, number_skel, mono_skel]

theorem State.startTick_skel (s : State) (ns : Nat) (warm : Bool) : (State.startTick s ns warm).skel = s.skel.tickStart ns := by
  unfold State.startTick
  rw [State.setBit_skel, State.setFldI_skel]
  rfl

theorem State.rtcAligned_skel (s : State) (count : Nat) : (State.rtcAligned s count).skel = s.skel := by
  unfold State.rtcAligned
  simp only [skel_mk, pending_skel, part_skel, phase_skel, mode_skel, paused_skel, edge_skel, number_skel, mono_skel]

theorem State.startTime_skel (s : State) (warm : Bool) (count : Nat) :
    ∃ ns, (State.startTime s warm count).skel = s.skel.tickStart ns := by
  have h1 : ∀ t : State, (if t.ntuState = 3 then t.portSync else (t.holdover false).portSync).skel = t.skel := by
    intro t
    split
    · exact State.portSync_skel _
    · rw [State.portSync_skel, State.holdover_skel]
  have h2 : ∀ t : State, ({ t with ntu := {} } : State).skel = t.skel := fun _ => rfl
  unfold State.startTime
  split
  · refine ⟨s.nowNs, (h1 _).trans ?_⟩
    rw [State.rtcAligned_skel, State.startTick_skel]
  · refine ⟨s.rtcStartNs count, ?_⟩
    rw [State.portSync_skel, State.rtcAligned_skel, State.startTick_skel, h2]

theorem State.startReady_skel (s : State) (warm : Bool) : (State.startReady s warm).skel = s.skel := by
  unfold State.startReady
  simp only [apply_ite State.skel, ite_self, State.wr_skel, State.setReady_skel]

theorem State.mainOn_skel (s : State) : s.mainOn.skel = { s.skel with mode := .on, paused := false } := rfl

theorem State.startUnits_skel (s : State) (kind : Nat) : (State.startUnits s kind).skel = s.skel := by
  unfold State.startUnits
  simp only [apply_ite State.skel, ite_self, State.setFld_skel, State.setBit_skel, State.restoreF_skel, State.alwaysOnStart_skel, State.startRegs_skel, State.startImages_skel, State.clearApp_skel, State.clearUnits_skel, State.watchStart_skel]

theorem State.updRecord_skel (s : State) (seq : Nat) (cause : Nat) : (State.updRecord s seq cause).skel = s.skel := by
  unfold State.updRecord
  simp only [State.report_skel]

theorem State.rollbackEnd_skel (s : State) : (State.rollbackEnd s).skel = s.skel := by
  unfold State.rollbackEnd
  simp only [skel_mk, pending_skel, part_skel, phase_skel, mode_skel, paused_skel, edge_skel, number_skel, mono_skel, State.setFld_skel, State.setUpdState_skel, State.updRecord_skel, State.updEvt_skel, State.updParts_skel]

theorem State.unloadBead_skel (s : State) (n : Nat) : (State.unloadBead s n).skel = s.skel := by
  unfold State.unloadBead
  simp only [skel_mk, pending_skel, part_skel, phase_skel, mode_skel, paused_skel, edge_skel, number_skel, mono_skel, apply_ite State.skel, ite_self, foldl_skel, implies_true, State.leaveRod_skel, State.wr_skel]

theorem State.allOut_skel (s : State) : (State.allOut s).skel = s.skel := by
  unfold State.allOut
  simp only [foldl_skel, implies_true, State.unloadBead_skel, State.unbind_skel, State.setImage_skel, State.dropLeft_skel]

theorem State.rollbackSwitch_skel (s : State) : (State.rollbackSwitch s).skel = s.skel := by
  unfold State.rollbackSwitch
  extract_lets s1 s2
  have h1 : s1.skel = s.skel := by unfold s1; split <;> simp only [State.selectorTo_skel]
  clear_value s1
  have h2 : s2.skel = s.skel := by unfold s2; split <;> simp only [State.thaw_skel, State.allOut_skel, h1]
  clear_value s2
  rw [State.classBReset_skel]
  exact h2

theorem State.updStart_skel (s : State) : (State.updStart s).skel = s.skel := by
  unfold State.updStart
  simp only [apply_ite State.skel, ite_self, State.rollbackSwitch_skel, State.rollbackBegin_skel]

theorem State.start_skel (s0 : State) (kind count : Nat) :
    ∃ ns, (State.start s0 kind count).skel = s0.skel.started ns := by
  have h9 : ∀ t : State, (if t.updState = 5 then t.rollbackEnd else t.updParts).skel = t.skel := by
    intro t
    split
    · exact State.rollbackEnd_skel _
    · exact State.updParts_skel _
  obtain ⟨ns, h⟩ := State.startTime_skel (s0.bootSelect.updStart.startUnits kind).mainOn (decide (kind = 1)) count
  refine ⟨ns, ?_⟩
  unfold State.start
  refine (State.photoSync_skel _).trans ((h9 _).trans ?_)
  rw [State.bootMeasure_skel, State.startReady_skel, State.evrStart_skel, State.startFaults_skel, State.setBit_skel, State.setFld_skel, h,
    State.mainOn_skel, State.startUnits_skel, State.updStart_skel, State.bootSelect_skel]
  rfl

theorem State.countComm_skel (s : State) : (State.countComm s).skel = s.skel := by
  unfold State.countComm
  simp only [part_skel, State.setFld_skel]

theorem State.tablesReady_skel (s : State) : (State.tablesReady s).skel = s.skel := by
  unfold State.tablesReady
  simp only [State.setBit_skel, State.countComm_skel]

theorem State.functionReady_skel (s : State) (n : Nat) : (State.functionReady s n).skel = s.skel := by
  unfold State.functionReady
  (repeat' split) <;> (first | with_reducible rfl | (simp only [apply_ite State.skel, ite_self, State.setReady_skel, State.lceAutoclose_skel, State.evrReady_skel, State.tablesReady_skel, State.photoSync_skel]; done))

theorem State.tryTasks_skel (mj : Nat) (x1 : Nat) (x2 : State) (x3 : Nat) : (State.tryTasks mj x1 x2 x3).skel = x2.skel := by
  have hp : ∀ (t : State) (k : Option Nat), ({ t with pwr := { t.pwr with task := k } } : State).skel = t.skel := fun _ _ => rfl
  induction x1 generalizing x2 x3 with
  | zero => exact hp _ _
  | succ n ih =>
    unfold State.tryTasks
    split
    · exact hp _ _
    · split
      · extract_lets _ s1
        have h1 : s1.skel = x2.skel := hp _ _
        clear_value s1
        split
        · exact (State.lastGasp_skel _).trans h1
        · exact h1
      · exact (ih _ _).trans (State.setFld_skel _ _ _ _ _)

theorem State.mainOff_skel (s : State) :
    (State.mainOff s).skel = (if s.framesRun then { s.skel with phase := .stopped } else s.skel) ∨
    ∃ ns, (State.mainOff s).skel = s.skel.started ns := by
  have h : ∀ t : State, (if t.pwr.warmWait then t.start 1 t.rtcSub else t).skel = t.skel ∨
      ∃ ns, (if t.pwr.warmWait then t.start 1 t.rtcSub else t).skel = t.skel.started ns := by
    intro t
    split
    · exact .inr (State.start_skel _ _ _)
    · exact .inl rfl
  have h2 : ∀ t : State, ((t.wr 4 (t.rd 4 &&& 7)).tlqFlush 0).skel = t.skel := by
    intro t
    rw [State.tlqFlush_skel, State.wr_skel]
  have h3 : ∀ t : State, ({ t with pwr := { t.pwr with task := none } } : State).skel = t.skel := fun _ => rfl
  have h4 : (if s.framesRun then s.rodsStop else s).skel = (if s.framesRun then { s.skel with phase := .stopped } else s.skel) := by
    split
    · exact State.rodsStop_skel s
    · rfl
  unfold State.mainOff
  generalize (if s.framesRun then s.rodsStop else s) = t at h4
  have e : ((({ t with pwr := { t.pwr with task := none } } : State).wr 4 (({ t with pwr := { t.pwr with task := none } } : State).rd 4 &&& 7)).tlqFlush 0).skel
      = t.skel := (h2 _).trans (h3 t)
  rcases h ((({ t with pwr := { t.pwr with task := none } } : State).wr 4 (({ t with pwr := { t.pwr with task := none } } : State).rd 4 &&& 7)).tlqFlush 0)
    with h5 | ⟨ns, h5⟩
  · exact .inl (h5.trans (e.trans h4))
  · refine .inr ⟨ns, h5.trans ?_⟩
    rw [e, h4]
    split <;> rfl

theorem State.taskDone_skel (s : State) (t : Nat) : (State.taskDone s t).skel = s.skel := by
  unfold State.taskDone
  simp only [apply_ite State.skel, ite_self, State.evrFlush_skel, State.keySync_skel, State.setFld_skel]

theorem State.agateOut_skel (s : State) : (State.agateOut s).skel = s.skel := by
  unfold State.agateOut
  simp only [State.setBit_skel, State.agateRestore_skel]

theorem State.toQuartz_skel (s : State) : (State.toQuartz s).skel = s.skel := by
  unfold State.toQuartz
  simp only [State.setBit_skel, apply_ite State.skel, State.agateOut_skel, ite_self]

theorem State.updStage_skel (s : State) (what : Nat) (data : List Nat) : (State.updStage s what data).skel = s.skel := by
  unfold State.updStage
  simp only [State.report_skel]

theorem State.stagingEnd_skel (s : State) (st : Status) : (State.stagingEnd s st).skel = s.skel := by
  unfold State.stagingEnd
  simp only [State.setUpdState_skel, State.updEvt_skel, State.updRefuse_skel, State.eraseStaged_skel, State.updStage_skel]

theorem State.stagingAbort_skel (s : State) : (State.stagingAbort s).skel = s.skel := by
  unfold State.stagingAbort
  simp only [apply_ite State.skel, ite_self, State.setFld_skel, State.stagingEnd_skel]

theorem State.garnetEnter_skel (s : State) (first second cause : Nat) : (State.garnetEnter s first second cause).skel = s.skel := by
  unfold State.garnetEnter
  simp only [skel_mk, pending_skel, part_skel, phase_skel, mode_skel, paused_skel, edge_skel, number_skel, mono_skel, apply_ite State.skel, ite_self, foldl_skel, implies_true, State.setFld_skel, State.setBit_skel, State.addSat_skel, State.loopsGarnet_skel, State.setCur_skel, State.garnetLeaves_skel, State.failsafeBroadcast_skel, State.toQuartz_skel, State.dropLogs_skel, State.activatingBack_skel, State.stagingAbort_skel]

theorem State.doubleFault_skel (s : State) (first : Nat) (second : Nat) (cause : Nat) : (State.doubleFault s first second cause).skel = s.skel := by
  unfold State.doubleFault
  simp only [apply_ite State.skel, ite_self, State.report_skel, State.garnetEnter_skel]

theorem State.fltRaise_skel (s : State) (cls count : Nat) (info : List Nat) : (State.fltRaise s cls count info).skel = s.skel := by
  unfold State.fltRaise
  dsimp only
  (repeat' split) <;> (first | rfl | (simp_all only [skel_mk, pending_skel, part_skel, phase_skel, mode_skel, paused_skel, edge_skel, number_skel, mono_skel, apply_ite State.skel, ite_self, foldl_skel, implies_true, State.addSat_skel, State.report_skel, State.doubleFault_skel, State.fltSync_skel, State.fltNote_skel, State.fltServe_skel]; done) | grind [State.addSat_skel, State.report_skel, State.doubleFault_skel, State.fltSync_skel, State.fltNote_skel, State.fltServe_skel, skel_mk, foldl_skel])

theorem State.metEnd_skel (s : State) : (State.metEnd s).skel = s.skel := by
  unfold State.metEnd
  (repeat' split) <;> (first | with_reducible rfl | (simp only [skel_mk, pending_skel, part_skel, phase_skel, mode_skel, paused_skel, edge_skel, number_skel, mono_skel, apply_ite State.skel, ite_self, foldl_skel, implies_true, State.setFld_skel, State.setBit_skel, State.clearReady_skel, State.report_skel, State.fltRaise_skel, State.respond_skel]; done))

theorem State.streamDrop_skel (s : State) (i : Nat) (x : HostStream) : (State.streamDrop s i x).skel = s.skel := by
  unfold State.streamDrop
  (repeat' split) <;> (first | with_reducible rfl | (simp only [State.clearSlot_skel, State.stagingAbort_skel]; done))

theorem State.sessEnd_skel (s : State) (i : Nat) (resumable : Bool) : (State.sessEnd s i resumable).skel = s.skel := by
  unfold State.sessEnd
  dsimp only
  (repeat' split) <;> (first | rfl | (simp_all only [skel_mk, pending_skel, part_skel, phase_skel, mode_skel, paused_skel, edge_skel, number_skel, mono_skel, apply_ite State.skel, ite_self, foldl_skel, implies_true, State.setFld_skel, State.setSess_skel, State.syncSessions_skel, State.txnDrop_skel, State.streamDrop_skel, State.sessClear_skel]; done) | grind [State.setFld_skel, State.setSess_skel, State.syncSessions_skel, State.txnDrop_skel, State.streamDrop_skel, State.sessClear_skel, skel_mk, foldl_skel])

theorem State.hostClose_skel (s : State) : (State.hostClose s).skel = s.skel := by
  unfold State.hostClose
  simp only [foldl_skel, implies_true, State.peersDown_skel, State.sessEnd_skel]

theorem State.updVauxLost_skel (s : State) : (State.updVauxLost s).skel = s.skel := by
  unfold State.updVauxLost
  simp only [State.stagingAbort_skel]

theorem State.onyxStop_skel (s : State) :
    (State.onyxStop s).skel = if s.fr.phase = .bar then s.skel else { s.skel with phase := .stopped } := by
  have h : ∀ t : State, (if t.ready 13 ∨ t.met.sess then t.metEnd else t).skel = t.skel := by
    intro t
    split
    · exact State.metEnd_skel _
    · rfl
  have ha := State.assertSrc_skel s 0
  have hp : (s.assertSrc 0).fr.phase = s.fr.phase := congrArg Skel.phase ha
  unfold State.onyxStop
  rw [State.hostClose_skel]
  refine (h _).trans ?_
  rw [State.loopsOnyx_skel, State.drvPowerOff_skel, State.updVauxLost_skel]
  show (if (s.assertSrc 0).fr.phase = .bar then s.assertSrc 0 else (s.assertSrc 0).rodsStop).skel = _
  rw [hp]
  split
  · exact ha
  · exact (State.rodsStop_skel _).trans (congrArg (fun k : Skel => { k with phase := .stopped }) ha)

theorem State.onyxReady_skel (s : State) : (State.onyxReady s).skel = s.skel := by
  unfold State.onyxReady
  simp only [skel_mk, pending_skel, part_skel, phase_skel, mode_skel, paused_skel, edge_skel, number_skel, mono_skel, State.wr_skel, State.tlqFlush_skel]

theorem State.offWhenDone_skel (s : State) :
    (State.offWhenDone s).skel = s.skel ∨ ∃ ns, (State.offWhenDone s).skel = s.skel.started ns := by
  unfold State.offWhenDone
  split
  · rename_i h
    have hf : s.framesRun = false := by simpa using h.2
    rcases State.mainOff_skel s with h1 | ⟨ns, h1⟩
    · exact .inl (h1.trans (by rw [hf]; rfl))
    · exact .inr ⟨ns, h1⟩
  · exact .inl rfl

theorem State.onyxEnter_skel (s : State) (pct mj : Nat) :
    (State.onyxEnter s pct mj).skel =
      { s.skel with phase := if s.fr.phase = .bar then .bar else .stopped, mode := .onyx, paused := false } ∨
    ∃ ns, (State.onyxEnter s pct mj).skel = s.skel.started ns := by
  have h : ∀ t : State, t.skel = { s.skel with phase := if s.fr.phase = .bar then .bar else .stopped, mode := .onyx, paused := false } →
      t.offWhenDone.skel = { s.skel with phase := if s.fr.phase = .bar then .bar else .stopped, mode := .onyx, paused := false } ∨
      ∃ ns, t.offWhenDone.skel = s.skel.started ns := by
    intro t ht
    rcases State.offWhenDone_skel t with h | ⟨ns, h⟩
    · exact .inl (h.trans ht)
    · exact .inr ⟨ns, by rw [h, ht]; rfl⟩
  have h4 : ∀ (t : State) (e : Evr), ({ t with evr := e } : State).skel = t.skel := fun _ _ => rfl
  have h2 : ∀ (t : State) (p : Pwr) (f : Fp), ({ t with pwr := p, fp := f } : State).skel = { t.skel with mode := p.mode, paused := p.paused } :=
    fun _ _ _ => rfl
  unfold State.onyxEnter
  refine h _ ?_
  rw [State.tryTasks_skel, State.addSat_skel, State.setFld_skel, State.wr_skel]
  refine (h4 _ _).trans ?_
  rw [State.ntuOnyx_skel, State.onyxReady_skel]
  refine (h2 _ _ _).trans ?_
  rw [State.onyxStop_skel]
  by_cases hb : s.fr.phase = .bar
  · rw [if_pos hb, if_pos hb]
    show (⟨_, _, s.fr.phase, _, _, _, _, _⟩ : Skel) = _
    rw [hb]
  · rw [if_neg hb, if_neg hb]

theorem State.powerOff_skel (s : State) : (State.powerOff s).skel = { s.skel with mode := .off } := rfl

theorem State.appRegs_skel (s : State) : (State.appRegs s).skel = s.skel := by
  have h : ∀ (c : Nat → Prop) [DecidablePred c] (l : SMap Word) (t : State), (l.foldl (fun t e =>
      if c e.1 then
        match findReg e.1 with
        | some (r, _, _) => t.wr e.1 (r.write (t.rd e.1) e.2)
        | none => t
      else t) t).skel = t.skel := by
    intro c _ l t
    refine foldl_skel _ ?_ _ _
    intro t e
    split
    · split
      · exact State.wr_skel _ _ _
      · rfl
    · rfl
  unfold State.appRegs
  rw [State.restoreBnd_skel]
  exact (h (fun a => a / 0x10000 = 0x4 ∨ a / 0x10000 = 0x11) _ _).trans rfl

theorem State.appImages_skel (s : State) : (State.appImages s).skel = s.skel := by
  unfold State.appImages
  simp only [skel_mk, pending_skel, part_skel, phase_skel, mode_skel, paused_skel, edge_skel, number_skel, mono_skel, foldl_skel, implies_true, State.setFld_skel]

theorem State.updGarnet_skel (s : State) : (State.updGarnet s).skel = s.skel := by
  unfold State.updGarnet
  (repeat' split) <;> (first | with_reducible rfl | (simp only [skel_mk, pending_skel, part_skel, phase_skel, mode_skel, paused_skel, edge_skel, number_skel, mono_skel, apply_ite State.skel, ite_self, foldl_skel, implies_true, State.setUpdState_skel, State.updEvt_skel, State.rollbackSwitch_skel, State.rollbackBegin_skel, State.updRefuse_skel, State.stagingAbort_skel]; done))

theorem State.appReset_skel (s : State) :
    (State.appReset s).skel = { s.skel with phase := if s.pwr.paused then .stopped else .emit } := by
  have h5 : ∀ t : State, ({ t with flt := { t.flt with cur := none, queue := [], step := 5 } } : State).skel = t.skel := fun _ => rfl
  have h6 : ∀ t : State, ({ t with fr := { t.fr with phase := if t.pwr.paused then .stopped else .emit } } : State).skel
      = { t.skel with phase := if t.skel.paused then .stopped else .emit } := fun _ => rfl
  have h3 : ∀ (t : State) (g : Seg), ({ t with host := {}, seg := g } : State).skel = t.skel := fun _ _ => rfl
  unfold State.appReset
  rw [State.photoSync_skel, State.fltSync_skel]
  refine (h6 _).trans ?_
  refine (congrArg (fun k : Skel => { k with phase := if k.paused then Phase.stopped else Phase.emit }) ((h5 _).trans ?_)).trans rfl
  rw [State.setBit_skel, State.clearReady_skel, State.clearReady_skel, State.clearReady_skel, State.clearReady_skel]
  refine (h3 _ _).trans ?_
  rw [State.clearApp_skel, State.appRegs_skel, State.appImages_skel, State.updGarnet_skel, State.hostClose_skel]

theorem State.rebuiltLeaves_skel (s : State) : (State.rebuiltLeaves s).skel = s.skel := by
  unfold State.rebuiltLeaves
  simp only [State.countFaults_skel, skel_mk, pending_skel, part_skel, phase_skel, mode_skel, paused_skel, edge_skel, number_skel, mono_skel]

theorem State.garnetStores_skel (s : State) : (State.garnetStores s).skel = s.skel := by
  unfold State.garnetStores
  simp only [skel_mk, pending_skel, part_skel, phase_skel, mode_skel, paused_skel, edge_skel, number_skel, mono_skel, apply_ite State.skel, ite_self, State.tablesReady_skel, State.rebuiltLeaves_skel, State.restoreF_skel, State.rollbackEnd_skel]

theorem State.garnetRebuild_skel (s : State) : (State.garnetRebuild s).skel = s.skel := by
  unfold State.garnetRebuild
  simp only [apply_ite State.skel, ite_self, State.garnetStores_skel, State.photoSync_skel, State.setReady_skel, State.verifyAgain_skel]

theorem State.rebase_skel (s : State) (a : Int) : (State.rebase s a).skel = s.skel := by
  unfold State.rebase
  simp only [skel_mk, pending_skel, part_skel, phase_skel, mode_skel, paused_skel, edge_skel, number_skel, mono_skel]

theorem State.dropLate_skel (s : State) (x : Nat) : (State.dropLate s x).skel = s.skel := by
  unfold State.dropLate
  simp only [apply_ite State.skel, ite_self, foldl_skel, implies_true, State.setBit_skel, State.addSat_skel, State.setTlq_skel, State.returnItem_skel]

theorem State.timeStep_skel (s : State) : (State.timeStep s).skel = { s.skel with edge := s.timeStep.fr.edgeNs } := by
  have hr : ∀ (t : State) (n : Ntu), ({ t with ntu := n } : State).skel = t.skel := fun _ _ => rfl
  have hi : ∀ (c : Prop) [Decidable c] (t u : State), u.skel = t.skel → (if c then u else t).skel = t.skel := by
    intro c _ t u h
    split
    · exact h
    · rfl
  have he : ∀ (t : State) (n : Nat), t.skel = { s.skel with edge := n } → { t.skel with edge := 0 } = { s.skel with edge := 0 } := by
    intro t n h
    rw [h]
  have h : { s.timeStep.skel with edge := 0 } = { s.skel with edge := 0 } := by
    unfold State.timeStep
    split
    · rfl
    · rename_i a _
      refine he _ (moved a s.fr.edgeNs) ?_
      refine (hi (0 < a) _ _ ((State.dropLate_skel _ _).trans (State.dropLate_skel _ _))).trans ?_
      refine (State.epochStep_skel _ _ _ _).trans ((hi (decide (s.ntuState = 0) = true) _ _ (State.setNtuState_skel _ _)).trans ?_)
      refine (State.setBit_skel _ _ _ _ _).trans ((State.setFldI_skel _ _ _ _ _).trans ((hr _ _).trans ?_))
      exact (State.rebase_skel _ _).trans rfl
  have h2 := congrArg (fun k : Skel => { k with edge := s.timeStep.fr.edgeNs }) h
  exact h2

theorem State.agateWindow_skel (s : State) : (State.agateWindow s).skel = s.skel := by
  unfold State.agateWindow
  simp only [skel_mk, pending_skel, part_skel, phase_skel, mode_skel, paused_skel, edge_skel, number_skel, mono_skel, apply_ite State.skel, ite_self, State.g1Remap_skel, State.retune_skel, State.setFld_skel]

theorem State.agateIn_skel (s : State) : (State.agateIn s).skel = s.skel := by
  unfold State.agateIn
  simp only [State.agateWindow_skel, State.trxStop_skel, State.setBit_skel]

theorem State.powerEdge_skel (s : State) : (State.powerEdge s).skel = s.skel := by
  have h0 : ({ s with pwr := { s.pwr with quartzNow := false } } : State).skel = s.skel := rfl
  unfold State.powerEdge
  extract_lets want held _ s1
  have h1 : s1.skel = s.skel := (State.setBit_skel _ _ _ _ _).trans h0
  clear_value s1
  split
  · split
    · exact h1
    · exact (State.agateOut_skel _).trans h1
  · split
    · exact (State.agateIn_skel _).trans h1
    · exact h1

theorem State.drEdge_skel (s : State) : (State.drEdge s).skel = s.skel := by
  unfold State.drEdge
  simp only [apply_ite State.skel, ite_self, State.setFld_skel]

theorem State.tableCheck_skel (s : State) : (State.tableCheck s).skel = s.skel := by
  unfold State.tableCheck
  simp only [apply_ite State.skel, ite_self, State.setBit_skel, State.countComm_skel, State.setFld_skel]

theorem State.noteUnsaved_skel (old : SMap Byte) (s : State) : (State.noteUnsaved old s).skel = s.skel := by
  unfold State.noteUnsaved
  simp only [apply_ite State.skel, ite_self, State.setBit_skel]

theorem State.recordCleared_skel (s : State) (lid : Nat) : (State.recordCleared s lid).skel = s.skel := by
  unfold State.recordCleared
  simp only [skel_mk, pending_skel, part_skel, phase_skel, mode_skel, paused_skel, edge_skel, number_skel, mono_skel, State.clearClassM_skel]

theorem State.cellCleared_skel (s : State) (k : Nat) : (State.cellCleared s k).skel = s.skel := by
  unfold State.cellCleared
  simp only [skel_mk, pending_skel, part_skel, phase_skel, mode_skel, paused_skel, edge_skel, number_skel, mono_skel]

theorem State.moduleParity_skel (clear : State → Nat → State) (h : ∀ s k, (clear s k).skel = s.skel) (replays : Nat) (lost : List Nat)
    (s : State) : (State.moduleParity clear replays lost s).skel = s.skel := by
  unfold State.moduleParity
  extract_lets s1
  have h1 : s1.skel = s.skel := (foldl_skel _ h _ _).trans (State.addSat_skel _ _ _ _ _)
  clear_value s1
  split
  · exact h1
  · exact (State.fltRaise_skel _ _ _ _).trans h1

theorem State.wordCleared_skel (s : State) (a : Nat) : (State.wordCleared s a).skel = s.skel := by
  unfold State.wordCleared
  simp only [apply_ite State.skel, ite_self, foldl_skel, implies_true, State.putF_skel, State.recordCleared_skel]

theorem State.joinSnapOne_skel (s : State) (w : JoinWait) : (State.joinSnapOne s w).skel = s.skel := by
  have hl : ∀ (t : State) (q : JoinReq), (match t.enrolNode q with
      | (t1, true) => t1.sendJoinRsp q.eui .notReady 0xFFFE 0 [] none
      | (t1, false) => t1.sendJoinRsp q.eui .noSpace 0xFFFE 0 [] none).skel = t.skel := by
    intro t q
    have h := State.enrolNode_skel t q
    split <;> rename_i t1 e <;> rw [e] at h <;> rw [State.sendJoinRsp_skel] <;> exact h
  unfold State.joinSnapOne
  extract_lets q later list_
  have hlat : ∀ (t : State) (l : Nat), (later t l).skel = t.skel := fun _ _ => rfl
  have hli : ∀ t : State, (list_ t).skel = t.skel := fun t => hl t q
  clear_value later list_
  split
  · rw [State.report_skel, State.sendJoinRsp_skel]
  · split
    · rw [State.setBit_skel, State.sendJoinRsp_skel]
    · split
      · exact hlat _ _
      · split
        · split
          · exact (hlat _ _).trans (State.commission_skel _ _ _)
          · exact hli _
        · exact hli _

theorem State.joinSnap_skel (s : State) (edge : Nat) : (State.joinSnap s edge).skel = s.skel := by
  unfold State.joinSnap
  (repeat' split) <;> (first | with_reducible rfl | (simp only [skel_mk, pending_skel, part_skel, phase_skel, mode_skel, paused_skel, edge_skel, number_skel, mono_skel, apply_ite State.skel, ite_self, foldl_skel, implies_true, State.joinSnapOne_skel]; done))

theorem State.segSnap_skel (s : State) (edge : Nat) : (State.segSnap s edge).skel = s.skel := by
  unfold State.segSnap
  simp only [skel_mk, pending_skel, part_skel, phase_skel, mode_skel, paused_skel, edge_skel, number_skel, mono_skel, apply_ite State.skel, ite_self, foldl_skel, implies_true, State.cmdSnap_skel, State.leaveSnap_skel, State.takeReport_skel, State.joinSnap_skel, State.statusSnap_skel, State.setBit_skel, State.tallySnap_skel]

theorem State.metShow_skel (s : State) (m : Meas) : (State.metShow s m).skel = s.skel := by
  unfold State.metShow
  simp only [apply_ite State.skel, ite_self, foldl_skel, implies_true, State.wr_skel, State.setFld_skel, State.setBit_skel, State.report_skel, State.metCtShow_skel]

theorem State.metSnap_skel (s : State) (edge : Nat) : (State.metSnap s edge).skel = s.skel := by
  unfold State.metSnap
  (repeat' split) <;> (first | with_reducible rfl | (simp only [skel_mk, pending_skel, part_skel, phase_skel, mode_skel, paused_skel, edge_skel, number_skel, mono_skel, State.metShow_skel]; done))

theorem State.snap_skel (s : State) (replays : Nat) (lost : List Nat) : (State.snap s replays lost).skel = s.skel := by
  unfold State.snap
  simp only [skel_mk, pending_skel, part_skel, phase_skel, mode_skel, paused_skel, edge_skel, number_skel, mono_skel, implies_true, State.tableCheck_skel, State.noteUnsaved_skel, State.moduleParity_skel, State.flowSnap_skel, State.flowAges_skel, State.radSnap_skel, State.linkSnap_skel, State.segSnap_skel, State.metSnap_skel, State.wordCleared_skel, State.inputsSnap_skel]

theorem State.rodEdge_skel (s : State) (r : Nat) : (State.rodEdge s r).skel = s.skel := by
  unfold State.rodEdge
  simp only [apply_ite State.skel, ite_self, State.setRod_skel, State.setFld_skel, State.setBit_skel]

theorem State.takesEdge_skel (s : State) : (State.takesEdge s).skel = s.skel := by
  unfold State.takesEdge
  simp only [apply_ite State.skel, ite_self, foldl_skel, implies_true, State.setFld_skel]

theorem State.beadEdge_skel (s : State) (n : Nat) : (State.beadEdge s n).skel = s.skel := by
  unfold State.beadEdge
  simp only [State.setBead_skel]

theorem State.markDue_skel (s : State) (r : Nat) : (State.markDue s r).skel = s.skel := by
  unfold State.markDue
  simp only [foldl_skel, implies_true, State.setBead_skel]

theorem State.makeReady_skel (s : State) (n : Nat) : (State.makeReady s n).skel = s.skel := by
  unfold State.makeReady
  simp only [State.setBeadState_skel, State.begin_skel, State.setBead_skel]

theorem State.selectWithin_skel (s0 : State) (e : Nat) (r : Nat) : (State.selectWithin s0 e r).skel = s0.skel := by
  unfold State.selectWithin
  simp only [foldl_skel, implies_true, State.markDue_skel, State.addSat_skel, State.makeReady_skel, State.setRod_skel, State.setFld_skel]

theorem State.selectRod_skel (e : Nat) (s0 : State) (r : Nat) : (State.selectRod e s0 r).skel = s0.skel := by
  unfold State.selectRod
  simp only [apply_ite State.skel, ite_self, State.setFld_skel, State.selectWithin_skel, State.setRod_skel]

theorem State.selectAll_skel (s : State) (tj : Int) : (State.selectAll s tj).skel = s.skel := by
  unfold State.selectAll
  simp only [part_skel, foldl_skel, implies_true, State.setFldI_skel, State.setFld_skel, State.selectRod_skel]

theorem State.garnetClear_skel (s : State) : (State.garnetClear s).skel = s.skel := by
  unfold State.garnetClear
  simp only [skel_mk, pending_skel, part_skel, phase_skel, mode_skel, paused_skel, edge_skel, number_skel, mono_skel, apply_ite State.skel, ite_self, State.setBit_skel]

theorem State.rtcCommit_skel (s : State) (t : RtcTime) (sec : Bool) (source : Nat) : (State.rtcCommit s t sec source).skel = s.skel := by
  unfold State.rtcCommit
  simp only [skel_mk, pending_skel, part_skel, phase_skel, mode_skel, paused_skel, edge_skel, number_skel, mono_skel, apply_ite State.skel, ite_self, State.setBit_skel, State.epochStep_skel, State.setRtcTime_skel, State.almSkips_skel]

theorem State.rtcEdge_skel (s : State) : (State.rtcEdge s).skel = s.skel := by
  unfold State.rtcEdge
  (repeat' split) <;> (first | with_reducible rfl | (simp only [skel_mk, pending_skel, part_skel, phase_skel, mode_skel, paused_skel, edge_skel, number_skel, mono_skel, apply_ite State.skel, ite_self, State.rtcResult_skel, State.report_skel, State.rtcCommit_skel]; done))

theorem State.edgeUnits_skel (s : State) (x : Sense) :
    (State.edgeUnits s x).skel = s.skel.ticked s.timeStep.nextEdge (s.fr.mono + 1) := by
  have h : s.timeStep.fr.mono = s.fr.mono := congrArg Skel.mono (State.timeStep_skel s)
  unfold State.edgeUnits
  rw [State.updEdge_skel, State.lceEdge_skel, State.drvEdge_skel, State.rtcEdge_skel, State.keyEdge_skel, State.drEdge_skel,
    State.powerEdge_skel, State.takesEdge_skel, State.tickEdge_skel, State.timeStep_skel, h]
  rfl

theorem State.imageOut_skel (s : State) (j : Nat) : (State.imageOut s j).skel = s.skel := by
  unfold State.imageOut
  simp only [apply_ite State.skel, ite_self, foldl_skel, implies_true, State.unloadBead_skel, State.unbind_skel, State.setImage_skel]

theorem State.unplace_skel (s : State) (x : Image) : (State.unplace s x).skel = s.skel := by
  unfold State.unplace
  simp only [foldl_skel, implies_true, State.unloadBead_skel]

theorem State.activateNow_skel (s : State) (i : Nat) (ps : List Place) (clear : Bool) : (State.activateNow s i ps clear).skel = s.skel := by
  unfold State.activateNow
  (repeat' split) <;> (first | (simp_all only [skel_mk, pending_skel, part_skel, phase_skel, mode_skel, paused_skel, edge_skel, number_skel, mono_skel, apply_ite State.skel, ite_self, foldl_skel, implies_true, State.setFld_skel, State.setImage_skel, State.admitSync_skel, State.loadBead_skel, State.startNow_skel, State.imageMemory_skel, State.bindAll_skel, State.imgResult_skel, State.imageOut_skel, State.unplace_skel]; done) | grind [State.setFld_skel, State.setImage_skel, State.admitSync_skel, State.loadBead_skel, State.startNow_skel, State.imageMemory_skel, State.bindAll_skel, State.imgResult_skel, State.imageOut_skel, State.unplace_skel, skel_mk, foldl_skel])

theorem State.activateChecked_skel (s : State) (i : Nat) (clear : Bool) : (State.activateChecked s i clear).skel = s.skel := by
  unfold State.activateChecked
  (repeat' split) <;> (first | with_reducible rfl | (simp only [skel_mk, pending_skel, part_skel, phase_skel, mode_skel, paused_skel, edge_skel, number_skel, mono_skel, apply_ite State.skel, ite_self, foldl_skel, implies_true, State.setFld_skel, State.setImage_skel, State.imgResult_skel, State.activateNow_skel]; done))

theorem State.imageAgain_skel (s : State) : (State.imageAgain s).skel = s.skel := by
  unfold State.imageAgain
  dsimp only
  (repeat' split) <;> (first | rfl | (simp_all only [skel_mk, pending_skel, part_skel, phase_skel, mode_skel, paused_skel, edge_skel, number_skel, mono_skel, apply_ite State.skel, ite_self, foldl_skel, implies_true, State.activateChecked_skel]; done) | grind [State.activateChecked_skel, skel_mk, foldl_skel])

theorem State.imageEdge_skel (s : State) : (State.imageEdge s).skel = s.skel := by
  unfold State.imageEdge
  simp only [apply_ite State.skel, ite_self, foldl_skel, implies_true, State.setImage_skel, State.admitSync_skel, State.imageOut_skel, State.activateChecked_skel, State.dropLeft_skel]

theorem State.edgeBeads_skel (s : State) : (State.edgeBeads s).skel = s.skel := by
  have h1 : ({ s with fr := { s.fr with limitPct := s.fld R.ROD_ADMIT_LIMIT_LIMIT, compat := s.bit R.ROD_PORT_COMPAT } } : State).skel
      = s.skel := rfl
  have h2 : ∀ t : State, (if t.ready 8 then t.imageEdge.imageAgain else t).skel = t.skel := by
    intro t
    split
    · rw [State.imageAgain_skel, State.imageEdge_skel]
    · rfl
  unfold State.edgeBeads
  refine (foldl_skel _ (fun _ _ => State.beadRequests_skel _ _) _ _).trans ?_
  rw [State.garnetClear_skel]
  exact (h2 _).trans h1

theorem State.frameBegin_skel (s : State) (x : Sense) (replays : Nat) (lost : List Nat) :
    (State.frameBegin s x replays lost).skel = { s.skel with phase := .snap } := by
  have h5 : ∀ (t : State) (m : SMap Byte), ({ t with bar := { t.bar with old := some m } } : State).skel = t.skel := fun _ _ => rfl
  have h6 : ∀ t : State, ({ t with fr := { t.fr with phase := .snap } } : State).skel = { t.skel with phase := .snap } := fun _ => rfl
  unfold State.frameBegin
  refine (h6 _).trans (congrArg (fun k : Skel => { k with phase := Phase.snap }) ((foldl_skel _ (fun _ _ => State.syncNext_skel _ _) _ _).trans ((h5 _ _).trans ?_)))
  rw [State.selectAll_skel]
  refine (foldl_skel _ (fun _ _ => State.beadEdge_skel _ _) _ _).trans ?_
  refine (foldl_skel _ State.rodEdge_skel _ _).trans ?_
  rw [State.snap_skel, State.edgeBeads_skel]

theorem State.frameEdge_skel (s : State) (x : Sense) (replays : Nat) (lost : List Nat) :
    let k := s.skel.ticked s.timeStep.nextEdge (s.fr.mono + 1)
    (s.pwr.paused = true ∧ (State.frameEdge s x replays lost).skel = k) ∨
    (s.pwr.paused = false ∧ ((State.frameEdge s x replays lost).skel = { k with phase := .emit } ∨
      (State.frameEdge s x replays lost).skel = { k with phase := .snap })) := by
  intro k
  have key : ∀ t : State, t.skel = k →
      (s.pwr.paused = true ∧ (if t.pwr.paused then t else if t.halted then ({ t with fr := { t.fr with phase := .emit } } : State)
        else t.frameBegin x replays lost).skel = k) ∨
      (s.pwr.paused = false ∧
        ((if t.pwr.paused then t else if t.halted then ({ t with fr := { t.fr with phase := .emit } } : State)
          else t.frameBegin x replays lost).skel = { k with phase := .emit } ∨
        (if t.pwr.paused then t else if t.halted then ({ t with fr := { t.fr with phase := .emit } } : State)
          else t.frameBegin x replays lost).skel = { k with phase := .snap })) := by
    intro t h1
    have hp : t.pwr.paused = s.pwr.paused := congrArg Skel.paused h1
    by_cases h : t.pwr.paused
    · refine .inl ⟨hp ▸ h, ?_⟩
      rw [if_pos h, h1]
    · refine .inr ⟨by rw [← hp]; simpa using h, ?_⟩
      rw [if_neg h, ← h1]
      split
      · exact .inl rfl
      · exact .inr (State.frameBegin_skel _ _ _ _)
  unfold State.frameEdge
  simp only [State.photoSync_skel]
  exact key _ (State.edgeUnits_skel _ _)

theorem State.execStart_skel (s : State) : (State.execStart s).skel = { s.skel with phase := .exec } := by
  unfold State.execStart
  exact (foldl_skel _ State.kick_skel _ _).trans rfl

theorem State.handlerBack_skel (s : State) (r slot : Nat) : (State.handlerBack s r slot).skel = s.skel := by
  unfold State.handlerBack
  simp only [State.resume_skel, State.setAside_skel]

theorem State.accessDone_skel (s : State) (r slot : Nat) : (State.accessDone s r slot).skel = s.skel := by
  unfold State.accessDone
  simp only [apply_ite State.skel, ite_self, State.setRod_skel, State.syncParked_skel, State.kick_skel, State.letPark_skel, State.handlerBack_skel, State.dropPortCredit_skel]

theorem State.portServe_skel (s : State) : (State.portServe s).skel = s.skel := by
  unfold State.portServe
  (repeat' split) <;> (first | with_reducible rfl | (simp only [skel_mk, pending_skel, part_skel, phase_skel, mode_skel, paused_skel, edge_skel, number_skel, mono_skel, State.accessDone_skel]; done))

theorem State.deferReady_skel (s : State) (n : Nat) : (State.deferReady s n).skel = s.skel := by
  unfold State.deferReady
  simp only [State.syncNext_skel, State.addSat_skel, State.setBeadState_skel, State.setBead_skel, State.setRod_skel]

theorem State.abortBead_skel (s : State) (n : Nat) : (State.abortBead s n).skel = s.skel := by
  unfold State.abortBead
  simp only [State.beadFault_skel]

theorem State.markSpan_skel (s : State) (n : Nat) : (State.markSpan s n).skel = s.skel := by
  unfold State.markSpan
  simp only [State.setBit_skel, State.setBead_skel]

theorem State.barBeads_skel (s : State) : (State.barBeads s).skel = s.skel := by
  unfold State.barBeads
  simp only [apply_ite State.skel, ite_self, foldl_skel, implies_true, State.deferReady_skel, State.markSpan_skel, State.abortBead_skel, State.fltRaise_skel]

theorem State.dropBadLogs_skel (s : State) (q : List QLog) (bad : List Nat) : (State.dropBadLogs s q bad).skel = s.skel := by
  unfold State.dropBadLogs
  simp only [apply_ite State.skel, ite_self, foldl_skel, implies_true, State.beadFault_skel, State.fltRaise_skel]

theorem State.commitWords_skel (s : State) (ws : List (Nat × Word)) : (State.commitWords s ws).skel = s.skel := by
  unfold State.commitWords
  simp only [foldl_skel, implies_true, State.putF_skel]

theorem State.imgUnload_skel (s : State) (i : Nat) : (State.imgUnload s i).2.skel = s.skel := by
  unfold State.imgUnload
  simp only [apply_ite State.skel, ite_self, apply_ite Prod.snd, State.clearSlot_skel, State.admitSync_skel, State.imageOut_skel, State.trialWrite_skel, State.notAgain_skel, State.leaveSlot_skel]

theorem State.writeImgCtrl_skel (s : State) (v : Word) : (State.writeImgCtrl s v).2.skel = s.skel := by
  unfold State.writeImgCtrl
  (repeat' split) <;> (first | with_reducible rfl | (simp only [State.imgActivate_skel, State.imgDeactivate_skel, State.imgUnload_skel]; done))

theorem State.ltabWrite_skel (s : State) (who : Requester) (a : Nat) (v : Word) (t : _) (h : State.ltabWrite s who a v = some t) : t.2.skel = s.skel := by
  unfold State.ltabWrite at h
  split at h
  · cases h; exact State.setOwn_skel _ _ _ _
  · split at h
    · cases h; exact State.writeImgCtrl_skel _ _
    · split at h
      · cases h; exact State.writeFwCtrl_skel _ _
      · split at h
        · cases h; rfl
        · cases h

theorem State.agateFollow_skel (s : State) : (State.agateFollow s).skel = s.skel := by
  unfold State.agateFollow
  simp only [apply_ite State.skel, ite_self, State.agateWindow_skel, State.agateRestore_skel]

theorem State.writeDemod_skel (s : State) (d : Nat) (v : Word) : (State.writeDemod s d v).2.skel = s.skel := by
  unfold State.writeDemod
  simp only [part_skel, apply_ite State.skel, ite_self, apply_ite Prod.snd, State.wr_skel, State.g1Remap_skel, State.retune_skel, State.agateFollow_skel]

theorem State.writeAgate_skel (s : State) (v : Word) : (State.writeAgate s v).2.skel = s.skel := by
  unfold State.writeAgate
  simp only [apply_ite State.skel, ite_self, apply_ite Prod.snd, State.setFld_skel, State.retune_skel, State.agateFollow_skel]

theorem State.radWrite_skel (s : State) (a : Nat) (v : Word) (t : _) (h : State.radWrite s a v = some t) : t.2.skel = s.skel := by
  unfold State.radWrite at h
  repeat' split at h
  all_goals first
    | (injection h with h; subst h; first
        | exact State.writeDemod_skel _ _ _ | exact State.writeRxpart_skel _ _ _ | exact State.writeWin_skel _ _ _ | exact State.writeHopCfg_skel _ _ _
        | exact State.writeHopEnt_skel _ _ _ | exact State.writeAgate_skel _ _ | exact State.writeLinkCfg_skel _ _ | exact State.writeLinkMap_skel _ _
        | exact State.wr_skel _ _ _ | rfl)
    | (simp at h; done)

theorem State.ainWire_skel (s : State) (k : Nat) (fault : Bool) : (State.ainWire s k fault).skel = s.skel := by
  unfold State.ainWire
  simp only [apply_ite State.skel, ite_self, foldl_skel, implies_true, State.setBit_skel, State.setFld_skel, State.report_skel, State.setLoopState_skel, State.loopClose_skel]

theorem State.lceWrite_skel (s : State) (a : Nat) (v : Word) (t : _) (h : State.lceWrite s a v = some t) : t.2.skel = s.skel := by
  unfold State.lceWrite at h
  grind [State.wr_skel, State.ainWire_skel, State.writeAoutMan_skel, State.writeLceCtrl_skel, State.writeLoopReg_skel, skel_mk]

theorem State.writeRtcSet_skel (s : State) (source : Nat) (v : Word) : (State.writeRtcSet s source v).2.skel = s.skel := by
  unfold State.writeRtcSet
  simp only [apply_ite State.skel, ite_self, State.rtcResult_skel, State.rtcCommit_skel, apply_ite Prod.snd]

theorem State.rtcWrite_skel (s : State) (sup : Bool) (a : Nat) (v : Word) (t : _) (h : State.rtcWrite s sup a v = some t) : t.2.skel = s.skel := by
  unfold State.rtcWrite at h
  grind [State.writeRtcSet_skel, State.writeAlmCtrl_skel, State.setEvin_skel, skel_mk]

theorem State.respondAuth_skel (s : State) (i : Nat) (id : Nat) : (State.respondAuth s i id).skel = s.skel := by
  unfold State.respondAuth
  simp only [State.report_skel, State.respond_skel]

theorem State.keyAnswer_skel (s : State) (who : Option (Nat × Nat)) (st : Status) (res : List Int) : (State.keyAnswer s who st res).skel = s.skel := by
  unfold State.keyAnswer
  (repeat' split) <;> (first | with_reducible rfl | (simp only [skel_mk, pending_skel, part_skel, phase_skel, mode_skel, paused_skel, edge_skel, number_skel, mono_skel, apply_ite State.skel, ite_self, foldl_skel, implies_true, State.respond_skel, State.respondAuth_skel]; done))

theorem State.keyFail_skel (s : State) (j : KeyJob) (st : Status) : (State.keyFail s j st).skel = s.skel := by
  unfold State.keyFail
  (repeat' split) <;> (first | with_reducible rfl | (simp only [skel_mk, pending_skel, part_skel, phase_skel, mode_skel, paused_skel, edge_skel, number_skel, mono_skel, apply_ite State.skel, ite_self, foldl_skel, implies_true, State.emit_skel, State.updRefuse_skel, State.keyAnswer_skel]; done))

theorem State.failJobs_skel (s : State) (ks : List Nat) : (State.failJobs s ks).skel = s.skel := by
  unfold State.failJobs
  simp only [skel_mk, pending_skel, part_skel, phase_skel, mode_skel, paused_skel, edge_skel, number_skel, mono_skel, foldl_skel, implies_true, State.syncQueue_skel, State.keyFail_skel]

theorem State.invalidate_skel (s : State) (k : Nat) (again : Bool) : (State.invalidate s k again).skel = s.skel := by
  unfold State.invalidate
  simp only [foldl_skel, implies_true, State.setFld_skel, State.setKeySlot_skel, State.report_skel, State.setBit_skel, State.failJobs_skel]

theorem State.keyRevoke_skel (s : State) (k : Nat) : (State.keyRevoke s k).2.skel = s.skel := by
  unfold State.keyRevoke
  (repeat' split) <;> (first | with_reducible rfl | (simp only [State.setFld_skel, State.setKeySlot_skel, State.invalidate_skel]; done))

theorem State.keyWrite_skel (s : State) (a : Nat) (v : Word) (t : _) (h : State.keyWrite s a v = some t) : t.2.skel = s.skel := by
  unfold State.keyWrite at h
  grind [State.keyRevoke_skel, skel_mk]

theorem State.keyLoad_skel (s : State) (i id : Nat) (q : KeyLoad) : (State.keyLoad s i id q).skel = s.skel := by
  unfold State.keyLoad
  (repeat' split) <;> (first | with_reducible rfl | (simp only [skel_mk, pending_skel, part_skel, phase_skel, mode_skel, paused_skel, edge_skel, number_skel, mono_skel, apply_ite State.skel, ite_self, foldl_skel, implies_true, State.respond_skel, State.respondAuth_skel, State.keyBusy_skel, State.keyQueue_skel]; done))

theorem State.keyCommit_skel (s : State) (k : Nat) : (State.keyCommit s k).skel = s.skel := by
  unfold State.keyCommit
  (repeat' split) <;> (first | (simp_all only [skel_mk, pending_skel, part_skel, phase_skel, mode_skel, paused_skel, edge_skel, number_skel, mono_skel, apply_ite State.skel, ite_self, foldl_skel, implies_true, State.setFld_skel, State.report_skel, State.setKeySlot_skel, State.showKey_skel, State.deriveSlot_skel, State.invalidate_skel, State.keyLoad_skel]; done) | grind [State.setFld_skel, State.report_skel, State.setKeySlot_skel, State.showKey_skel, State.deriveSlot_skel, State.invalidate_skel, State.keyLoad_skel, skel_mk, foldl_skel])

theorem State.keyReplace_skel (s : State) (k : Nat) (h : KeyHalf) : (State.keyReplace s k h).skel = s.skel := by
  unfold State.keyReplace
  rw [State.keyCommit_skel, State.halfWrite_skel]

theorem State.updConfirm_skel (s : State) : (State.updConfirm s).2.skel = s.skel := by
  unfold State.updConfirm
  dsimp only
  (repeat' split) <;> (first | rfl | (simp_all only [skel_mk, pending_skel, part_skel, phase_skel, mode_skel, paused_skel, edge_skel, number_skel, mono_skel, apply_ite State.skel, ite_self, foldl_skel, implies_true, apply_ite Prod.fst, apply_ite Prod.snd, State.setFld_skel, State.keyReplace_skel, State.campAbort_skel, State.setUpdState_skel, State.updParts_skel, State.updEvt_skel, State.updRefuse_skel, State.updRecord_skel, State.writeSelector_skel]; done) | grind [State.setFld_skel, State.keyReplace_skel, State.campAbort_skel, State.setUpdState_skel, State.updParts_skel, State.updEvt_skel, State.updRefuse_skel, State.updRecord_skel, State.writeSelector_skel, skel_mk, foldl_skel])

theorem State.updAbort_skel (s : State) : (State.updAbort s).2.skel = s.skel := by
  unfold State.updAbort
  simp only [apply_ite State.skel, ite_self, apply_ite Prod.snd, State.setFld_skel, State.setUpdState_skel, State.updRefuse_skel, State.eraseStaged_skel, State.stagingAbort_skel, State.updStage_skel]

theorem State.writeUpdCtrl_skel (s : State) (v : Word) : (State.writeUpdCtrl s v).2.skel = s.skel := by
  unfold State.writeUpdCtrl
  (repeat' split) <;> (first | with_reducible rfl | (simp only [State.updActivate_skel, State.updConfirm_skel, State.updRollback_skel, State.updAbort_skel]; done))

theorem State.unitWrite_skel (s : State) (who : Requester) (a : Nat) (v : Word) (t : _) (h : State.unitWrite s who a v = some t) : t.2.skel = s.skel := by
  unfold State.unitWrite at h
  grind [State.powerRequest_skel, State.icuWrite_skel, State.rodWrite_skel, State.flowWrite_skel, State.ltabWrite_skel, State.radWrite_skel, State.ntuWrite_skel, State.drvWrite_skel, State.lceWrite_skel, State.metWrite_skel, State.rtcWrite_skel, State.keyWrite_skel, State.evrWrite_skel, State.writeUpdCtrl_skel, State.setPin_skel, State.wchWrite_skel, State.hostWrite_skel, skel_mk]

theorem State.performWrite_skel (s : State) (who : Requester) (a : Nat) (v : Word) : (State.performWrite s who a v).2.skel = s.skel := by
  unfold State.performWrite
  have h : ((s.unitWrite who a v).getD (.ok, s.plainWrite a v)).2.skel = s.skel := by
    cases hu : s.unitWrite who a v with
    | none => exact State.plainWrite_skel _ _ _
    | some p => exact State.unitWrite_skel _ _ _ _ _ hu
  generalize (s.unitWrite who a v).getD (.ok, s.plainWrite a v) = p at h
  obtain ⟨st, s1⟩ := p
  cases st <;> try exact h
  show (noteWrite a s (if classAReg a then s1.trialWrite 1 else s1)).skel = s.skel
  rw [State.noteWrite_skel]
  split
  · exact (State.trialWrite_skel _ _).trans h
  · exact h

theorem State.performPort_skel (s : State) (n : Nat) (a : Nat) (v : Word) : (State.performPort s n a v).skel = s.skel := by
  unfold State.performPort
  (repeat' split) <;> (first | (simp_all only [skel_mk, pending_skel, part_skel, phase_skel, mode_skel, paused_skel, edge_skel, number_skel, mono_skel, apply_ite State.skel, ite_self, foldl_skel, implies_true, State.report_skel, State.performWrite_skel]; done) | grind [State.report_skel, State.performWrite_skel, skel_mk, foldl_skel])

theorem State.performPorts_skel (s : State) (q : QLog) : (State.performPorts s q).skel = s.skel := by
  unfold State.performPorts
  (repeat' split) <;> (first | (simp_all only [skel_mk, pending_skel, part_skel, phase_skel, mode_skel, paused_skel, edge_skel, number_skel, mono_skel, apply_ite State.skel, ite_self, foldl_skel, implies_true, State.performPort_skel]; done) | grind [State.performPort_skel, skel_mk, foldl_skel])

theorem State.noteCommit_skel (s : State) (q : QLog) : (State.noteCommit s q).skel = s.skel := by
  unfold State.noteCommit
  simp only [skel_mk, pending_skel, part_skel, phase_skel, mode_skel, paused_skel, edge_skel, number_skel, mono_skel, apply_ite State.skel, ite_self, State.setBead_skel]

theorem State.commitLogs_skel (s : State) (q : List QLog) (bad : List Nat) : (State.commitLogs s q bad).skel = s.skel := by
  unfold State.commitLogs
  simp only [skel_mk, pending_skel, part_skel, phase_skel, mode_skel, paused_skel, edge_skel, number_skel, mono_skel, foldl_skel, implies_true, State.dropBadLogs_skel, State.addSat_skel, State.commitWords_skel, State.trialWrite_skel, State.noteCommit_skel, State.performPorts_skel]

theorem State.heldRegs_skel (i : Nat) (x1 : List ((Nat × Word) × Nat)) (x2 : State) : (State.heldRegs i x1 x2).1.skel = x2.skel := by
  (fun_induction State.heldRegs i x1 x2 <;> grind [State.performWrite_skel, skel_mk, foldl_skel])

theorem State.tryHost_skel (s : State) (h : HostWr) : (State.tryHost s h).1.skel = s.skel := by
  have h1 : ∀ (t : State) (f g : SMap Byte), ({ t with fmem := f, ftwin := g } : State).skel = t.skel := fun _ _ _ => rfl
  unfold State.tryHost
  extract_lets fw s1 fixed s2
  have h2 : s2.skel = s.skel := (State.trialWrite_skel _ _).trans ((h1 _ _ _).trans (State.commitWords_skel _ _))
  clear_value s2
  split
  · rfl
  · split
    · rename_i s3 e
      have := State.heldRegs_skel h.session h.ws.zipIdx s2
      rw [e] at this
      exact this.trans h2
    · rfl

theorem State.commitHost_skel (s : State) (h : HostWr) : (State.commitHost s h).skel = s.skel := by
  unfold State.commitHost
  (repeat' split) <;> (first | (simp_all only [skel_mk, pending_skel, part_skel, phase_skel, mode_skel, paused_skel, edge_skel, number_skel, mono_skel, apply_ite State.skel, ite_self, foldl_skel, implies_true, State.tryHost_skel, State.respond_skel]; done) | grind [State.tryHost_skel, State.respond_skel, skel_mk, foldl_skel])

theorem State.commitHosts_skel (s : State) (hs : List HostWr) : (State.commitHosts s hs).skel = s.skel := by
  unfold State.commitHosts
  simp only [foldl_skel, implies_true, State.commitHost_skel]

theorem State.barBegin_skel (s : State) : s.barBegin.skel = { s.skel with phase := .bar } := rfl

theorem State.barOpen_skel (s : State) (bad : List Nat) : (s.barOpen bad).skel = { s.skel with phase := .bar } := by
  unfold State.barOpen
  rw [State.enrolBar_skel, State.noteUnsaved_skel, State.commitHosts_skel, State.commitLogs_skel, State.barBeads_skel,
    State.barBegin_skel]

theorem State.releaseLog_skel (s : State) (q : QLog) : (State.releaseLog s q).skel = s.skel := by
  unfold State.releaseLog
  simp only [skel_mk, pending_skel, part_skel, phase_skel, mode_skel, paused_skel, edge_skel, number_skel, mono_skel, State.setBead_skel]

theorem State.countOver_skel (s : State) : (State.countOver s).skel = s.skel := by
  unfold State.countOver
  simp only [skel_mk, pending_skel, part_skel, phase_skel, mode_skel, paused_skel, edge_skel, number_skel, mono_skel]

theorem State.emitPhase_skel (s : State) : (State.emitPhase s).skel = s.skel := by
  unfold State.emitPhase
  simp only [apply_ite State.skel, ite_self, State.segEmit_skel, State.evrHand_skel, State.countOver_skel, State.joinEmit_skel, State.postDispatch_skel, State.offerNow_skel]

theorem State.barTimes_skel (s : State) (d : Nat) : (State.barTimes s d).skel = s.skel := by
  unfold State.barTimes
  simp only [State.setFld_skel]

theorem State.barComplete_skel (s : State) (d : Nat) : (s.barComplete d).skel = { s.skel with phase := .emit } := by
  have h2 : ∀ t : State, (if t.halted then t else (t.bar.released.foldl State.releaseLog t).emitPhase).skel = t.skel := by
    intro t
    split
    · rfl
    · rw [State.emitPhase_skel]; exact foldl_skel _ State.releaseLog_skel _ _
  have h3 : ∀ t : State, ({ t with bar := { t.bar with old := none, released := [] } } : State).skel = t.skel := fun _ => rfl
  have h4 : ∀ t : State, ({ t with fr := { t.fr with phase := .emit } } : State).countComm.skel = { t.skel with phase := .emit } :=
    fun t => State.countComm_skel _
  unfold State.barComplete
  refine (h4 _).trans (congrArg (fun k : Skel => { k with phase := Phase.emit }) ((h3 _).trans ((h2 _).trans ?_)))
  rw [State.barTimes_skel, State.atUs_skel]

theorem State.barOverrun_skel (s : State) : (State.barOverrun s).skel = s.skel := by
  unfold State.barOverrun
  simp only [skel_mk, pending_skel, part_skel, phase_skel, mode_skel, paused_skel, edge_skel, number_skel, mono_skel, State.atUs_skel, State.fltRaise_skel, State.assertSrc_skel]

theorem State.beadReplay_skel (s : State) (n : Nat) : (State.beadReplay s n).skel = s.skel := by
  unfold State.beadReplay
  simp only [apply_ite State.skel, ite_self, State.setBit_skel, State.setBead_skel, State.addSat_skel, State.accessDone_skel]

theorem State.parityFault_skel (s : State) (n : Nat) (addr : Nat) : (State.parityFault s n addr).skel = s.skel := by
  unfold State.parityFault
  simp only [State.fltRaise_skel, State.beadFault_skel]

theorem State.accessReplay_skel (s : State) (n addr : Nat) (inF : Bool) (e : ReplayEnd) : (State.accessReplay s n addr inF e).skel = s.skel := by
  unfold State.accessReplay
  (repeat' split) <;> (first | with_reducible rfl | (simp only [skel_mk, pending_skel, part_skel, phase_skel, mode_skel, paused_skel, edge_skel, number_skel, mono_skel, apply_ite State.skel, ite_self, foldl_skel, implies_true, State.addSat_skel, State.beadReplay_skel, State.parityFault_skel, State.twinRestore_skel]; done))

theorem State.launchLate_skel (s : State) (x : Nat) (e : TlqEntry) : (State.launchLate s x e).skel = s.skel := by
  unfold State.launchLate
  simp only [State.setBit_skel, State.addSat_skel, State.setTlq_skel, State.returnItem_skel]

theorem State.launchTry_skel (s : State) (x : Nat) (energy : Int) : (State.launchTry s x energy).skel = s.skel := by
  unfold State.launchTry
  (repeat' split) <;> (first | with_reducible rfl | (simp only [skel_mk, pending_skel, part_skel, phase_skel, mode_skel, paused_skel, edge_skel, number_skel, mono_skel, apply_ite State.skel, ite_self, foldl_skel, implies_true, State.setTlq_skel, State.launchLate_skel, State.launchSend_skel, State.deafen_skel]; done))

theorem State.keyBroken_skel (s : State) (k : Nat) : (State.keyBroken s k).skel = s.skel := by
  unfold State.keyBroken
  simp only [apply_ite State.skel, ite_self, State.updHalf_skel, State.setKeySlot_skel, State.report_skel, State.setBit_skel, State.setFld_skel, State.invalidate_skel, State.fltRaise_skel]

theorem State.recoverShow_skel (s : State) (k : Nat) : (State.recoverShow s k).skel = s.skel := by
  unfold State.recoverShow
  simp only [apply_ite State.skel, ite_self, State.showKey_skel, State.setBit_skel, State.fltRaise_skel]

theorem State.keyRecover_skel (s : State) : (State.keyRecover s).skel = s.skel := by
  have hf : ∀ t : State, t.skel = s.skel →
      (({ t with key := { t.key with done := true, queue := [] } }.syncQueue).setReady 5).skel = s.skel := by
    intro t ht
    rw [State.setReady_skel, State.syncQueue_skel]
    exact ht
  refine hf _ ?_
  rw [State.deriveAll_skel, foldl_skel _ State.recoverShow_skel, foldl_skel _ (fun _ _ => State.setKeySlot_skel _ _ _)]

theorem State.loadDone_skel (s : State) (j : KeyJob) (q : KeyLoad) (u : Status × List Byte) (half : Bool) : (State.loadDone s j q u half).skel = s.skel := by
  unfold State.loadDone
  (repeat' split) <;> (first | with_reducible rfl | (simp only [skel_mk, pending_skel, part_skel, phase_skel, mode_skel, paused_skel, edge_skel, number_skel, mono_skel, apply_ite State.skel, ite_self, foldl_skel, implies_true, State.setFld_skel, State.keyAnswer_skel, State.keyErase_skel, State.keyCommit_skel]; done))

theorem State.retired_skel (s : State) (who : Option (Nat × Nat)) : (State.retired s who).skel = s.skel := by
  unfold State.retired
  simp only [foldl_skel, implies_true, State.wr_skel, State.setFld_skel, State.report_skel, State.setKeySlot_skel, State.failJobs_skel, State.keyAnswer_skel]

theorem State.manifestAccept_skel (s : State) (m : Manifest) : (State.manifestAccept s m).skel = s.skel := by
  unfold State.manifestAccept
  simp only [skel_mk, pending_skel, part_skel, phase_skel, mode_skel, paused_skel, edge_skel, number_skel, mono_skel, State.setFld_skel, State.setUpdState_skel, State.updParts_skel, State.eraseStaged_skel, State.updStage_skel]

theorem State.manifestRefuse_skel (s : State) (who : Option (Nat × Nat)) (m : Manifest) (st : Status) (r : Nat) : (State.manifestRefuse s who m st r).skel = s.skel := by
  unfold State.manifestRefuse
  simp only [State.manifestNote_skel, State.updRefuse_skel, State.keyAnswer_skel]

theorem State.manifestDone_skel (s : State) (who : Option (Nat × Nat)) (m : Manifest) (u : Status × List Byte) : (State.manifestDone s who m u).skel = s.skel := by
  unfold State.manifestDone
  (repeat' split) <;> (first | with_reducible rfl | (simp only [skel_mk, pending_skel, part_skel, phase_skel, mode_skel, paused_skel, edge_skel, number_skel, mono_skel, apply_ite State.skel, ite_self, foldl_skel, implies_true, State.manifestAccept_skel, State.keyAnswer_skel, State.manifestRefuse_skel]; done))

theorem State.workDone_skel (s : State) (j : KeyJob) (u : Status × List Byte) (half : Bool) : (State.workDone s j u half).skel = s.skel := by
  unfold State.workDone
  (repeat' split) <;> (first | with_reducible rfl | (simp only [skel_mk, pending_skel, part_skel, phase_skel, mode_skel, paused_skel, edge_skel, number_skel, mono_skel, apply_ite State.skel, ite_self, foldl_skel, implies_true, State.keyAnswer_skel, State.keyFail_skel, State.loadDone_skel, State.retired_skel, State.manifestDone_skel, State.sealData_skel, State.unsealData_skel]; done))

theorem State.workBroken_skel (s : State) (j : KeyJob) (k : Nat) : (State.workBroken s j k).skel = s.skel := by
  unfold State.workBroken
  (repeat' split) <;> (first | with_reducible rfl | (simp only [skel_mk, pending_skel, part_skel, phase_skel, mode_skel, paused_skel, edge_skel, number_skel, mono_skel, apply_ite State.skel, ite_self, foldl_skel, implies_true, State.keyBroken_skel, State.keyFail_skel, State.keyErase_skel]; done))

theorem State.keyDone_skel (s : State) (e : KeyEnd) : (State.keyDone s e).skel = s.skel := by
  unfold State.keyDone
  (repeat' split) <;> (first | with_reducible rfl | (simp only [skel_mk, pending_skel, part_skel, phase_skel, mode_skel, paused_skel, edge_skel, number_skel, mono_skel, apply_ite State.skel, ite_self, foldl_skel, implies_true, State.keyStart_skel, State.workDone_skel, State.workBroken_skel]; done))

theorem State.switchTo_skel (s : State) (pos : Nat) : (State.switchTo s pos).skel = s.skel := by
  unfold State.switchTo
  (repeat' split) <;> (first | with_reducible rfl | (simp only [part_skel, foldl_skel, implies_true, State.loopsSwitch_skel, State.assertSrc_skel, State.setFld_skel, State.coils_skel, State.chanAuto_skel, State.segHandover_skel, State.forceChan_skel, State.setLeaf_skel, State.failsafeBroadcast_skel]; done))

theorem State.metHello_skel (s : State) (p : List Byte) : (State.metHello s p).skel = s.skel := by
  unfold State.metHello
  simp only [skel_mk, pending_skel, part_skel, phase_skel, mode_skel, paused_skel, edge_skel, number_skel, mono_skel, apply_ite State.skel, ite_self, State.setFld_skel, State.setBit_skel, State.report_skel, State.toIsland_skel, State.metEnd_skel, State.metAsk_skel]

theorem State.pauseStop_skel (s : State) : (State.pauseStop s).skel = { s.skel with phase := .stopped, paused := true } := by
  unfold State.pauseStop
  refine (foldl_skel _ (fun _ _ => State.setCur_skel _ _ _) _ _).trans ?_
  rw [State.hostClose_skel, State.dropLogs_skel]
  rfl

theorem State.pauseSwitch_skel (s : State) : (State.pauseSwitch s).skel = s.skel := by
  unfold State.pauseSwitch
  simp only [apply_ite State.skel, ite_self, State.trialSwitch_skel, State.rollbackSwitch_skel]

theorem State.pauseBegin_skel (s0 : State) : (State.pauseBegin s0).skel =
    { s0.skel.ticked s0.nextEdge (s0.fr.mono + 1) with phase := .stopped, paused := true } := by
  unfold State.pauseBegin
  extract_lets s1 s2 s3 src s4
  have h1 : s1.skel = { s0.skel.ticked s0.nextEdge (s0.fr.mono + 1) with phase := .stopped, paused := true } := by
    show (s0.tickEdge.takeLevels.pauseStop).skel = _
    rw [State.pauseStop_skel, State.takeLevels_skel, State.tickEdge_skel]
  have h2 : s2.skel = s1.skel := (State.pauseLaunch_skel _ _ _ _).trans (State.pauseLaunch_skel _ _ _ _)
  have h3 : s3.skel = s2.skel := by
    show (if s2.ready 7 then s2.evrFlush else s2).skel = _
    split
    · exact State.evrFlush_skel _
    · rfl
  have h4 : s4.skel = s3.skel := rfl
  rw [State.allOut_skel, State.clearReady_skel, State.clearReady_skel, State.pauseSwitch_skel, h4, h3, h2, h1]

theorem State.repeatFlight_skel (s : State) (x : Nat) (g : Flight) (delay : Nat) : (State.repeatFlight s x g delay).skel = s.skel := by
  unfold State.repeatFlight
  simp only [apply_ite State.skel, ite_self, State.setConn_skel, State.tlqPut_skel]

theorem State.losePeer_skel (s : State) (p : Nat) : (State.losePeer s p).skel = s.skel := by
  unfold State.losePeer
  simp only [number_skel, apply_ite State.skel, ite_self, foldl_skel, implies_true, State.setFld_skel, State.report_skel, State.setFlow_skel, State.bndLost_skel]

theorem State.dispatch_skel (s : State) (t : Nat) (ev : EntryEvent) : (State.dispatch s t ev).skel = s.skel := by
  unfold State.dispatch
  (repeat' split) <;> (first | (simp_all only [skel_mk, pending_skel, part_skel, phase_skel, mode_skel, paused_skel, edge_skel, number_skel, mono_skel, apply_ite State.skel, ite_self, foldl_skel, implies_true, State.arbitrate_skel, State.enter_skel]; done) | grind [State.arbitrate_skel, State.enter_skel, skel_mk, foldl_skel])

theorem State.watchLog_skel (s : State) (data : List Nat) : (State.watchLog s data).skel = s.skel := by
  unfold State.watchLog
  simp only [skel_mk, pending_skel, part_skel, phase_skel, mode_skel, paused_skel, edge_skel, number_skel, mono_skel, apply_ite State.skel, ite_self, State.report_skel, State.addSat_skel]

theorem State.ruleFire_skel (s : State) (r : Nat) (v : Int) : (State.ruleFire s r v).skel = s.skel := by
  unfold State.ruleFire
  (repeat' split) <;> (first | with_reducible rfl | (simp only [State.addSat_skel, State.wr_skel, State.powerRequest_skel, State.watchLog_skel]; done))

theorem State.ruleSample_skel (w : WatchIn) (s : State) (r : Nat) : (State.ruleSample w s r).skel = s.skel := by
  unfold State.ruleSample
  simp only [apply_ite State.skel, ite_self, State.setBit_skel, State.setWchRule_skel, State.setFldI_skel, State.ruleFire_skel]

theorem State.watchSample_skel (s : State) (w : WatchIn) : (State.watchSample s w).skel = s.skel := by
  unfold State.watchSample
  simp only [apply_ite State.skel, ite_self, foldl_skel, implies_true, State.watchLatch_skel, State.ruleSample_skel, State.photoSample_skel, State.photoSync_skel]

theorem State.fltEnd_skel (s : State) : (State.fltEnd s).skel = s.skel := by
  unfold State.fltEnd
  split
  · rfl
  · rename_i c hc
    extract_lets s1
    have h1 : s1.skel = s.skel := by unfold s1; simp only [State.report_skel]
    rw [State.fltSync_skel]
    split <;> simp only [skel_mk, pending_skel, part_skel, phase_skel, mode_skel, paused_skel, edge_skel, number_skel, mono_skel, h1]

theorem State.eoiRod_skel (s : State) (r : Nat) (n : Nat) (ev : EntryEvent) : (State.eoiRod s r n ev).skel = s.skel := by
  unfold State.eoiRod
  simp only [apply_ite State.skel, ite_self, State.exit_skel]

theorem State.eoiSup_skel (s : State) (t : Nat) (ev : EntryEvent) : (State.eoiSup s t ev).skel = s.skel := by
  unfold State.eoiSup
  (repeat' split) <;> (first | (simp_all only [skel_mk, pending_skel, part_skel, phase_skel, mode_skel, paused_skel, edge_skel, number_skel, mono_skel, apply_ite State.skel, ite_self, foldl_skel, implies_true, State.fltEnd_skel, State.exit_skel, State.popContext_skel]; done) | grind [State.fltEnd_skel, State.exit_skel, State.popContext_skel, skel_mk, foldl_skel])

theorem State.rodReset_skel (s : State) (r : Nat) : (State.rodReset s r).skel = s.skel := by
  unfold State.rodReset
  simp only [apply_ite State.skel, ite_self, foldl_skel, implies_true, State.addSat_skel, State.setBit_skel, State.setRod_skel, State.beadFault_skel]

theorem State.request_skel (s : State) (i id least : Nat) (un : Bool) (run : State → State) (h : ∀ t, (run t).skel = t.skel) :
    (s.request i id least un run).skel = s.skel := by
  have hr : ∀ t : State, (if t.roleOk i least un then run t else t.respondAuth i id).skel = t.skel := by
    intro t
    split
    · exact h t
    · exact State.respondAuth_skel _ _ _
  unfold State.request
  split
  · rfl
  · extract_lets s1 x
    have h1 : s1.skel = s.skel := State.sessHeard_skel _ _
    clear_value x s1
    split
    · rw [State.addSat_skel, State.emit_skel, h1]
    · split
      · rw [State.addSat_skel, State.setSess_skel, h1]
      · split
        · rw [State.emit_skel, h1]
        · refine (hr _).trans ?_
          rw [State.setFld_skel, State.setSess_skel, h1]

theorem State.imgVerify_skel (s : State) (i : Nat) : (State.imgVerify s i).skel = s.skel := by
  unfold State.imgVerify
  (repeat' split) <;> (first | with_reducible rfl | (simp only [skel_mk, pending_skel, part_skel, phase_skel, mode_skel, paused_skel, edge_skel, number_skel, mono_skel, apply_ite State.skel, ite_self, foldl_skel, implies_true, State.setFld_skel, State.report_skel, State.respond_skel, State.trialWrite_skel, State.setImage_skel, State.imgResult_skel, State.imgShow_skel]; done))

theorem State.diagNote_skel (s : State) (c : Nat) (d : Nat) (set : Bool) : (State.diagNote s c d set).skel = s.skel := by
  unfold State.diagNote
  simp only [apply_ite State.skel, ite_self, State.report_skel, State.diagEvt_skel]

theorem State.diagSet_skel (s : State) (c : Nat) (d : Nat) (vf : Nat) : (State.diagSet s c d vf).skel = s.skel := by
  unfold State.diagSet
  simp only [apply_ite State.skel, ite_self, State.diagNote_skel, State.setFld_skel, State.setDchan_skel, State.busRecovery_skel]

theorem State.compliance_skel (s : State) (c : Nat) (microamps : Nat) (headroom : Nat) (vbus : Nat) : (State.compliance s c microamps headroom vbus).skel = s.skel := by
  unfold State.compliance
  simp only [apply_ite State.skel, ite_self, State.setFld_skel, State.checkPass_skel, State.setDchan_skel, State.diagSet_skel, State.busSettle_skel]

theorem State.xchk_skel (s : State) (p : Nat) (offset : Int) : (State.xchk s p offset).skel = s.skel := by
  unfold State.xchk
  ((try lift_lets); (repeat (first | (intro x; have hx : State.skel x = State.skel s := (by simp only [x]; (first | with_reducible rfl | (simp only [skel_mk, pending_skel, part_skel, phase_skel, mode_skel, paused_skel, edge_skel, number_skel, mono_skel, apply_ite State.skel, ite_self, foldl_skel, implies_true, State.setNtuPort_skel, State.setFldI_skel, State.report_skel, State.setBit_skel, *]; done) | ((repeat' split) <;> (first | with_reducible rfl | (simp only [skel_mk, pending_skel, part_skel, phase_skel, mode_skel, paused_skel, edge_skel, number_skel, mono_skel, apply_ite State.skel, ite_self, foldl_skel, implies_true, State.setNtuPort_skel, State.setFldI_skel, State.report_skel, State.setBit_skel, *]; done) | grind [State.setNtuPort_skel, State.setFldI_skel, State.report_skel, State.setBit_skel, skel_mk, foldl_skel])))); clear_value x) | intro x)); first | (first | with_reducible rfl | (simp only [skel_mk, pending_skel, part_skel, phase_skel, mode_skel, paused_skel, edge_skel, number_skel, mono_skel, apply_ite State.skel, ite_self, foldl_skel, implies_true, State.setNtuPort_skel, State.setFldI_skel, State.report_skel, State.setBit_skel, *]; done) | ((repeat' split) <;> (first | with_reducible rfl | (simp only [skel_mk, pending_skel, part_skel, phase_skel, mode_skel, paused_skel, edge_skel, number_skel, mono_skel, apply_ite State.skel, ite_self, foldl_skel, implies_true, State.setNtuPort_skel, State.setFldI_skel, State.report_skel, State.setBit_skel, *]; done) | grind [State.setNtuPort_skel, State.setFldI_skel, State.report_skel, State.setBit_skel, skel_mk, foldl_skel]))) | (split <;> ((try lift_lets); (repeat (first | (intro x; have hx : State.skel x = State.skel s := (by simp only [x]; (first | with_reducible rfl | (simp only [skel_mk, pending_skel, part_skel, phase_skel, mode_skel, paused_skel, edge_skel, number_skel, mono_skel, apply_ite State.skel, ite_self, foldl_skel, implies_true, State.setNtuPort_skel, State.setFldI_skel, State.report_skel, State.setBit_skel, *]; done) | ((repeat' split) <;> (first | with_reducible rfl | (simp only [skel_mk, pending_skel, part_skel, phase_skel, mode_skel, paused_skel, edge_skel, number_skel, mono_skel, apply_ite State.skel, ite_self, foldl_skel, implies_true, State.setNtuPort_skel, State.setFldI_skel, State.report_skel, State.setBit_skel, *]; done) | grind [State.setNtuPort_skel, State.setFldI_skel, State.report_skel, State.setBit_skel, skel_mk, foldl_skel])))); clear_value x) | intro x)); first | (first | with_reducible rfl | (simp only [skel_mk, pending_skel, part_skel, phase_skel, mode_skel, paused_skel, edge_skel, number_skel, mono_skel, apply_ite State.skel, ite_self, foldl_skel, implies_true, State.setNtuPort_skel, State.setFldI_skel, State.report_skel, State.setBit_skel, *]; done) | ((repeat' split) <;> (first | with_reducible rfl | (simp only [skel_mk, pending_skel, part_skel, phase_skel, mode_skel, paused_skel, edge_skel, number_skel, mono_skel, apply_ite State.skel, ite_self, foldl_skel, implies_true, State.setNtuPort_skel, State.setFldI_skel, State.report_skel, State.setBit_skel, *]; done) | grind [State.setNtuPort_skel, State.setFldI_skel, State.report_skel, State.setBit_skel, skel_mk, foldl_skel]))) | (split <;> ((try lift_lets); (repeat (first | (intro x; have hx : State.skel x = State.skel s := (by simp only [x]; (first | with_reducible rfl | (simp only [skel_mk, pending_skel, part_skel, phase_skel, mode_skel, paused_skel, edge_skel, number_skel, mono_skel, apply_ite State.skel, ite_self, foldl_skel, implies_true, State.setNtuPort_skel, State.setFldI_skel, State.report_skel, State.setBit_skel, *]; done) | ((repeat' split) <;> (first | with_reducible rfl | (simp only [skel_mk, pending_skel, part_skel, phase_skel, mode_skel, paused_skel, edge_skel, number_skel, mono_skel, apply_ite State.skel, ite_self, foldl_skel, implies_true, State.setNtuPort_skel, State.setFldI_skel, State.report_skel, State.setBit_skel, *]; done) | grind [State.setNtuPort_skel, State.setFldI_skel, State.report_skel, State.setBit_skel, skel_mk, foldl_skel])))); clear_value x) | intro x)); first | (first | with_reducible rfl | (simp only [skel_mk, pending_skel, part_skel, phase_skel, mode_skel, paused_skel, edge_skel, number_skel, mono_skel, apply_ite State.skel, ite_self, foldl_skel, implies_true, State.setNtuPort_skel, State.setFldI_skel, State.report_skel, State.setBit_skel, *]; done) | ((repeat' split) <;> (first | with_reducible rfl | (simp only [skel_mk, pending_skel, part_skel, phase_skel, mode_skel, paused_skel, edge_skel, number_skel, mono_skel, apply_ite State.skel, ite_self, foldl_skel, implies_true, State.setNtuPort_skel, State.setFldI_skel, State.report_skel, State.setBit_skel, *]; done) | grind [State.setNtuPort_skel, State.setFldI_skel, State.report_skel, State.setBit_skel, skel_mk, foldl_skel]))) | (split <;> ((try lift_lets); (repeat (first | (intro x; have hx : State.skel x = State.skel s := (by simp only [x]; (first | with_reducible rfl | (simp only [skel_mk, pending_skel, part_skel, phase_skel, mode_skel, paused_skel, edge_skel, number_skel, mono_skel, apply_ite State.skel, ite_self, foldl_skel, implies_true, State.setNtuPort_skel, State.setFldI_skel, State.report_skel, State.setBit_skel, *]; done) | ((repeat' split) <;> (first | with_reducible rfl | (simp only [skel_mk, pending_skel, part_skel, phase_skel, mode_skel, paused_skel, edge_skel, number_skel, mono_skel, apply_ite State.skel, ite_self, foldl_skel, implies_true, State.setNtuPort_skel, State.setFldI_skel, State.report_skel, State.setBit_skel, *]; done) | grind [State.setNtuPort_skel, State.setFldI_skel, State.report_skel, State.setBit_skel, skel_mk, foldl_skel])))); clear_value x) | intro x)); (first | with_reducible rfl | (simp only [skel_mk, pending_skel, part_skel, phase_skel, mode_skel, paused_skel, edge_skel, number_skel, mono_skel, apply_ite State.skel, ite_self, foldl_skel, implies_true, State.setNtuPort_skel, State.setFldI_skel, State.report_skel, State.setBit_skel, *]; done) | ((repeat' split) <;> (first | with_reducible rfl | (simp only [skel_mk, pending_skel, part_skel, phase_skel, mode_skel, paused_skel, edge_skel, number_skel, mono_skel, apply_ite State.skel, ite_self, foldl_skel, implies_true, State.setNtuPort_skel, State.setFldI_skel, State.report_skel, State.setBit_skel, *]; done) | grind [State.setNtuPort_skel, State.setFldI_skel, State.report_skel, State.setBit_skel, skel_mk, foldl_skel]))))))))))

theorem State.measure_skel (s : State) (p : Nat) (raw corr logSync : Int) : (State.measure s p raw corr logSync).skel = s.skel := by
  unfold State.measure
  simp only [apply_ite State.skel, ite_self, State.addSat_skel, State.measureRtc_skel, State.measureTrack_skel, State.measureHold_skel, State.xchk_skel, State.setSat_skel]

theorem State.badMessage_skel (s : State) (p format : Nat) : (State.badMessage s p format).skel = s.skel := by
  unfold State.badMessage
  (repeat' split) <;> (first | with_reducible rfl | (simp only [skel_mk, pending_skel, part_skel, phase_skel, mode_skel, paused_skel, edge_skel, number_skel, mono_skel, apply_ite State.skel, ite_self, foldl_skel, implies_true, State.report_skel, State.assertSrc_skel, State.setFlow_skel, State.peerHeard_skel]; done))

theorem State.reqWrite_skel (s : State) (who : Requester) (a : Nat) (v : Word) : (State.reqWrite s who a v).2.skel = s.skel := by
  unfold State.reqWrite
  (repeat' split) <;> (first | with_reducible rfl | (simp only [State.performWrite_skel]; done))

theorem State.cmdWrite_skel (s : State) (who : Requester) (us : Nat) (a : Nat) (v : Word) : (State.cmdWrite s who us a v).skel = s.skel := by
  unfold State.cmdWrite
  (repeat' split) <;> (first | (simp_all only [skel_mk, pending_skel, part_skel, phase_skel, mode_skel, paused_skel, edge_skel, number_skel, mono_skel, apply_ite State.skel, ite_self, foldl_skel, implies_true, State.reqWrite_skel, State.atUs_skel, State.report_skel, State.answer_skel]; done) | grind [State.reqWrite_skel, State.atUs_skel, State.report_skel, State.answer_skel, skel_mk, foldl_skel])

theorem State.writeRun_skel (who : Requester) (x1 : List Word) (x2 : State) (x3 : Nat) (x4 : Nat) : (State.writeRun who x1 x2 x3 x4).1.skel = x2.skel := by
  (fun_induction State.writeRun who x1 x2 x3 x4 <;> grind [State.reqWrite_skel, skel_mk, foldl_skel])

theorem State.answerWrite_skel (s : State) (i : Nat) (id : Nat) (st : Status) (res : List Int) : (State.answerWrite s i id st res).skel = s.skel := by
  unfold State.answerWrite
  simp only [apply_ite State.skel, ite_self, State.respond_skel, State.report_skel]

theorem State.holdWrite_skel (s : State) (i a : Nat) (w : Word) : (State.holdWrite s i a w).2.skel = s.skel := by
  unfold State.holdWrite
  (repeat' split) <;> (first | (simp_all only [skel_mk, pending_skel, part_skel, phase_skel, mode_skel, paused_skel, edge_skel, number_skel, mono_skel, apply_ite State.skel, ite_self, foldl_skel, implies_true, apply_ite Prod.fst, apply_ite Prod.snd, State.setFld_skel, State.setSess_skel, State.performWrite_skel, State.heldView_skel]; done) | grind [State.setFld_skel, State.setSess_skel, State.performWrite_skel, State.heldView_skel, skel_mk, foldl_skel])

theorem State.holdRun_skel (i : Nat) (x1 : List Word) (x2 : State) (x3 : Nat) (x4 : Nat) : (State.holdRun i x1 x2 x3 x4).1.skel = x2.skel := by
  (fun_induction State.holdRun i x1 x2 x3 x4 <;> grind [State.holdWrite_skel, skel_mk, foldl_skel])

theorem State.regHold_skel (s : State) (i : Nat) (id : Nat) (a : Nat) (ws : List Word) : (State.regHold s i id a ws).skel = s.skel := by
  unfold State.regHold
  (repeat' split) <;> (first | (simp_all only [skel_mk, pending_skel, part_skel, phase_skel, mode_skel, paused_skel, edge_skel, number_skel, mono_skel, apply_ite State.skel, ite_self, foldl_skel, implies_true, State.respond_skel, State.holdRun_skel, State.txnTouch_skel, State.answerWrite_skel, State.txnDrop_skel]; done) | grind [State.respond_skel, State.holdRun_skel, State.txnTouch_skel, State.answerWrite_skel, State.txnDrop_skel, skel_mk, foldl_skel])

theorem State.regWrite_skel (s : State) (i : Nat) (id : Nat) (a : Nat) (ws : List Word) (txn : Bool) : (State.regWrite s i id a ws txn).skel = s.skel := by
  unfold State.regWrite
  simp only [apply_ite State.skel, ite_self, State.respond_skel, State.txnDrop_skel, State.regHold_skel, State.writeRun_skel, State.answerWrite_skel]

theorem State.logRead_skel (s : State) (i : Nat) (id : Nat) (l : Nat) (first : Nat) (n : Nat) : (State.logRead s i id l first n).skel = s.skel := by
  unfold State.logRead
  simp only [apply_ite State.skel, ite_self, State.respond_skel, State.respondAuth_skel]

theorem State.partDone_skel (s : State) (bytes : List Byte) : (State.partDone s bytes).2.skel = s.skel := by
  unfold State.partDone
  (repeat' split) <;> (first | with_reducible rfl | (simp only [skel_mk, pending_skel, part_skel, phase_skel, mode_skel, paused_skel, edge_skel, number_skel, mono_skel, apply_ite State.skel, ite_self, foldl_skel, implies_true, apply_ite Prod.fst, apply_ite Prod.snd, State.updParts_skel, State.setSlotParts_skel, State.stagingEnd_skel, State.copyUnlisted_skel, State.updStage_skel]; done))

theorem State.streamRun_skel (s : State) (i : Nat) (x : HostStream) (bs : List Byte) : (State.streamRun s i x bs).skel = s.skel := by
  unfold State.streamRun
  simp only [apply_ite State.skel, ite_self, State.closeStream_skel, State.imgReceived_skel, State.partDone_skel, State.respond_skel]

theorem State.segment_skel (s : State) (i : Nat) (x : HostStream) (off : Nat) (data : List Byte) (final : Bool) : (State.segment s i x off data final).skel = s.skel := by
  unfold State.segment
  simp only [apply_ite State.skel, ite_self, State.respond_skel, State.closeStream_skel, State.streamRun_skel, State.streamCredit_skel, State.streamDrop_skel]

theorem State.reconFeeder_skel (s : State) (b0 : Nat) (b1 : Nat) (f : Nat) : (State.reconFeeder s b0 b1 f).skel = s.skel := by
  unfold State.reconFeeder
  (repeat' split) <;> (first | with_reducible rfl | (simp only [skel_mk, pending_skel, part_skel, phase_skel, mode_skel, paused_skel, edge_skel, number_skel, mono_skel, apply_ite State.skel, ite_self, State.setBit_skel, State.setFldI_skel, State.setFld_skel, State.report_skel]; done))

theorem State.metGap_skel (s : State) (n : Nat) : (State.metGap s n).skel = s.skel := by
  unfold State.metGap
  simp only [apply_ite State.skel, ite_self, State.addSat_skel, State.report_skel]

theorem State.metHeard_skel (s : State) (seq : Nat) : (State.metHeard s seq).skel = s.skel := by
  unfold State.metHeard
  (repeat' split) <;> (first | with_reducible rfl | (simp only [skel_mk, pending_skel, part_skel, phase_skel, mode_skel, paused_skel, edge_skel, number_skel, mono_skel, apply_ite State.skel, ite_self, foldl_skel, implies_true, State.metGap_skel]; done))

theorem State.metMeas_skel (s : State) (m : Meas) : (State.metMeas s m).skel = s.skel := by
  unfold State.metMeas
  dsimp only
  (repeat' split) <;> (first | rfl | (simp_all only [skel_mk, pending_skel, part_skel, phase_skel, mode_skel, paused_skel, edge_skel, number_skel, mono_skel, apply_ite State.skel, ite_self, foldl_skel, implies_true, State.setReady_skel, State.metWant_skel, State.metHeard_skel]; done) | grind [State.setReady_skel, State.metWant_skel, State.metHeard_skel, skel_mk, foldl_skel])

theorem State.metLog_skel (s : State) (index : Nat) (r : IslRec) : (State.metLog s index r).skel = s.skel := by
  unfold State.metLog
  simp only [apply_ite State.skel, ite_self, State.evrHold_skel, State.evrMirror_skel]

theorem State.imagesResume_skel (s : State) (bad : List (Nat × Nat)) : (State.imagesResume s bad).skel = s.skel := by
  unfold State.imagesResume
  refine foldl_skel _ (fun t i => ?_) _ _
  have h0 := State.setFld_skel t R.LTAB_IMG_STATE 3 i 0
  dsimp only
  split
  · exact (State.imgResult_skel _ _ _ _).trans ((State.setImage_skel _ _ _).trans h0)
  · refine (State.activateChecked_skel _ _ _).trans ?_
    split
    · exact Eq.trans rfl h0
    · exact h0

theorem State.trialBegin_skel (s : State) (edge : Nat) : (State.trialBegin s edge).skel = s.skel := by
  unfold State.trialBegin
  simp only [skel_mk, pending_skel, part_skel, phase_skel, mode_skel, paused_skel, edge_skel, number_skel, mono_skel, State.setUpdState_skel, State.classBReset_skel, State.updRecord_skel, State.updEvt_skel, State.setFld_skel]

theorem State.resume'_skel (s : State) (bad : List (Nat × Nat)) :
    (State.resume' s bad).skel = { s.skel with phase := .emit, paused := false } := by
  have h : ∀ (c : Prop) [Decidable c] (t : State) (e : Nat), (if c then t.trialBegin e else t.rollbackEnd).skel = t.skel := by
    intro c _ t e
    split
    · exact State.trialBegin_skel _ _
    · exact State.rollbackEnd_skel _
  unfold State.resume'
  refine (h _ _ _).trans ?_
  rw [State.setFld_skel, State.imagesResume_skel, State.pauseOver_skel]

theorem State.authFail_skel (s : State) (data : List Nat) : (State.authFail s data).skel = s.skel := by
  unfold State.authFail
  simp only [State.report_skel, State.setBit_skel, State.addSat_skel]

theorem State.handshake_skel (s : State) (c : Nat) (service dtls : Bool) (suite : TlsSuite) (p256 : Bool) (subject role : Nat) (cert sig : List Byte) : (State.handshake s c service dtls suite p256 subject role cert sig).skel = s.skel := by
  unfold State.handshake
  simp only [apply_ite State.skel, ite_self, State.emit_skel, State.authFail_skel, State.hostConnAdd_skel]

theorem State.sessOpen_skel (s : State) (i : Nat) : (State.sessOpen s i).skel = s.skel := by
  unfold State.sessOpen
  simp only [State.syncSessions_skel, State.setFld_skel, State.report_skel, State.emit_skel]

theorem State.helloNew_skel (s : State) (c : HostConn) (i : Nat) (v : Nat) (features : Nat) (window : Nat) : (State.helloNew s c i v features window).skel = s.skel := by
  unfold State.helloNew
  simp only [apply_ite State.skel, ite_self, State.showSess_skel, State.newToken_skel, State.setSess_skel, State.pinPrompt_skel, State.syncSessions_skel, State.sessOpen_skel]

theorem State.helloResume_skel (s : State) (c : HostConn) (i : Nat) (window : Nat) : (State.helloResume s c i window).skel = s.skel := by
  unfold State.helloResume
  simp only [State.setSess_skel, State.sessOpen_skel, State.setBit_skel, State.newToken_skel]

theorem State.hello_skel (s : State) (c : HostConn) (lo : Nat) (hi : Nat) (features : Nat) (window : Nat) (token : Option Nat) : (State.hello s c lo hi features window token).skel = s.skel := by
  unfold State.hello
  (repeat' split) <;> (first | (simp_all only [skel_mk, pending_skel, part_skel, phase_skel, mode_skel, paused_skel, edge_skel, number_skel, mono_skel, apply_ite State.skel, ite_self, foldl_skel, implies_true, State.hostConnDrop_skel, State.emit_skel, State.helloResume_skel, State.report_skel, State.helloNew_skel, State.setBit_skel]; done) | grind [State.hostConnDrop_skel, State.emit_skel, State.helloResume_skel, State.report_skel, State.helloNew_skel, State.setBit_skel, skel_mk, foldl_skel])

theorem State.chatterNote_skel (s : State) (k : Nat) (was : Bool) (now_ : Bool) : (State.chatterNote s k was now_).skel = s.skel := by
  unfold State.chatterNote
  simp only [apply_ite State.skel, ite_self, State.setRegBit_skel, State.report_skel, State.setBit_skel]

theorem State.inputSample_skel (s : State) (k : Nat) (raw : Bool) : (State.inputSample s k raw).skel = s.skel := by
  unfold State.inputSample
  simp only [apply_ite State.skel, ite_self, State.setFpInput_skel, State.chatterNote_skel, State.inputNote_skel, State.setRegBit_skel]

theorem State.serviceEnd_skel (s : State) (st : Status) : (State.serviceEnd s st).skel = s.skel := by
  unfold State.serviceEnd
  simp only [State.emit_skel, State.sessEnd_skel, State.setFld_skel, State.setFp_skel]

theorem State.pinAccept_skel (s : State) : (State.pinAccept s).skel = s.skel := by
  unfold State.pinAccept
  simp only [State.setFp_skel, State.sessOpen_skel, State.setFld_skel]

theorem State.pinLock_skel (s : State) : (State.pinLock s).skel = s.skel := by
  unfold State.pinLock
  simp only [State.setFp_skel, State.report_skel, State.setBit_skel]

theorem State.pinWrong_skel (s : State) : (State.pinWrong s).skel = s.skel := by
  unfold State.pinWrong
  simp only [apply_ite State.skel, ite_self, State.setFp_skel, State.pinLock_skel, State.serviceEnd_skel, State.authFail_skel, State.pinAgain_skel]

theorem State.pinSubmit_skel (s : State) : (State.pinSubmit s).skel = s.skel := by
  unfold State.pinSubmit
  simp only [apply_ite State.skel, ite_self, State.pinAccept_skel, State.pinWrong_skel]

theorem State.pinKey_skel (s : State) (k : Nat) : (State.pinKey s k).skel = s.skel := by
  unfold State.pinKey
  (repeat' split) <;> (first | with_reducible rfl | (simp only [State.setFp_skel, State.pinSubmit_skel, State.setFld_skel]; done))

theorem State.keyEvent_skel (s : State) (k : Nat) (pressed : Bool) : (State.keyEvent s k pressed).skel = s.skel := by
  unfold State.keyEvent
  simp only [apply_ite State.skel, ite_self, State.addSat_skel, State.setFp_skel, State.pinKey_skel, State.pageKey_skel, State.displayOn_skel]

theorem State.fpSample_skel (s : State) (raw count : Nat) : (State.fpSample s raw count).skel = s.skel := by
  unfold State.fpSample
  simp only [foldl_skel, implies_true, State.setFld_skel, State.setFp_skel, State.inputSample_skel, State.syncSwitch_skel, State.padSample_skel, State.holdSample_skel, State.keyEvent_skel, State.noteDrop_skel]

theorem State.cableEnd_skel (s : State) (cause : Nat) : (State.cableEnd s cause).skel = s.skel := by
  unfold State.cableEnd
  simp only [skel_mk, pending_skel, part_skel, phase_skel, mode_skel, paused_skel, edge_skel, number_skel, mono_skel, apply_ite State.skel, ite_self, State.setBit_skel, State.report_skel, State.sessEnd_skel, State.setFld_skel, State.setFp_skel]

theorem State.onyxBarEnd_skel (s : State) :
    (State.onyxBarEnd s).skel = { s.skel with phase := .stopped } ∨ ∃ ns, (State.onyxBarEnd s).skel = s.skel.started ns := by
  unfold State.onyxBarEnd
  rcases State.offWhenDone_skel s.rodsStop with h | ⟨ns, h⟩
  · exact .inl (h.trans (State.rodsStop_skel s))
  · exact .inr ⟨ns, by rw [h, State.rodsStop_skel]; rfl⟩

theorem State.keyAsk_skel (s : State) (a : SealAsk) : (State.keyAsk s a).skel = s.skel := by
  unfold State.keyAsk
  simp only [apply_ite State.skel, ite_self, State.keyBusy_skel, State.keyFail_skel, State.keyQueue_skel]

end Sys2Proof.Machine
end

