-- ==== Sys2Proof/Laws/SkelExec.lean ====
section
/-! SUPPORT. What the skeleton of a state is after each operation: every command. -/

namespace Sys2Proof.Machine

open State

/-- The outcome is a next state with this skeleton. -/
def Out.is (o : Out) (k : Skel) : Prop := ∃ t, o = .next t ∧ t.skel = k

theorem issueWith_skel (r : Fin 16) (wf : Bool) (cyc : Nat) (f : State → Nat → Bead → Eff) (after : State → Nat → State) (s : State)
    (hf : ∀ t n b t2 b2, f t n b = .ok (t2, b2) → t2.skel = t.skel) (ha : ∀ t n, (after t n).skel = t.skel) :
    Out.is (issueWith r wf cyc f after s) s.skel := by
  have key : ∀ (t : State) (n : Nat) (b : Bead), t.skel = s.skel → Out.is (match f t n { b with cycles := b.cycles + cyc } with
      | .error (c, code) => .next ((t.setBead n { b with cycles := b.cycles + cyc }).beadFault n c b.pc code)
      | .ok (s2, b2) =>
        let s3 := s2.setBead n b2
        if b.entries < b2.entries ∧ 262144 < s3.poolUsed then .next (s3.beadFault n .noSpace b.pc 0)
        else if s3.fld R.ROD_BEAD_BUDGET_BUDGET n < b2.cycles then .next s3
        else .next (after s3 n)) s.skel := by
    intro t n b h1
    split
    · exact ⟨_, rfl, by rw [State.beadFault_skel, State.setBead_skel, h1]⟩
    · rename_i s2 b2 h2
      have h2' := (hf _ _ _ _ _ h2).trans h1
      extract_lets s3
      have h3 : s3.skel = s.skel := (State.setBead_skel _ _ _).trans h2'
      clear_value s3
      split
      · exact ⟨_, rfl, (State.beadFault_skel _ _ _ _ _).trans h3⟩
      · split
        · exact ⟨_, rfl, h3⟩
        · exact ⟨_, rfl, (ha _ _).trans h3⟩
  unfold issueWith
  split
  · exact ⟨_, rfl, rfl⟩
  · rename_i n hn
    extract_lets b
    split
    · exact ⟨_, rfl, rfl⟩
    · split
      · exact ⟨_, rfl, State.beadFault_skel _ _ _ _ _⟩
      · exact key _ _ _ (State.charge_skel _ _ _)

theorem mapEff {f : Bead → Bead} {e : Eff} {t2 : State} {b2 : Bead} (h : e.map (fun p => (p.1, f p.2)) = .ok (t2, b2)) :
    ∃ b, e = .ok (t2, b) := by
  cases e with
  | error x => cases h
  | ok p => obtain ⟨u, c⟩ := p; cases h; exact ⟨c, rfl⟩

theorem issue_skel (r : Fin 16) (wf : Bool) (cyc words : Nat) (f : State → Nat → Bead → Eff) (s : State)
    (hf : ∀ t n b t2 b2, f t n b = .ok (t2, b2) → t2.skel = t.skel) : Out.is (issue r wf cyc words f s) s.skel := by
  refine issueWith_skel _ _ _ _ _ _ ?_ (fun _ _ => rfl)
  intro t n b t2 b2 h
  obtain ⟨c, hc⟩ := mapEff (f := fun x => x.seqTo (b.pc + words)) h
  exact hf _ _ _ _ _ hc

theorem issueReg_skel (r : Fin 16) (wf : Bool) (cyc : Nat) (f : Bead → Bead) (s : State) : Out.is (issueReg r wf cyc f s) s.skel := by
  refine issue_skel _ _ _ _ _ _ ?_
  intro t n b t2 b2 h
  cases h
  rfl

theorem issuePort_skel (r : Fin 16) (wf : Bool) (cyc bursts : Nat) (f : State → Nat → Bead → Eff) (s : State)
    (hf : ∀ t n b t2 b2, f t n b = .ok (t2, b2) → t2.skel = t.skel) : Out.is (issuePort r wf cyc bursts f s) s.skel := by
  refine issueWith_skel _ _ _ _ _ _ ?_ ?_
  · intro t n b t2 b2 h
    obtain ⟨c, hc⟩ := mapEff (f := fun x => x.seqTo (b.pc + 1)) h
    exact hf _ _ _ _ _ hc
  · intro t n
    split
    · rfl
    · exact State.park_skel _ _ _ _ _

theorem execVauxValid_skel (us : Nat) (count : Fin 32768) (s : State) :
    Out.is (execVauxValid us count s) s.skel ∨
    (s.pwr.mode ≠ .on ∧ ∃ ns, Out.is (execVauxValid us count s) (s.skel.started ns)) := by
  unfold execVauxValid
  cases hm : s.pwr.mode with
  | on => exact .inl ⟨_, rfl, rfl⟩
  | off =>
    obtain ⟨ns, h⟩ := State.start_skel s 0 0
    exact .inr ⟨by simp, ns, _, rfl, h⟩
  | backup =>
    obtain ⟨ns, h⟩ := State.start_skel s 2 count
    exact .inr ⟨by simp, ns, _, rfl, h⟩
  | onyx =>
    by_cases h : (s.atUs us).pwr.task.isSome ∨ (s.atUs us).framesRun
    · refine .inl ⟨_, rfl, ?_⟩
      dsimp only
      rw [if_pos h, State.rtcAligned_skel]
      exact Eq.trans rfl (State.atUs_skel s us)
    · obtain ⟨ns, h1⟩ := State.start_skel (s.atUs us) 1 count
      refine .inr ⟨by simp, ns, _, rfl, ?_⟩
      dsimp only
      rw [if_neg h, h1, State.atUs_skel]

theorem execFunctionReady_skel (n : Fin 18) (us : Fin 20000) (s : State) : Out.is (execFunctionReady n us s) s.skel := by
  refine ⟨_, rfl, ?_⟩
  (repeat' split) <;> (first | with_reducible rfl | (simp only [State.atUs_skel, State.functionReady_skel]; done))

theorem execVauxLost_skel (us : Fin 20000) (store : Nat) (mj : Nat) (s : State) :
    Out.is (execVauxLost us store mj s) s.skel ∨
    Out.is (execVauxLost us store mj s) { s.skel with phase := if s.fr.phase = .bar then .bar else .stopped, mode := .onyx, paused := false } ∨
    ∃ ns, Out.is (execVauxLost us store mj s) (s.skel.started ns) := by
  unfold execVauxLost
  by_cases h : s.poweredOn
  · rw [if_pos h]
    have ha := State.atUs_skel s us
    have hp : (s.atUs us).fr.phase = s.fr.phase := congrArg Skel.phase ha
    rcases State.onyxEnter_skel (s.atUs us) (min 100 (storePct store)) mj with h1 | ⟨ns, h1⟩
    · exact .inr (.inl ⟨_, rfl, by rw [h1, ha, hp]⟩)
    · exact .inr (.inr ⟨ns, _, rfl, by rw [h1, ha]⟩)
  · rw [if_neg h]
    refine .inl ⟨_, rfl, ?_⟩
    split <;> rfl

theorem execLastTaskComplete_skel (us mj : Nat) (s : State) :
    Out.is (execLastTaskComplete us mj s) s.skel ∨ ∃ ns, Out.is (execLastTaskComplete us mj s) (s.skel.started ns) := by
  have key : ∀ t : State, t.skel = s.skel → Out.is (.next t.offWhenDone) s.skel ∨ ∃ ns, Out.is (.next t.offWhenDone) (s.skel.started ns) := by
    intro t ht
    rcases State.offWhenDone_skel t with h | ⟨ns, h⟩
    · exact .inl ⟨_, rfl, h.trans ht⟩
    · exact .inr ⟨ns, _, rfl, by rw [h, ht]⟩
  unfold execLastTaskComplete
  split
  · refine key _ ?_
    rw [State.tryTasks_skel, State.taskDone_skel, State.atUs_skel]
  · exact .inl ⟨_, rfl, rfl⟩

theorem execOnyxDeadline_skel (s : State) :
    Out.is (execOnyxDeadline s) s.skel ∨ Out.is (execOnyxDeadline s) { s.skel with phase := .stopped } ∨
    ∃ ns, Out.is (execOnyxDeadline s) (s.skel.started ns) := by
  have key : ∀ t : State, t.skel = s.skel → Out.is (.next t.mainOff) s.skel ∨ Out.is (.next t.mainOff) { s.skel with phase := .stopped } ∨
      ∃ ns, Out.is (.next t.mainOff) (s.skel.started ns) := by
    intro t ht
    rcases State.mainOff_skel t with h | ⟨ns, h⟩
    · split at h
      · exact .inr (.inl ⟨_, rfl, by rw [h, ht]⟩)
      · exact .inl ⟨_, rfl, h.trans ht⟩
    · exact .inr (.inr ⟨ns, _, rfl, by rw [h, ht]⟩)
  unfold execOnyxDeadline
  split
  · refine key _ ?_
    rw [State.setFld_skel, State.atUs_skel]
  · exact .inl ⟨_, rfl, rfl⟩

theorem execStoreLost_skel (s : State) :
    Out.is (execStoreLost s) s.skel ∨
    (s.pwr.mode = .onyx ∧ ∃ ph, (ph = s.fr.phase ∨ ph = .stopped) ∧
      (Out.is (execStoreLost s) { s.skel with phase := ph, mode := .backup } ∨ Out.is (execStoreLost s) { s.skel with phase := ph, mode := .off })) := by
  unfold execStoreLost
  by_cases h : s.pwr.mode = .onyx ∧ !s.pwr.vaux
  · refine .inr ⟨h.1, ?_⟩
    rw [if_pos h]
    by_cases hf : s.framesRun
    · refine ⟨.stopped, .inr rfl, ?_⟩
      have hs := State.rodsStop_skel s
      rw [if_pos hf]
      generalize s.rodsStop = t at hs
      by_cases hb : t.pwr.vbkp
      · exact .inl ⟨_, rfl, by rw [if_pos hb]; exact congrArg (fun k : Skel => { k with mode := PMode.backup }) hs⟩
      · exact .inr ⟨_, rfl, by rw [if_neg hb]; exact congrArg (fun k : Skel => { k with mode := PMode.off }) hs⟩
    · refine ⟨s.fr.phase, .inl rfl, ?_⟩
      rw [if_neg hf]
      by_cases hb : s.pwr.vbkp
      · exact .inl ⟨_, rfl, by rw [if_pos hb]; rfl⟩
      · exact .inr ⟨_, rfl, by rw [if_neg hb]; rfl⟩
  · rw [if_neg h]
    exact .inl ⟨_, rfl, rfl⟩

theorem execVbkpLost_skel (s : State) :
    Out.is (execVbkpLost s) s.skel ∨ (s.pwr.mode = .backup ∧ Out.is (execVbkpLost s) { s.skel with mode := .off }) := by
  unfold execVbkpLost
  by_cases h : s.pwr.mode = .backup
  · refine .inr ⟨h, _, rfl, ?_⟩
    rw [if_pos h]
    exact (State.powerOff_skel _).trans (congrArg (fun k : Skel => { k with mode := PMode.off }) ((State.setBit_skel _ _ _ _ _).trans rfl))
  · refine .inl ⟨_, rfl, ?_⟩
    rw [if_neg h]
    exact (State.setBit_skel _ _ _ _ _).trans rfl

theorem execStoreChargeEnd_skel (us : Fin 20000) (from10mv : Nat) (c : StoreCharge) (s : State) : Out.is (execStoreChargeEnd us from10mv c s) s.skel := by
  unfold execStoreChargeEnd
  exact ⟨_, rfl, by simp only [apply_ite State.skel, ite_self, State.setFld_skel, State.setBit_skel, State.atUs_skel]⟩

theorem execPwrReqWrite_skel (who : Requester) (us : Fin 20000) (agate : Bool) (s : State) : Out.is (execPwrReqWrite who us agate s) s.skel := by
  refine ⟨_, rfl, ?_⟩
  simp only [State.cmdWrite_skel]

theorem execFrameEdge_skel (x : Sense) (replays : Nat) (lost : List Nat) (s : State) :
    let k := s.skel.ticked s.timeStep.nextEdge (s.fr.mono + 1)
    Out.is (execFrameEdge x replays lost s) s.skel ∨ (s.poweredOn = true ∧
      ((s.pwr.paused = true ∧ Out.is (execFrameEdge x replays lost s) k) ∨
      (s.pwr.paused = false ∧ (Out.is (execFrameEdge x replays lost s) { k with phase := .emit } ∨
        Out.is (execFrameEdge x replays lost s) { k with phase := .snap })))) := by
  intro k
  unfold execFrameEdge
  split
  · rename_i h
    rcases State.frameEdge_skel s x replays lost with ⟨hp, e⟩ | ⟨hp, e | e⟩
    · exact .inr ⟨h.1, .inl ⟨hp, _, rfl, e⟩⟩
    · exact .inr ⟨h.1, .inr ⟨hp, .inl ⟨_, rfl, e⟩⟩⟩
    · exact .inr ⟨h.1, .inr ⟨hp, .inr ⟨_, rfl, e⟩⟩⟩
  · exact .inl ⟨_, rfl, rfl⟩

theorem execExecStart_skel (s : State) :
    Out.is (execExecStart s) s.skel ∨ (s.fr.phase = .snap ∧ Out.is (execExecStart s) { s.skel with phase := .exec }) := by
  unfold execExecStart
  split
  · rename_i h
    exact .inr ⟨h.1, _, rfl, by rw [State.execStart_skel, State.atUs_skel]⟩
  · exact .inl ⟨_, rfl, rfl⟩

theorem execPortAccessComplete_skel (us : Fin 20000) (s : State) : Out.is (execPortAccessComplete us s) s.skel := by
  refine ⟨_, rfl, ?_⟩
  simp only [apply_ite State.skel, ite_self, State.atUs_skel, State.portServe_skel]

theorem execBudgetAbort_skel (n : Fin 1024) (s : State) : Out.is (execBudgetAbort n s) s.skel := by
  refine ⟨_, rfl, ?_⟩
  simp only [apply_ite State.skel, ite_self, State.fltRaise_skel, State.abortBead_skel]

theorem execAccessReplay_skel (n : Fin 1024) (addr : Nat) (inF : Bool) (e : ReplayEnd) (s : State) : Out.is (execAccessReplay n addr inF e s) s.skel := by
  refine ⟨_, rfl, ?_⟩
  simp only [apply_ite State.skel, ite_self, State.accessReplay_skel]

theorem execBarOpen_skel (bad : List Nat) (s : State) :
    Out.is (execBarOpen bad s) s.skel ∨ (s.fr.phase = .exec ∧ Out.is (execBarOpen bad s) { s.skel with phase := .bar }) := by
  unfold execBarOpen
  split
  · rename_i h
    exact .inr ⟨h.1, _, rfl, State.barOpen_skel _ _⟩
  · exact .inl ⟨_, rfl, rfl⟩

theorem execBarComplete_skel (d : Fin 40000) (s : State) :
    Out.is (execBarComplete d s) s.skel ∨ (s.fr.phase = .bar ∧ (Out.is (execBarComplete d s) { s.skel with phase := .emit } ∨
      Out.is (execBarComplete d s) { s.skel with phase := .stopped } ∨ ∃ ns, Out.is (execBarComplete d s) (s.skel.started ns))) := by
  unfold execBarComplete
  split
  · rename_i h
    refine .inr ⟨h, ?_⟩
    split
    · exact .inl ⟨_, rfl, State.barComplete_skel _ _⟩
    · have e : ((s.atUs (16000 + ceilDiv d 10)).barTimes d).skel = s.skel := by rw [State.barTimes_skel, State.atUs_skel]
      rcases State.onyxBarEnd_skel ((s.atUs (16000 + ceilDiv d 10)).barTimes d) with h1 | ⟨ns, h1⟩
      · exact .inr (.inl ⟨_, rfl, by rw [h1, e]⟩)
      · exact .inr (.inr ⟨ns, _, rfl, by rw [h1, e]⟩)
  · exact .inl ⟨_, rfl, rfl⟩

theorem execBarOverrun_skel (s : State) : Out.is (execBarOverrun s) s.skel := by
  refine ⟨_, rfl, ?_⟩
  (repeat' split) <;> (first | with_reducible rfl | (simp only [State.barOverrun_skel]; done))

theorem execDownlinkOffer_skel (us : Fin 20000) (s : State) : Out.is (execDownlinkOffer us s) s.skel := by
  unfold execDownlinkOffer
  refine ⟨_, rfl, ?_⟩
  (repeat' split) <;> (first | with_reducible rfl | (simp only [skel_mk, pending_skel, part_skel, phase_skel, mode_skel, paused_skel, edge_skel, number_skel, mono_skel, apply_ite State.skel, ite_self, foldl_skel, implies_true, State.atUs_skel, State.offerNext_skel]; done))

theorem execBeadStart_skel (who : Requester) (us : Fin 20000) (n : Fin 1024) (s : State) : Out.is (execBeadStart who us n s) s.skel := by
  refine ⟨_, rfl, ?_⟩
  simp only [State.cmdWrite_skel]

theorem execBeadStop_skel (who : Requester) (us : Fin 20000) (n : Fin 1024) (s : State) : Out.is (execBeadStop who us n s) s.skel := by
  refine ⟨_, rfl, ?_⟩
  simp only [State.cmdWrite_skel]

theorem execBeadReset_skel (who : Requester) (us : Fin 20000) (n : Fin 1024) (s : State) : Out.is (execBeadReset who us n s) s.skel := by
  refine ⟨_, rfl, ?_⟩
  simp only [State.cmdWrite_skel]

theorem execRodAdmitLimitWrite_skel (who : Requester) (us : Fin 20000) (v : Word) (s : State) : Out.is (execRodAdmitLimitWrite who us v s) s.skel := by
  refine ⟨_, rfl, ?_⟩
  simp only [State.cmdWrite_skel]

theorem execRegisterWrite_skel (who : Requester) (us : Fin 20000) (a : Nat) (v : Word) (s : State) : Out.is (execRegisterWrite who us a v s) s.skel := by
  refine ⟨_, rfl, ?_⟩
  simp only [State.cmdWrite_skel]

theorem execRclrRead_skel (i : Fin 8) (us : Fin 20000) (a : Nat) (s : State) : Out.is (execRclrRead i us a s) s.skel := by
  refine ⟨_, rfl, ?_⟩
  simp only [State.cmdRead_skel]

theorem execLoLatchRead_skel (who : Requester) (us : Fin 20000) (a : Nat) (s : State) : Out.is (execLoLatchRead who us a s) s.skel := by
  refine ⟨_, rfl, ?_⟩
  simp only [State.cmdRead_skel]

theorem execNtuTimeRead_skel (who : Requester) (us : Fin 20000) (s : State) : Out.is (execNtuTimeRead who us s) s.skel := by
  refine ⟨_, rfl, ?_⟩
  simp only [State.cmdRead_skel]

theorem execRtcDateRead_skel (who : Requester) (us : Fin 20000) (s : State) : Out.is (execRtcDateRead who us s) s.skel := by
  refine ⟨_, rfl, ?_⟩
  simp only [State.cmdRead_skel]

theorem execAdd_skel (r : Fin 16) (d a b : Fin 32) (s : State) : Out.is (execAdd r d a b s) s.skel := by
  exact issueReg_skel _ _ _ _ _

theorem execSub_skel (r : Fin 16) (d a b : Fin 32) (s : State) : Out.is (execSub r d a b s) s.skel := by
  exact issueReg_skel _ _ _ _ _

theorem execAnd_skel (r : Fin 16) (d a b : Fin 32) (s : State) : Out.is (execAnd r d a b s) s.skel := by
  exact issueReg_skel _ _ _ _ _

theorem execOr_skel (r : Fin 16) (d a b : Fin 32) (s : State) : Out.is (execOr r d a b s) s.skel := by
  exact issueReg_skel _ _ _ _ _

theorem execXor_skel (r : Fin 16) (d a b : Fin 32) (s : State) : Out.is (execXor r d a b s) s.skel := by
  exact issueReg_skel _ _ _ _ _

theorem execShl_skel (r : Fin 16) (d a b sh : Fin 32) (s : State) : Out.is (execShl r d a b sh s) s.skel := by
  exact issueReg_skel _ _ _ _ _

theorem execShr_skel (r : Fin 16) (d a b sh : Fin 32) (s : State) : Out.is (execShr r d a b sh s) s.skel := by
  exact issueReg_skel _ _ _ _ _

theorem execSar_skel (r : Fin 16) (d a b sh : Fin 32) (s : State) : Out.is (execSar r d a b sh s) s.skel := by
  exact issueReg_skel _ _ _ _ _

theorem execMin_skel (r : Fin 16) (d a b : Fin 32) (s : State) : Out.is (execMin r d a b s) s.skel := by
  exact issueReg_skel _ _ _ _ _

theorem execMax_skel (r : Fin 16) (d a b : Fin 32) (s : State) : Out.is (execMax r d a b s) s.skel := by
  exact issueReg_skel _ _ _ _ _

theorem execAdds_skel (r : Fin 16) (d a b : Fin 32) (s : State) : Out.is (execAdds r d a b s) s.skel := by
  exact issueReg_skel _ _ _ _ _

theorem execSubs_skel (r : Fin 16) (d a b : Fin 32) (s : State) : Out.is (execSubs r d a b s) s.skel := by
  exact issueReg_skel _ _ _ _ _

theorem execMulq_skel (r : Fin 16) (d a b sh : Fin 32) (s : State) : Out.is (execMulq r d a b sh s) s.skel := by
  exact issueReg_skel _ _ _ _ _

theorem execMacq_skel (r : Fin 16) (d a b sh : Fin 32) (s : State) : Out.is (execMacq r d a b sh s) s.skel := by
  exact issueReg_skel _ _ _ _ _

theorem execDivq_skel (r : Fin 16) (d a b sh : Fin 32) (s : State) : Out.is (execDivq r d a b sh s) s.skel := by
  exact issueReg_skel _ _ _ _ _

theorem execAbs_skel (r : Fin 16) (d a : Fin 32) (s : State) : Out.is (execAbs r d a s) s.skel := by
  exact issueReg_skel _ _ _ _ _

theorem execClamp_skel (r : Fin 16) (d a b : Fin 32) (s : State) : Out.is (execClamp r d a b s) s.skel := by
  exact issueReg_skel _ _ _ _ _

theorem execSel_skel (r : Fin 16) (d a b : Fin 32) (cond : Fin 16) (s : State) : Out.is (execSel r d a b cond s) s.skel := by
  exact issueReg_skel _ _ _ _ _

theorem execCmp_skel (r : Fin 16) (a b : Fin 32) (s : State) : Out.is (execCmp r a b s) s.skel := by
  exact issueReg_skel _ _ _ _ _

theorem execMov_skel (r : Fin 16) (d a : Fin 32) (s : State) : Out.is (execMov r d a s) s.skel := by
  exact issueReg_skel _ _ _ _ _

theorem execAddi_skel (r : Fin 16) (d a : Fin 32) (imm : BitVec 14) (s : State) : Out.is (execAddi r d a imm s) s.skel := by
  exact issueReg_skel _ _ _ _ _

theorem execAndi_skel (r : Fin 16) (d a : Fin 32) (imm : BitVec 16) (s : State) : Out.is (execAndi r d a imm s) s.skel := by
  exact issueReg_skel _ _ _ _ _

theorem execOri_skel (r : Fin 16) (d a : Fin 32) (imm : BitVec 16) (s : State) : Out.is (execOri r d a imm s) s.skel := by
  exact issueReg_skel _ _ _ _ _

theorem execXori_skel (r : Fin 16) (d a : Fin 32) (imm : BitVec 16) (s : State) : Out.is (execXori r d a imm s) s.skel := by
  exact issueReg_skel _ _ _ _ _

theorem execShli_skel (r : Fin 16) (d a n : Fin 32) (s : State) : Out.is (execShli r d a n s) s.skel := by
  exact issueReg_skel _ _ _ _ _

theorem execShri_skel (r : Fin 16) (d a n : Fin 32) (s : State) : Out.is (execShri r d a n s) s.skel := by
  exact issueReg_skel _ _ _ _ _

theorem execSari_skel (r : Fin 16) (d a n : Fin 32) (s : State) : Out.is (execSari r d a n s) s.skel := by
  exact issueReg_skel _ _ _ _ _

theorem execCmpi_skel (r : Fin 16) (a : Fin 32) (imm : BitVec 14) (s : State) : Out.is (execCmpi r a imm s) s.skel := by
  exact issueReg_skel _ _ _ _ _

theorem execLiShort_skel (r : Fin 16) (d : Fin 32) (imm : BitVec 16) (s : State) : Out.is (execLiShort r d imm s) s.skel := by
  exact issueReg_skel _ _ _ _ _

theorem execLui_skel (r : Fin 16) (d : Fin 32) (imm : BitVec 16) (s : State) : Out.is (execLui r d imm s) s.skel := by
  exact issueReg_skel _ _ _ _ _

theorem execLiLong_skel (r : Fin 16) (d : Fin 32) (w : Word) (s : State) : Out.is (execLiLong r d w s) s.skel := by
  unfold execLiLong
  refine issue_skel _ _ _ _ _ _ ?_
  · intro t n b t2 b2 h
    (cases h; rfl)

theorem execTli_skel (r : Fin 16) (d a b : Fin 32) (s : State) : Out.is (execTli r d a b s) s.skel := by
  unfold execTli
  refine issuePort_skel _ _ _ _ _ _ ?_
  intro t n x t2 b2 h
  cases he : tliEff t x a b with
  | error e => rw [he] at h; cases h
  | ok v => rw [he] at h; cases h; rfl

theorem execVadd_skel (r : Fin 16) (d a : Fin 16) (b : VB) (k : Fin 4) (sat : Bool) (s : State) : Out.is (execVadd r d a b k sat s) s.skel := by
  exact issueReg_skel _ _ _ _ _

theorem execVsub_skel (r : Fin 16) (d a : Fin 16) (b : VB) (k : Fin 4) (sat : Bool) (s : State) : Out.is (execVsub r d a b k sat s) s.skel := by
  exact issueReg_skel _ _ _ _ _

theorem execVmulq_skel (r : Fin 16) (d a : Fin 16) (b : VB) (k : Fin 4) (sh : Fin 32) (s : State) : Out.is (execVmulq r d a b k sh s) s.skel := by
  exact issueReg_skel _ _ _ _ _

theorem execVmacq_skel (r : Fin 16) (d a : Fin 16) (b : VB) (k : Fin 4) (sh : Fin 32) (s : State) : Out.is (execVmacq r d a b k sh s) s.skel := by
  exact issueReg_skel _ _ _ _ _

theorem execVmin_skel (r : Fin 16) (d a : Fin 16) (b : VB) (k : Fin 4) (s : State) : Out.is (execVmin r d a b k s) s.skel := by
  exact issueReg_skel _ _ _ _ _

theorem execVmax_skel (r : Fin 16) (d a : Fin 16) (b : VB) (k : Fin 4) (s : State) : Out.is (execVmax r d a b k s) s.skel := by
  exact issueReg_skel _ _ _ _ _

theorem execVclamp_skel (r : Fin 16) (d a : Fin 16) (b : VB) (k : Fin 4) (s : State) : Out.is (execVclamp r d a b k s) s.skel := by
  exact issueReg_skel _ _ _ _ _

theorem execVsel_skel (r : Fin 16) (d a : Fin 16) (b : VB) (k : Fin 4) (s : State) : Out.is (execVsel r d a b k s) s.skel := by
  exact issueReg_skel _ _ _ _ _

theorem execVcmp_skel (r : Fin 16) (t : Fin 4) (a : Fin 16) (b : VB) (k : Fin 4) (cond : Fin 8) (s : State) : Out.is (execVcmp r t a b k cond s) s.skel := by
  exact issueReg_skel _ _ _ _ _

theorem execVredSum_skel (r : Fin 16) (d : Fin 32) (a : Fin 16) (k : Fin 4) (sh : Fin 32) (s : State) : Out.is (execVredSum r d a k sh s) s.skel := by
  exact issueReg_skel _ _ _ _ _

theorem execVredMin_skel (r : Fin 16) (d : Fin 32) (a : Fin 16) (k : Fin 4) (s : State) : Out.is (execVredMin r d a k s) s.skel := by
  exact issueReg_skel _ _ _ _ _

theorem execVredMax_skel (r : Fin 16) (d : Fin 32) (a : Fin 16) (k : Fin 4) (s : State) : Out.is (execVredMax r d a k s) s.skel := by
  exact issueReg_skel _ _ _ _ _

theorem execLdf_skel (r : Fin 16) (d a : Fin 32) (size : Fin 4) (imm : BitVec 14) (s : State) : Out.is (execLdf r d a size imm s) s.skel := by
  unfold execLdf
  refine issuePort_skel _ _ _ _ _ _ ?_
  · intro t n b t2 b2 h
    grind [skel_mk, foldl_skel]

theorem execStf_skel (r : Fin 16) (d a : Fin 32) (size : Fin 4) (imm : BitVec 14) (s : State) : Out.is (execStf r d a size imm s) s.skel := by
  unfold execStf
  refine issue_skel _ _ _ _ _ _ ?_
  · intro t n b t2 b2 h
    grind [skel_mk, foldl_skel]

theorem execLdi_skel (r : Fin 16) (d a : Fin 32) (size : Fin 4) (imm : BitVec 14) (s : State) : Out.is (execLdi r d a size imm s) s.skel := by
  unfold execLdi
  refine issuePort_skel _ _ _ _ _ _ ?_
  · intro t n b t2 b2 h
    grind [skel_mk, foldl_skel]

theorem execSti_skel (r : Fin 16) (d a : Fin 32) (size : Fin 4) (imm : BitVec 14) (s : State) : Out.is (execSti r d a size imm s) s.skel := by
  unfold execSti
  refine issuePort_skel _ _ _ _ _ _ ?_
  intro t n x t2 b2 h
  dsimp only at h
  split at h
  · cases h
  · split at h
    · cases h
    · cases h; rfl

theorem execPortrd_skel (r : Fin 16) (d a : Fin 32) (imm : BitVec 14) (s : State) : Out.is (execPortrd r d a imm s) s.skel := by
  unfold execPortrd
  refine issue_skel _ _ _ _ _ _ ?_
  · intro t n b t2 b2 h
    grind [State.latchOf_skel, skel_mk, foldl_skel]

theorem execPortwr_skel (r : Fin 16) (d a : Fin 32) (imm : BitVec 14) (s : State) : Out.is (execPortwr r d a imm s) s.skel := by
  unfold execPortwr
  refine issue_skel _ _ _ _ _ _ ?_
  · intro t n b t2 b2 h
    grind [skel_mk, foldl_skel]

theorem execLset_skel (r : Fin 16) (c : Fin 2) (kind : Fin 6) (a : Fin 32) (inter : Bool) (w : Word) (s : State) : Out.is (execLset r c kind a inter w s) s.skel := by
  unfold execLset
  refine issue_skel _ _ _ _ _ _ ?_
  · intro t n b t2 b2 h
    (cases h; rfl)

theorem execLnext_skel (r : Fin 16) (d : Fin 16) (k : Fin 4) (c : Fin 2) (s : State) : Out.is (execLnext r d k c s) s.skel := by
  unfold execLnext
  refine issuePort_skel _ _ _ _ _ _ ?_
  · intro t n b t2 b2 h
    (cases h; rfl)

theorem execLtg_skel (r : Fin 16) (d a : Fin 16) (k : Fin 4) (off : Fin 128) (width : Fin 4) (sx : Bool) (s : State) : Out.is (execLtg r d a k off width sx s) s.skel := by
  unfold execLtg
  refine issuePort_skel _ _ _ _ _ _ ?_
  · intro t n b t2 b2 h
    grind [skel_mk, foldl_skel]

theorem execLts_skel (r : Fin 16) (d a : Fin 16) (k : Fin 4) (off : Fin 128) (width : Fin 4) (s : State) : Out.is (execLts r d a k off width s) s.skel := by
  unfold execLts
  refine issue_skel _ _ _ _ _ _ ?_
  · intro t n b t2 b2 h
    grind [skel_mk, foldl_skel]

theorem execTime_skel (r : Fin 16) (d : Fin 32) (kind : Fin 7) (us : Fin 20000) (s : State) : Out.is (execTime r d kind us s) s.skel := by
  unfold execTime
  refine issue_skel _ _ _ _ _ _ ?_
  · intro t n b t2 b2 h
    ((repeat' split at h) <;> (first | (cases h; first | rfl | simp only [skel_mk, pending_skel, part_skel, phase_skel, mode_skel, paused_skel, edge_skel, number_skel, mono_skel, apply_ite State.skel, ite_self, foldl_skel, implies_true, State.atUs_skel]) | cases h))

theorem execCalFields_skel (r : Fin 16) (d a : Fin 32) (s : State) : Out.is (execCalFields r d a s) s.skel := by
  unfold execCalFields
  refine issue_skel _ _ _ _ _ _ ?_
  intro t n x t2 b2 h
  split at h
  · cases h; rfl
  · cases h; rfl

theorem execCalDue_skel (r : Fin 16) (d a : Fin 32) (w : Word) (s : State) : Out.is (execCalDue r d a w s) s.skel := by
  unfold execCalDue
  refine issue_skel _ _ _ _ _ _ ?_
  · intro t n b t2 b2 h
    grind [skel_mk, foldl_skel]

theorem execSun_skel (r : Fin 16) (d : Fin 32) (s : State) : Out.is (execSun r d s) s.skel := by
  unfold execSun
  refine issue_skel _ _ _ _ _ _ ?_
  · intro t n b t2 b2 h
    ((repeat' split at h) <;> (first | (cases h; first | rfl | simp only [skel_mk, pending_skel, part_skel, phase_skel, mode_skel, paused_skel, edge_skel, number_skel, mono_skel, apply_ite State.skel, ite_self, foldl_skel, implies_true]) | cases h))

theorem execSunev_skel (r : Fin 16) (d a : Fin 32) (rising : Bool) (s : State) : Out.is (execSunev r d a rising s) s.skel := by
  unfold execSunev
  refine issue_skel _ _ _ _ _ _ ?_
  · intro t n b t2 b2 h
    ((repeat' split at h) <;> (first | (cases h; first | rfl | simp only [skel_mk, pending_skel, part_skel, phase_skel, mode_skel, paused_skel, edge_skel, number_skel, mono_skel, apply_ite State.skel, ite_self, foldl_skel, implies_true]) | cases h))

theorem execFlowrd_skel (r : Fin 16) (d a : Fin 16) (k : Fin 4) (h : Fin 4) (s : State) : Out.is (execFlowrd r d a k h s) s.skel := by
  unfold execFlowrd
  refine issuePort_skel _ _ _ _ _ _ ?_
  · intro t n b t2 b2 h
    ((repeat' split at h) <;> (first | (cases h; first | rfl | simp only [skel_mk, pending_skel, part_skel, phase_skel, mode_skel, paused_skel, edge_skel, number_skel, mono_skel, apply_ite State.skel, ite_self, foldl_skel, implies_true]) | cases h))

theorem execFlowdet_skel (r : Fin 16) (a b : Fin 32) (s : State) : Out.is (execFlowdet r a b s) s.skel := by
  unfold execFlowdet
  refine issue_skel _ _ _ _ _ _ ?_
  · intro t n b t2 b2 h
    grind [skel_mk, foldl_skel]

theorem execLvl_skel (r : Fin 16) (a : Fin 16) (b : VB) (k : Fin 4) (s : State) : Out.is (execLvl r a b k s) s.skel := by
  unfold execLvl
  refine issue_skel _ _ _ _ _ _ ?_
  · intro t n b t2 b2 h
    (cases h; rfl)

theorem execTlb_skel (r : Fin 16) (a : Fin 32) (fade : BitVec 14) (s : State) : Out.is (execTlb r a fade s) s.skel := by
  unfold execTlb
  refine issue_skel _ _ _ _ _ _ ?_
  · intro t n b t2 b2 h
    ((repeat' split at h) <;> (first | (cases h; first | rfl | simp only [skel_mk, pending_skel, part_skel, phase_skel, mode_skel, paused_skel, edge_skel, number_skel, mono_skel, apply_ite State.skel, ite_self, foldl_skel, implies_true]) | cases h))

theorem execPost_skel (r : Fin 16) (d a : Fin 32) (b : Fin 16) (cmd : BitVec 8) (len : Fin 64) (s : State) : Out.is (execPost r d a b cmd len s) s.skel := by
  unfold execPost
  refine issue_skel _ _ _ _ _ _ ?_
  · intro t n b t2 b2 h
    grind [skel_mk, foldl_skel]

theorem execDrvset_skel (r : Fin 16) (a b : Fin 32) (s : State) : Out.is (execDrvset r a b s) s.skel := by
  unfold execDrvset
  refine issue_skel _ _ _ _ _ _ ?_
  · intro t n b t2 b2 h
    grind [skel_mk, foldl_skel]

theorem execTally_skel (r : Fin 16) (d a b : Fin 32) (s : State) : Out.is (execTally r d a b s) s.skel := by
  unfold execTally
  refine issue_skel _ _ _ _ _ _ ?_
  · intro t n b t2 b2 h
    ((repeat' split at h) <;> (first | (cases h; first | rfl | simp only [skel_mk, pending_skel, part_skel, phase_skel, mode_skel, paused_skel, edge_skel, number_skel, mono_skel, apply_ite State.skel, ite_self, foldl_skel, implies_true]) | cases h))

theorem execBr_skel (r : Fin 16) (off : BitVec 16) (s : State) : Out.is (execBr r off s) s.skel := by
  unfold execBr
  refine issueWith_skel _ _ _ _ _ _ ?_ ?_
  · intro t n b t2 b2 h
    (cases h; rfl)
  · intro t n
    rfl

theorem execBrc_skel (r : Fin 16) (cond : Fin 16) (off : BitVec 16) (s : State) : Out.is (execBrc r cond off s) s.skel := by
  unfold execBrc
  refine issueWith_skel _ _ _ _ _ _ ?_ ?_
  · intro t n b t2 b2 h
    (cases h; rfl)
  · intro t n
    rfl

theorem execLoop_skel (r : Fin 16) (a : Fin 32) (max : BitVec 12) (body : BitVec 9) (s : State) : Out.is (execLoop r a max body s) s.skel := by
  unfold execLoop
  refine issueWith_skel _ _ _ _ _ _ ?_ ?_
  · intro t n b t2 b2 h
    (cases h; rfl)
  · intro t n
    rfl

theorem execCall_skel (r : Fin 16) (addr : BitVec 16) (s : State) : Out.is (execCall r addr s) s.skel := by
  unfold execCall
  refine issueWith_skel _ _ _ _ _ _ ?_ ?_
  · intro t n b t2 b2 h
    (cases h; rfl)
  · intro t n
    rfl

theorem execRet_skel (r : Fin 16) (s : State) : Out.is (execRet r s) s.skel := by
  unfold execRet
  refine issueWith_skel _ _ _ _ _ _ ?_ ?_
  · intro t n b t2 b2 h
    (cases h; rfl)
  · intro t n
    simp only [apply_ite State.skel, ite_self, State.endPass_skel]

theorem execEvwait_skel (r : Fin 16) (s : State) : Out.is (execEvwait r s) s.skel := by
  unfold execEvwait
  refine issueWith_skel _ _ _ _ _ _ ?_ ?_
  · intro t n b t2 b2 h
    (cases h; rfl)
  · intro t n
    simp only [State.endPass_skel]

theorem execEoi_skel (t : Fin 18) (ev : EntryEvent) (s : State) : Out.is (execEoi t ev s) s.skel := by
  unfold execEoi
  split
  · refine issueWith_skel _ _ _ _ _ _ ?_ (fun _ _ => State.eoiRod_skel _ _ _ _)
    intro u n b t2 b2 h
    cases h
    rfl
  · exact ⟨_, rfl, State.eoiSup_skel _ _ _⟩

theorem execHalt_skel (r : Fin 16) (s : State) : Out.is (execHalt r s) s.skel := by
  unfold execHalt
  refine issueWith_skel _ _ _ _ _ _ ?_ ?_
  · intro t n b t2 b2 h
    (cases h; rfl)
  · intro t n
    simp only [State.endPass_skel]

theorem execNop_skel (r : Fin 16) (s : State) : Out.is (execNop r s) s.skel := by
  exact issueReg_skel _ _ _ _ _

theorem execRaise_skel (r : Fin 16) (a : Fin 32) (n : BitVec 6) (s : State) : Out.is (execRaise r a n s) s.skel := by
  unfold execRaise
  refine issue_skel _ _ _ _ _ _ ?_
  · intro t n b t2 b2 h
    grind [State.assertSrc_skel, skel_mk, foldl_skel]

theorem execFault_skel (r : Fin 16) (code : BitVec 14) (s : State) : Out.is (execFault r code s) s.skel := by
  unfold execFault
  refine issueWith_skel _ _ _ _ _ _ ?_ ?_
  · intro t n b t2 b2 h
    ((repeat' split at h) <;> (first | (cases h; first | rfl | simp only [skel_mk, pending_skel, part_skel, phase_skel, mode_skel, paused_skel, edge_skel, number_skel, mono_skel, apply_ite State.skel, ite_self, foldl_skel, implies_true]) | cases h))
  · intro t n
    rfl

theorem execIcuDispatch_skel (t : Fin 18) (us : Fin 20000) (ev : EntryEvent) (s : State) : Out.is (execIcuDispatch t us ev s) s.skel := by
  refine ⟨_, rfl, ?_⟩
  (repeat' split) <;> (first | with_reducible rfl | (simp only [State.atUs_skel, State.dispatch_skel]; done))

theorem execModerationExpire_skel (t : Fin 18) (s : State) : Out.is (execModerationExpire t s) s.skel := by
  refine ⟨_, rfl, ?_⟩
  (repeat' split) <;> (first | with_reducible rfl | (simp only [State.atUs_skel, State.setTarget_skel, State.dispatch_skel]; done))

theorem execIcuSwsetWrite_skel (who : Requester) (us : Fin 20000) (k : Fin 2) (v : Word) (s : State) : Out.is (execIcuSwsetWrite who us k v s) s.skel := by
  refine ⟨_, rfl, ?_⟩
  simp only [State.cmdWrite_skel]

theorem execIcuSrcCfgWrite_skel (who : Requester) (us : Fin 20000) (n : Fin 256) (v : Word) (s : State) : Out.is (execIcuSrcCfgWrite who us n v s) s.skel := by
  refine ⟨_, rfl, ?_⟩
  simp only [State.cmdWrite_skel]

theorem execImageLoad_skel (i : Fin 8) (id len : Nat) (data : List Byte) (txn : Bool) (s : State) : Out.is (execImageLoad i id len data txn s) s.skel := by
  refine ⟨_, rfl, ?_⟩
  (repeat' split) <;> (first | (simp_all only [skel_mk, pending_skel, part_skel, phase_skel, mode_skel, paused_skel, edge_skel, number_skel, mono_skel, apply_ite State.skel, ite_self, foldl_skel, implies_true, State.respond_skel, State.txnRefused_skel, State.request_skel, State.clearSlot_skel, State.imgReceive_skel, State.imgReceived_skel, State.openStream_skel]; done) | grind [State.respond_skel, State.txnRefused_skel, State.request_skel, State.clearSlot_skel, State.imgReceive_skel, State.imgReceived_skel, State.openStream_skel, skel_mk, foldl_skel])

theorem execImageVerify_skel (i : Fin 64) (us : Fin 20000) (s : State) : Out.is (execImageVerify i us s) s.skel := by
  refine ⟨_, rfl, ?_⟩
  simp only [apply_ite State.skel, ite_self, State.atUs_skel, State.imgVerify_skel]

theorem execImageActivate_skel (who : Requester) (us : Fin 20000) (i : Fin 64) (s : State) : Out.is (execImageActivate who us i s) s.skel := by
  refine ⟨_, rfl, ?_⟩
  simp only [State.cmdWrite_skel]

theorem execImageDeactivate_skel (who : Requester) (us : Fin 20000) (i : Fin 64) (s : State) : Out.is (execImageDeactivate who us i s) s.skel := by
  refine ⟨_, rfl, ?_⟩
  simp only [State.cmdWrite_skel]

theorem execImageUnload_skel (who : Requester) (us : Fin 20000) (i : Fin 64) (s : State) : Out.is (execImageUnload who us i s) s.skel := by
  refine ⟨_, rfl, ?_⟩
  simp only [State.cmdWrite_skel]

theorem execImageActivateTimeout_skel (i : Fin 64) (s : State) : Out.is (execImageActivateTimeout i s) s.skel := by
  refine ⟨_, rfl, ?_⟩
  simp only [apply_ite State.skel, ite_self, State.imgTimeout_skel]

theorem execImageReverify_skel (us : Fin 20000) (s : State) : Out.is (execImageReverify us s) s.skel := by
  refine ⟨_, rfl, ?_⟩
  simp only [apply_ite State.skel, ite_self, State.atUs_skel, State.verifyAgain_skel]

theorem execLtabDataWrite_skel (i : Fin 8) (us : Fin 20000) (k : Fin 8192) (v : Word) (s : State) : Out.is (execLtabDataWrite i us k v s) s.skel := by
  refine ⟨_, rfl, ?_⟩
  simp only [State.cmdWrite_skel]

theorem execConfigSave_skel (us : Fin 20000) (s : State) : Out.is (execConfigSave us s) s.skel := by
  refine ⟨_, rfl, ?_⟩
  simp only [apply_ite State.skel, ite_self, State.atUs_skel, State.saveAll_skel]

theorem execFlowUpdate_skel (replays : Nat) (lost : List Nat) (s : State) : Out.is (execFlowUpdate replays lost s) s.skel := by
  refine ⟨_, rfl, ?_⟩
  simp only [skel_mk, pending_skel, part_skel, phase_skel, mode_skel, paused_skel, edge_skel, number_skel, mono_skel, apply_ite State.skel, ite_self, implies_true, State.atUs_skel, State.flowUpdate_skel, State.cellCleared_skel, State.moduleParity_skel]

theorem execFlowUpdateComplete_skel (us : Nat) (s : State) : Out.is (execFlowUpdateComplete us s) s.skel := by
  refine ⟨_, rfl, ?_⟩
  simp only [skel_mk, pending_skel, part_skel, phase_skel, mode_skel, paused_skel, edge_skel, number_skel, mono_skel, apply_ite State.skel, ite_self, State.setFld_skel]

theorem execFlowApply_skel (s : State) : Out.is (execFlowApply s) s.skel := by
  refine ⟨_, rfl, ?_⟩
  simp only [apply_ite State.skel, ite_self, State.setBit_skel]

theorem execFlowClear_skel (s : State) : Out.is (execFlowClear s) s.skel := by
  refine ⟨_, rfl, ?_⟩
  simp only [skel_mk, pending_skel, part_skel, phase_skel, mode_skel, paused_skel, edge_skel, number_skel, mono_skel, apply_ite State.skel, ite_self]

theorem execFlowRunWrite_skel (run : Bool) (s : State) : Out.is (execFlowRunWrite run s) s.skel := by
  refine ⟨_, rfl, ?_⟩
  simp only [apply_ite State.skel, ite_self, State.setBit_skel]

theorem execFlowXchgReceive_skel (peer : Fin 8) (us : Fin 20000) (format frame : Nat) (elems : List FlowElem) (s : State) : Out.is (execFlowXchgReceive peer us format frame elems s) s.skel := by
  unfold execFlowXchgReceive
  exact ⟨_, rfl, by simp only [apply_ite State.skel, ite_self, State.atUs_skel, State.peerMessage_skel, State.badMessage_skel]⟩

theorem execPeerLost_skel (peer : Fin 8) (s : State) : Out.is (execPeerLost peer s) s.skel := by
  refine ⟨_, rfl, ?_⟩
  simp only [apply_ite State.skel, ite_self, State.losePeer_skel]

theorem execJoinReq_skel (us : Fin 20000) (q : JoinReq) (s : State) : Out.is (execJoinReq us q s) s.skel := by
  refine ⟨_, rfl, ?_⟩
  simp only [skel_mk, pending_skel, part_skel, phase_skel, mode_skel, paused_skel, edge_skel, number_skel, mono_skel, apply_ite State.skel, ite_self, State.atUs_skel]

theorem execSetFailsafe_skel (lid : Fin 16384) (s : State) : Out.is (execSetFailsafe lid s) s.skel := by
  refine ⟨_, rfl, ?_⟩
  (repeat' split) <;> (first | with_reducible rfl | (simp only [State.sendFailsafe_skel]; done))

theorem execStatusReport_skel (lid : Fin 16384) (us : Fin 20000) (n : Nat) (r : StatusReport) (s : State) : Out.is (execStatusReport lid us n r s) s.skel := by
  refine ⟨_, rfl, ?_⟩
  simp only [skel_mk, pending_skel, part_skel, phase_skel, mode_skel, paused_skel, edge_skel, number_skel, mono_skel, implies_true, State.atUs_skel, State.lapRecord_skel]

theorem execStaleTimeout_skel (lid : Fin 16384) (s : State) : Out.is (execStaleTimeout lid s) s.skel := by
  refine ⟨_, rfl, ?_⟩
  (repeat' split) <;> (first | with_reducible rfl | (simp only [implies_true, State.whenDue_skel, State.setLeaf_skel]; done))

theorem execDetectionReport_skel (lid : Fin 16384) (us : Fin 20000) (n cls dir speed timeNs : Nat) (s : State) : Out.is (execDetectionReport lid us n cls dir speed timeNs s) s.skel := by
  refine ⟨_, rfl, ?_⟩
  simp only [skel_mk, pending_skel, part_skel, phase_skel, mode_skel, paused_skel, edge_skel, number_skel, mono_skel, implies_true, State.atUs_skel, State.setLeaf_skel, State.lapRecord_skel]

theorem execLanternFaultReport_skel (lid : Fin 16384) (us : Fin 20000) (n : Nat) (code : Fin 256) (raised : Bool) (s : State) : Out.is (execLanternFaultReport lid us n code raised s) s.skel := by
  refine ⟨_, rfl, ?_⟩
  simp only [apply_ite State.skel, ite_self, implies_true, State.atUs_skel, State.lapRecord_skel, State.raiseCode_skel, State.clearCode_skel]

theorem execUnreachableTimeout_skel (lid : Fin 16384) (s : State) : Out.is (execUnreachableTimeout lid s) s.skel := by
  refine ⟨_, rfl, ?_⟩
  (repeat' split) <;> (first | with_reducible rfl | (simp only [implies_true, State.whenDue_skel, State.raiseCode_skel]; done))

theorem execFaultSummary_skel (s : State) : Out.is (execFaultSummary s) s.skel := by
  refine ⟨_, rfl, ?_⟩
  simp only [skel_mk, pending_skel, part_skel, phase_skel, mode_skel, paused_skel, edge_skel, number_skel, mono_skel, apply_ite State.skel, ite_self, implies_true, State.whenDue_skel, State.faultSummary_skel]

theorem execCmdResponse_skel (lid : Fin 16384) (us : Fin 20000) (a : CmdAnswer) (s : State) : Out.is (execCmdResponse lid us a s) s.skel := by
  refine ⟨_, rfl, ?_⟩
  (repeat' split) <;> (first | with_reducible rfl | (simp only [skel_mk, pending_skel, part_skel, phase_skel, mode_skel, paused_skel, edge_skel, number_skel, mono_skel, State.atUs_skel, State.cmdFinish_skel, State.campAnswer_skel]; done))

theorem execCmdRetry_skel (lid : Fin 16384) (s : State) : Out.is (execCmdRetry lid s) s.skel := by
  refine ⟨_, rfl, ?_⟩
  (repeat' split) <;> (first | with_reducible rfl | (simp only [implies_true, State.whenDue_skel, State.cmdSend_skel]; done))

theorem execCmdTimeout_skel (lid : Fin 16384) (s : State) : Out.is (execCmdTimeout lid s) s.skel := by
  refine ⟨_, rfl, ?_⟩
  (repeat' split) <;> (first | with_reducible rfl | (simp only [implies_true, State.whenDue_skel, State.cmdFinish_skel]; done))

theorem execTrafficHoldEnd_skel (l : Fin 16408) (s : State) : Out.is (execTrafficHoldEnd l s) s.skel := by
  unfold execTrafficHoldEnd
  refine ⟨_, rfl, ?_⟩
  (repeat' split) <;> (first | with_reducible rfl | (simp only [skel_mk, pending_skel, part_skel, phase_skel, mode_skel, paused_skel, edge_skel, number_skel, mono_skel, apply_ite State.skel, ite_self, foldl_skel, implies_true, State.emit_skel, State.segHandover_skel, State.offerNow_skel]; done))

theorem execSafetyExpire_skel (k : Fin 16) (s : State) : Out.is (execSafetyExpire k s) s.skel := by
  unfold execSafetyExpire
  refine ⟨_, rfl, ?_⟩
  (repeat' split) <;> (first | with_reducible rfl | (simp only [skel_mk, pending_skel, part_skel, phase_skel, mode_skel, paused_skel, edge_skel, number_skel, mono_skel, apply_ite State.skel, ite_self, foldl_skel, implies_true, State.emit_skel, State.segHandover_skel, State.offerNow_skel]; done))

theorem execLoadShed_skel (s : State) : Out.is (execLoadShed s) s.skel := by
  unfold execLoadShed
  refine ⟨_, rfl, ?_⟩
  (repeat' split) <;> (first | with_reducible rfl | (simp only [skel_mk, pending_skel, part_skel, phase_skel, mode_skel, paused_skel, edge_skel, number_skel, mono_skel, apply_ite State.skel, ite_self, foldl_skel, implies_true, State.emit_skel, State.shed_skel, State.offerNow_skel]; done))

theorem execReconPeriodEnd_skel (s : State) : Out.is (execReconPeriodEnd s) s.skel := by
  refine ⟨_, rfl, ?_⟩
  simp only [skel_mk, pending_skel, part_skel, phase_skel, mode_skel, paused_skel, edge_skel, number_skel, mono_skel, apply_ite State.skel, ite_self, foldl_skel, implies_true, State.reconFeeder_skel]

theorem execFwCampaignStart_skel (who : Requester) (us : Fin 20000) (image : Fin 16) (s : State) : Out.is (execFwCampaignStart who us image s) s.skel := by
  refine ⟨_, rfl, ?_⟩
  simp only [State.cmdWrite_skel]

theorem execFwCampaignActivate_skel (who : Requester) (us : Fin 20000) (image : Fin 16) (s : State) : Out.is (execFwCampaignActivate who us image s) s.skel := by
  refine ⟨_, rfl, ?_⟩
  simp only [State.cmdWrite_skel]

theorem execFwCampaignAbort_skel (who : Requester) (us : Fin 20000) (image : Fin 16) (s : State) : Out.is (execFwCampaignAbort who us image s) s.skel := by
  refine ⟨_, rfl, ?_⟩
  simp only [State.cmdWrite_skel]

theorem execCampaignAnnounceDone_skel (us : Fin 20000) (s : State) : Out.is (execCampaignAnnounceDone us s) s.skel := by
  refine ⟨_, rfl, ?_⟩
  simp only [apply_ite State.skel, ite_self, State.atUs_skel, State.campPass_skel]

theorem execCampaignPassSent_skel (us : Fin 20000) (s : State) : Out.is (execCampaignPassSent us s) s.skel := by
  refine ⟨_, rfl, ?_⟩
  simp only [apply_ite State.skel, ite_self, State.atUs_skel, State.campPoll_skel]

theorem execCampaignPollEnd_skel (us : Fin 20000) (s : State) : Out.is (execCampaignPollEnd us s) s.skel := by
  refine ⟨_, rfl, ?_⟩
  simp only [apply_ite State.skel, ite_self, State.atUs_skel, State.campPollEnd_skel]

theorem execCampaignVerifyEnd_skel (us : Fin 20000) (s : State) : Out.is (execCampaignVerifyEnd us s) s.skel := by
  refine ⟨_, rfl, ?_⟩
  simp only [apply_ite State.skel, ite_self, State.atUs_skel, State.campGo_skel]

theorem execCampaignActivateEnd_skel (s : State) : Out.is (execCampaignActivateEnd s) s.skel := by
  refine ⟨_, rfl, ?_⟩
  simp only [apply_ite State.skel, ite_self, implies_true, State.whenDue_skel, State.campGo_skel, State.setTargets_skel]

theorem execRadioFrameReceive_skel (phr : Bool) (f : RxFrame) (us : Fin 20000) (s : State) : Out.is (execRadioFrameReceive phr f us s) s.skel := by
  unfold execRadioFrameReceive
  exact ⟨_, rfl, by simp only [apply_ite State.skel, ite_self, State.atUs_skel, State.rxFrame_skel, State.rxPhr_skel]⟩

theorem execAckTransmit_skel (x : Fin 2) (s : State) : Out.is (execAckTransmit x s) s.skel := by
  refine ⟨_, rfl, ?_⟩
  (repeat' split) <;> (first | with_reducible rfl | (simp only [implies_true, State.whenDue_skel, State.ackSend_skel]; done))

theorem execLaunch_skel (x : Fin 2) (us : Fin 20000) (energy : Int) (s : State) : Out.is (execLaunch x us energy s) s.skel := by
  unfold execLaunch
  refine ⟨_, rfl, ?_⟩
  (repeat' split) <;> (first | with_reducible rfl | (simp only [skel_mk, pending_skel, part_skel, phase_skel, mode_skel, paused_skel, edge_skel, number_skel, mono_skel, apply_ite State.skel, ite_self, foldl_skel, implies_true, State.atUs_skel, State.launchTry_skel]; done))

theorem execCcaRetry_skel (x : Fin 2) (energy : Int) (s : State) : Out.is (execCcaRetry x energy s) s.skel := by
  unfold execCcaRetry
  refine ⟨_, rfl, ?_⟩
  (repeat' split) <;> (first | with_reducible rfl | (simp only [skel_mk, pending_skel, part_skel, phase_skel, mode_skel, paused_skel, edge_skel, number_skel, mono_skel, apply_ite State.skel, ite_self, foldl_skel, implies_true, State.whenDue_skel, State.setTlq_skel, State.launchTry_skel]; done))

theorem execRadDemodWrite_skel (who : Requester) (us : Fin 20000) (d : Fin 8) (v : Word) (s : State) : Out.is (execRadDemodWrite who us d v s) s.skel := by
  refine ⟨_, rfl, ?_⟩
  simp only [State.cmdWrite_skel]

theorem execRadWinWrite_skel (who : Requester) (us : Fin 20000) (x : Fin 2) (v : Word) (s : State) : Out.is (execRadWinWrite who us x v s) s.skel := by
  refine ⟨_, rfl, ?_⟩
  simp only [State.cmdWrite_skel]

theorem execRadHopCfgWrite_skel (who : Requester) (us : Fin 20000) (k : Fin 68) (v : Word) (s : State) : Out.is (execRadHopCfgWrite who us k v s) s.skel := by
  refine ⟨_, rfl, ?_⟩
  simp only [State.cmdWrite_skel]

theorem execRadRxpartWrite_skel (who : Requester) (us : Fin 20000) (p : Fin 8) (v : Word) (s : State) : Out.is (execRadRxpartWrite who us p v s) s.skel := by
  refine ⟨_, rfl, ?_⟩
  simp only [State.cmdWrite_skel]

theorem execG1WindowOpen_skel (lid : Fin 16384) (s : State) : Out.is (execG1WindowOpen lid s) s.skel := by
  refine ⟨_, rfl, ?_⟩
  simp only [apply_ite State.skel, ite_self, implies_true, State.whenDue_skel, State.openWindow_skel]

theorem execG1WindowClose_skel (lid : Fin 16384) (s : State) : Out.is (execG1WindowClose lid s) s.skel := by
  refine ⟨_, rfl, ?_⟩
  simp only [apply_ite State.skel, ite_self, implies_true, State.whenDue_skel, State.closeWindow_skel]

theorem execSupervisionTimeout_skel (lid : Fin 16384) (s : State) : Out.is (execSupervisionTimeout lid s) s.skel := by
  refine ⟨_, rfl, ?_⟩
  (repeat' split) <;> (first | with_reducible rfl | (simp only [implies_true, State.whenDue_skel, State.connDrop_skel]; done))

theorem execResyncBeacon_skel (lid : Fin 16384) (us : Fin 20000) (s : State) : Out.is (execResyncBeacon lid us s) s.skel := by
  refine ⟨_, rfl, ?_⟩
  simp only [apply_ite State.skel, ite_self, State.atUs_skel, State.tlqOffer_skel, State.nextSeq_skel]

theorem execAckWaitTimeout_skel (x : Fin 2) (seq : Fin 256) (us : Fin 20000) (delay : Fin 4) (s : State) : Out.is (execAckWaitTimeout x seq us delay s) s.skel := by
  unfold execAckWaitTimeout
  refine ⟨_, rfl, ?_⟩
  (repeat' split) <;> (first | with_reducible rfl | (simp only [skel_mk, pending_skel, part_skel, phase_skel, mode_skel, paused_skel, edge_skel, number_skel, mono_skel, apply_ite State.skel, ite_self, foldl_skel, implies_true, State.atUs_skel, State.repeatFlight_skel, State.flightFailed_skel]; done))

theorem execRouteAdvSend_skel (s : State) : Out.is (execRouteAdvSend s) s.skel := by
  unfold execRouteAdvSend
  refine ⟨_, rfl, ?_⟩
  (repeat' split) <;> (first | with_reducible rfl | (simp only [skel_mk, pending_skel, part_skel, phase_skel, mode_skel, paused_skel, edge_skel, number_skel, mono_skel, apply_ite State.skel, ite_self, foldl_skel, implies_true, State.whenDue_skel, State.routeAdv_skel]; done))

theorem execRouteErr_skel (lid : Fin 16384) (s : State) : Out.is (execRouteErr lid s) s.skel := by
  refine ⟨_, rfl, ?_⟩
  simp only [skel_mk, pending_skel, part_skel, phase_skel, mode_skel, paused_skel, edge_skel, number_skel, mono_skel, State.setBit_skel]

theorem execDstExpire_skel (lid : Fin 16384) (s : State) : Out.is (execDstExpire lid s) s.skel := by
  refine ⟨_, rfl, ?_⟩
  simp only [skel_mk, pending_skel, part_skel, phase_skel, mode_skel, paused_skel, edge_skel, number_skel, mono_skel, apply_ite State.skel, ite_self, implies_true, State.setBit_skel, State.whenDue_skel]

theorem execRadLinkMapCommit_skel (who : Requester) (us : Fin 20000) (v : Word) (s : State) : Out.is (execRadLinkMapCommit who us v s) s.skel := by
  refine ⟨_, rfl, ?_⟩
  simp only [State.cmdWrite_skel]

theorem execChannelMapSwitch_skel (s : State) : Out.is (execChannelMapSwitch s) s.skel := by
  refine ⟨_, rfl, ?_⟩
  (repeat' split) <;> (first | with_reducible rfl | (simp only [skel_mk, pending_skel, part_skel, phase_skel, mode_skel, paused_skel, edge_skel, number_skel, mono_skel, implies_true, State.addWrap_skel, State.whenDue_skel]; done))

theorem execPtpSyncMeasurement_skel (p : Fin 2) (us : Fin 20000) (x : PtpSync) (corr : Int) (logSync : Fin 6) (s : State) :
    Out.is (execPtpSyncMeasurement p us x corr logSync s) s.skel := by
  refine ⟨_, rfl, ?_⟩
  split
  · exact (State.ptpHear_skel _ _ _ _ (fun _ => State.measure_skel _ _ _ _ _)).trans (State.atUs_skel _ _)
  · rfl

theorem execPtpDelayResponse_skel (p : Fin 2) (us : Fin 20000) (x : PtpDelay) (s : State) :
    Out.is (execPtpDelayResponse p us x s) s.skel := by
  refine ⟨_, rfl, ?_⟩
  split
  · refine (State.ptpHear_skel _ _ _ _ (fun t => ?_)).trans (State.atUs_skel _ _)
    split
    · exact State.setSat_skel _ _ _ _
    · rfl
  · rfl

theorem execPtpAnnounce_skel (p : Fin 2) (us : Fin 20000) (a : Announce) (s : State) : Out.is (execPtpAnnounce p us a s) s.skel := by
  refine ⟨_, rfl, ?_⟩
  simp only [apply_ite State.skel, ite_self, State.atUs_skel, State.announce_skel]

theorem execMasterLost_skel (p : Fin 2) (s : State) : Out.is (execMasterLost p s) s.skel := by
  refine ⟨_, rfl, ?_⟩
  (repeat' split) <;> (first | with_reducible rfl | (simp only [implies_true, State.whenDue_skel, State.masterLost_skel]; done))

theorem execEthernetLinkChange_skel (p : Fin 2) (us : Fin 20000) (speed : Fin 4) (s : State) : Out.is (execEthernetLinkChange p us speed s) s.skel := by
  refine ⟨_, rfl, ?_⟩
  simp only [apply_ite State.skel, ite_self, State.atUs_skel, State.setNtuPort_skel, State.portSync_skel]

theorem execTimeStep_skel (us : Fin 20000) (s : State) :
    Out.is (execTimeStep us s) s.skel ∨ ∃ ns, Out.is (execTimeStep us s) { s.skel with edge := ns } := by
  unfold execTimeStep
  split
  · exact .inr ⟨_, _, rfl, (State.timeStep_skel _).trans (by rw [State.atUs_skel])⟩
  · exact .inl ⟨_, rfl, rfl⟩

theorem execNtuJumpAccept_skel (who : Requester) (us : Fin 20000) (s : State) : Out.is (execNtuJumpAccept who us s) s.skel := by
  refine ⟨_, rfl, ?_⟩
  simp only [State.cmdWrite_skel]

theorem execNtuPtpDisable_skel (who : Requester) (us : Fin 20000) (s : State) : Out.is (execNtuPtpDisable who us s) s.skel := by
  refine ⟨_, rfl, ?_⟩
  simp only [State.cmdWrite_skel]

theorem execLeapSecond_skel (s : State) : Out.is (execLeapSecond s) s.skel := by
  refine ⟨_, rfl, ?_⟩
  (repeat' split) <;> (first | with_reducible rfl | (simp only [implies_true, State.whenDue_skel, State.leapStep_skel]; done))

theorem execComplianceCheck_skel (c : Fin 24) (us : Fin 20000) (microamps headroom vbus : Nat) (s : State) : Out.is (execComplianceCheck c us microamps headroom vbus s) s.skel := by
  refine ⟨_, rfl, ?_⟩
  simp only [apply_ite State.skel, ite_self, State.atUs_skel, State.compliance_skel]

theorem execBusRampLimit_skel (vbus : Nat) (s : State) : Out.is (execBusRampLimit vbus s) s.skel := by
  refine ⟨_, rfl, ?_⟩
  simp only [apply_ite State.skel, ite_self, foldl_skel, implies_true, State.whenDue_skel, State.setDchan_skel, State.handOver_skel, State.diagSet_skel]

theorem execHandoverEnd_skel (s : State) : Out.is (execHandoverEnd s) s.skel := by
  refine ⟨_, rfl, ?_⟩
  simp only [apply_ite State.skel, ite_self, implies_true, State.setBit_skel, State.whenDue_skel]

theorem execVledinLost_skel (us : Fin 20000) (vledin : Nat) (s0 : State) : Out.is (execVledinLost us vledin s0) s0.skel := by
  unfold execVledinLost
  exact ⟨_, rfl, by simp only [apply_ite State.skel, ite_self, State.setFld_skel, State.setBit_skel, State.atUs_skel, State.busOff_skel, State.noteVledin_skel]⟩

theorem execVledinValid_skel (us : Fin 20000) (vledin : Nat) (s0 : State) : Out.is (execVledinValid us vledin s0) s0.skel := by
  unfold execVledinValid
  exact ⟨_, rfl, by simp only [apply_ite State.skel, ite_self, State.setFld_skel, State.setBit_skel, State.atUs_skel, State.busTry_skel, State.noteVledin_skel]⟩

theorem execThermalShutdown_skel (us : Fin 20000) (bank : Int) (s : State) : Out.is (execThermalShutdown us bank s) s.skel := by
  unfold execThermalShutdown
  exact ⟨_, rfl, by simp only [skel_mk, pending_skel, part_skel, phase_skel, mode_skel, paused_skel, edge_skel, number_skel, mono_skel, apply_ite State.skel, ite_self, State.setFld_skel, State.setBit_skel, State.setFldI_skel, State.atUs_skel, State.busOff_skel, State.fltRaise_skel]⟩

theorem execDrvRestart_skel (who : Requester) (us : Fin 20000) (s : State) : Out.is (execDrvRestart who us s) s.skel := by
  refine ⟨_, rfl, ?_⟩
  simp only [State.cmdWrite_skel]

theorem execThermalAutoRetry_skel (s : State) : Out.is (execThermalAutoRetry s) s.skel := by
  refine ⟨_, rfl, ?_⟩
  (repeat' split) <;> (first | with_reducible rfl | (simp only [skel_mk, pending_skel, part_skel, phase_skel, mode_skel, paused_skel, edge_skel, number_skel, mono_skel, apply_ite State.skel, ite_self, implies_true, State.whenDue_skel, State.drvRestart_skel]; done))

theorem execDrvTest_skel (who : Requester) (us : Fin 20000) (s : State) : Out.is (execDrvTest who us s) s.skel := by
  refine ⟨_, rfl, ?_⟩
  simp only [State.cmdWrite_skel]

theorem execDrvTestComplete_skel (us : Fin 20000) (vbus : Nat) (vfs : List (Fin 24 × Nat)) (s : State) : Out.is (execDrvTestComplete us vbus vfs s) s.skel := by
  refine ⟨_, rfl, ?_⟩
  simp only [apply_ite State.skel, ite_self, foldl_skel, implies_true, State.atUs_skel, State.setDchan_skel, State.clearMeasured_skel, State.handOver_skel, State.checkPass_skel]

theorem execOpenRetest_skel (c : Fin 24) (microamps headroom vbus : Nat) (s : State) : Out.is (execOpenRetest c microamps headroom vbus s) s.skel := by
  refine ⟨_, rfl, ?_⟩
  (repeat' split) <;> (first | with_reducible rfl | (simp only [apply_ite State.skel, ite_self, implies_true, State.whenDue_skel, State.setDchan_skel, State.diagSet_skel, State.checkPass_skel]; done))

theorem execDropoutRetry_skel (c : Fin 24) (s : State) : Out.is (execDropoutRetry c s) s.skel := by
  refine ⟨_, rfl, ?_⟩
  (repeat' split) <;> (first | with_reducible rfl | (simp only [implies_true, State.whenDue_skel, State.busRecovery_skel]; done))

theorem execDrvIsetWrite_skel (who : Requester) (us : Fin 20000) (v : Word) (s : State) : Out.is (execDrvIsetWrite who us v s) s.skel := by
  refine ⟨_, rfl, ?_⟩
  simp only [State.cmdWrite_skel]

theorem execDrvChanCfgWrite_skel (who : Requester) (us : Fin 20000) (c : Fin 24) (v : Word) (s : State) : Out.is (execDrvChanCfgWrite who us c v s) s.skel := by
  refine ⟨_, rfl, ?_⟩
  simp only [State.cmdWrite_skel]

theorem execDrvStoreLoaded_skel (us : Fin 20000) (s : State) : Out.is (execDrvStoreLoaded us s) s.skel := by
  unfold execDrvStoreLoaded
  exact ⟨_, rfl, by simp only [skel_mk, pending_skel, part_skel, phase_skel, mode_skel, paused_skel, edge_skel, number_skel, mono_skel, apply_ite State.skel, ite_self, foldl_skel, implies_true, State.setBit_skel, State.atUs_skel, State.loopsFailsafe_skel, State.busTry_skel, State.syncFeedback_skel, State.coils_skel, State.forceChan_skel, State.loopsHeld_skel, State.drvConfig_skel, State.pwmBegin_skel]⟩

theorem execOverrideSwitchChange_skel (us : Fin 20000) (pos : Fin 3) (s : State) : Out.is (execOverrideSwitchChange us pos s) s.skel := by
  unfold execOverrideSwitchChange
  exact ⟨_, rfl, by simp only [apply_ite State.skel, ite_self, State.setFld_skel, State.atUs_skel, State.assertSrc_skel, State.switchTo_skel]⟩

theorem execDrvFeederCmdWrite_skel (who : Requester) (us : Fin 20000) (f : Fin 6) (close : Bool) (s : State) : Out.is (execDrvFeederCmdWrite who us f close s) s.skel := by
  refine ⟨_, rfl, ?_⟩
  simp only [State.cmdWrite_skel]

theorem execFeederChangeRelease_skel (f : Fin 6) (s : State) : Out.is (execFeederChangeRelease f s) s.skel := by
  refine ⟨_, rfl, ?_⟩
  simp only [apply_ite State.skel, ite_self, implies_true, State.whenDue_skel, State.coils_skel]

theorem execFeederFeedbackFault_skel (f : Fin 6) (s : State) : Out.is (execFeederFeedbackFault f s) s.skel := by
  refine ⟨_, rfl, ?_⟩
  simp only [apply_ite State.skel, ite_self, implies_true, State.setBit_skel, State.whenDue_skel, State.report_skel]

theorem execFeederClosedSettle_skel (f : Fin 6) (s : State) : Out.is (execFeederClosedSettle f s) s.skel := by
  refine ⟨_, rfl, ?_⟩
  simp only [apply_ite State.skel, ite_self, implies_true, State.setBit_skel, State.whenDue_skel]

theorem execLoopSample_skel (l : Fin 4) (us : Fin 20000) (x : LoopIn) (s : State) : Out.is (execLoopSample l us x s) s.skel := by
  unfold execLoopSample
  exact ⟨_, rfl, by simp only [apply_ite State.skel, ite_self, State.atUs_skel, State.loopSample_skel, State.ainCodes_skel, State.sampleNext_skel]⟩

theorem execLoopClose_skel (who : Requester) (us : Fin 20000) (l : Fin 4) (s : State) : Out.is (execLoopClose who us l s) s.skel := by
  refine ⟨_, rfl, ?_⟩
  simp only [State.cmdWrite_skel]

theorem execLoopOpen_skel (who : Requester) (us : Fin 20000) (l : Fin 4) (s : State) : Out.is (execLoopOpen who us l s) s.skel := by
  refine ⟨_, rfl, ?_⟩
  simp only [State.cmdWrite_skel]

theorem execAinWireFault_skel (k : Fin 4) (us : Fin 20000) (s : State) : Out.is (execAinWireFault k us s) s.skel := by
  refine ⟨_, rfl, ?_⟩
  simp only [apply_ite State.skel, ite_self, State.atUs_skel, State.ainWire_skel]

theorem execAinWireClear_skel (k : Fin 4) (us : Fin 20000) (s : State) : Out.is (execAinWireClear k us s) s.skel := by
  refine ⟨_, rfl, ?_⟩
  simp only [apply_ite State.skel, ite_self, State.atUs_skel, State.ainWire_skel]

theorem execLceAoutManWrite_skel (who : Requester) (us : Fin 20000) (k : Fin 2) (v : Word) (s : State) : Out.is (execLceAoutManWrite who us k v s) s.skel := by
  refine ⟨_, rfl, ?_⟩
  simp only [State.cmdWrite_skel]

theorem execLceSpWrite_skel (who : Requester) (us : Fin 20000) (l : Fin 4) (v : Word) (s : State) : Out.is (execLceSpWrite who us l v s) s.skel := by
  refine ⟨_, rfl, ?_⟩
  simp only [State.cmdWrite_skel]

theorem execLceCfgWrite_skel (who : Requester) (us : Fin 20000) (l : Fin 4) (k : Fin 64) (v : Word) (s : State) : Out.is (execLceCfgWrite who us l k v s) s.skel := by
  refine ⟨_, rfl, ?_⟩
  simp only [State.cmdWrite_skel]

theorem execPinTimeout_skel (k : Fin 2) (s : State) : Out.is (execPinTimeout k s) s.skel := by
  refine ⟨_, rfl, ?_⟩
  simp only [skel_mk, pending_skel, part_skel, phase_skel, mode_skel, paused_skel, edge_skel, number_skel, mono_skel, apply_ite State.skel, ite_self, implies_true, State.setFld_skel, State.whenDue_skel]

theorem execMeterHello_skel (us : Fin 20000) (bytes : List Byte) (s : State) : Out.is (execMeterHello us bytes s) s.skel := by
  unfold execMeterHello
  exact ⟨_, rfl, by simp only [implies_true, State.metHello_skel, State.metReceive_skel]⟩

theorem execMeterMeas_skel (us : Fin 20000) (bytes : List Byte) (s : State) : Out.is (execMeterMeas us bytes s) s.skel := by
  unfold execMeterMeas
  exact ⟨_, rfl, State.metFrame_skel _ _ _ _ _ (fun t p => State.metMeas_skel _ _)⟩

theorem execMeterLogrec_skel (us : Fin 20000) (bytes : List Byte) (s : State) : Out.is (execMeterLogrec us bytes s) s.skel := by
  unfold execMeterLogrec
  exact ⟨_, rfl, State.metFrame_skel _ _ _ _ _ (fun t p => State.metLog_skel _ _ _)⟩

theorem execMeterIdentRsp_skel (us : Fin 20000) (bytes : List Byte) (s : State) : Out.is (execMeterIdentRsp us bytes s) s.skel := by
  unfold execMeterIdentRsp
  exact ⟨_, rfl, State.metFrame_skel _ _ _ _ _ (fun t p => Eq.trans rfl (by rw [State.setBit_skel, State.setFld_skel, State.setFld_skel] : (((t.setFld R.MET_FWID_FWID (leAt p 0 4)).setFld R.MET_FWCRC_CRC (leAt p 4 4)).setBit R.MET_STAT_FW_BUSY false).skel = t.skel))⟩

theorem execMeterTsyncRsp_skel (us : Fin 20000) (bytes : List Byte) (s : State) : Out.is (execMeterTsyncRsp us bytes s) s.skel := by
  unfold execMeterTsyncRsp
  exact ⟨_, rfl, State.metFrame_skel _ _ _ _ _ (fun t p => by simp only [State.setFld_skel, State.setFldI_skel])⟩

theorem execMeterChallenge_skel (us : Fin 20000) (bytes : List Byte) (s : State) : Out.is (execMeterChallenge us bytes s) s.skel := by
  unfold execMeterChallenge
  exact ⟨_, rfl, State.metFrame_skel _ _ _ _ _ (fun t p => rfl)⟩

theorem execMeterSealedMsg_skel (us : Fin 20000) (bytes : List Byte) (s : State) : Out.is (execMeterSealedMsg us bytes s) s.skel := by
  unfold execMeterSealedMsg
  refine ⟨_, rfl, State.metFrame_skel _ _ _ _ _ (fun t answer => ?_)⟩
  split
  · exact (State.respond_skel _ _ _ _ _).trans rfl
  · rfl

theorem execMeterLinkTimeout_skel (s : State) : Out.is (execMeterLinkTimeout s) s.skel := by
  refine ⟨_, rfl, ?_⟩
  simp only [apply_ite State.skel, ite_self, implies_true, State.whenDue_skel, State.metEnd_skel]

theorem execMetFwReq_skel (who : Requester) (us : Fin 20000) (s : State) : Out.is (execMetFwReq who us s) s.skel := by
  refine ⟨_, rfl, ?_⟩
  simp only [State.cmdWrite_skel]

theorem execMetTsyncReq_skel (who : Requester) (us : Fin 20000) (s : State) : Out.is (execMetTsyncReq who us s) s.skel := by
  refine ⟨_, rfl, ?_⟩
  simp only [State.cmdWrite_skel]

theorem execTsyncAuto_skel (us : Fin 20000) (s : State) : Out.is (execTsyncAuto us s) s.skel := by
  unfold execTsyncAuto
  exact ⟨_, rfl, by simp only [skel_mk, pending_skel, part_skel, phase_skel, mode_skel, paused_skel, edge_skel, number_skel, mono_skel, apply_ite State.skel, ite_self, State.atUs_skel, State.metTsync_skel]⟩

theorem execIslandTsync_skel (bytes : List Byte) (frac : Fin 1000000) (s : State) : Out.is (execIslandTsync bytes frac s) s.skel := by
  unfold execIslandTsync
  refine ⟨_, rfl, ?_⟩
  (repeat' split) <;> (first | with_reducible rfl | (simp only [skel_mk, pending_skel, part_skel, phase_skel, mode_skel, paused_skel, edge_skel, number_skel, mono_skel, apply_ite State.skel, ite_self, foldl_skel, implies_true, State.islTsync_skel, State.islReceive_skel]; done))

theorem execIslandIdent_skel (bytes : List Byte) (s : State) : Out.is (execIslandIdent bytes s) s.skel := by
  unfold execIslandIdent
  exact ⟨_, rfl, by simp only [implies_true, State.fromIsland_skel, State.islReceive_skel]⟩

theorem execIslandSecond_skel (q : IslandIn) (s : State) : Out.is (execIslandSecond q s) s.skel := by
  refine ⟨_, rfl, ?_⟩
  simp only [implies_true, State.islSecond_skel, State.island_skel]

theorem execDemandPeriodEnd_skel (s : State) : Out.is (execDemandPeriodEnd s) s.skel := by
  refine ⟨_, rfl, ?_⟩
  simp only [apply_ite State.skel, ite_self, implies_true, State.islPeriod_skel, State.island_skel]

theorem execDemandMonthEnd_skel (s : State) : Out.is (execDemandMonthEnd s) s.skel := by
  unfold execDemandMonthEnd
  exact ⟨_, rfl, by simp only [apply_ite State.skel, ite_self, implies_true, State.island_skel, State.islMonth_skel]⟩

theorem execSagSwell_skel (k : Fin 3) (swell : Bool) (v ms : Nat) (s : State) : Out.is (execSagSwell k swell v ms s) s.skel := by
  unfold execSagSwell
  exact ⟨_, rfl, State.island_skel _ _ (fun t => rfl)⟩

theorem execSealOpen_skel (m : SignedMsg) (jumper : Bool) (s : State) : Out.is (execSealOpen m jumper s) s.skel := by
  unfold execSealOpen
  refine ⟨_, rfl, State.islSigned_skel _ _ _ (fun t0 => ?_)⟩
  have h0 : (if jumper then t0 else { t0 with isl := { t0.isl with reseat := false } } : State).skel = t0.skel := by split <;> rfl
  dsimp only
  generalize (if jumper then t0 else { t0 with isl := { t0.isl with reseat := false } } : State) = t at h0
  split
  · exact h0
  · split
    · exact h0
    · exact (State.islLog_skel _ _ _ _).trans (Eq.trans rfl h0)

theorem execSealClose_skel (m : SignedMsg) (s : State) : Out.is (execSealClose m s) s.skel := by
  refine ⟨_, rfl, ?_⟩
  (repeat' split) <;> (first | (simp_all only [skel_mk, pending_skel, part_skel, phase_skel, mode_skel, paused_skel, edge_skel, number_skel, mono_skel, apply_ite State.skel, ite_self, foldl_skel, implies_true, State.islSigned_skel, State.islClose_skel]; done) | grind [State.islSigned_skel, State.islClose_skel, skel_mk, foldl_skel])

theorem execSetCal_skel (m : SignedMsg) (ch : Fin 12) (consts : List Byte) (s : State) : Out.is (execSetCal m ch consts s) s.skel := by
  unfold execSetCal
  exact ⟨_, rfl, State.islParam_skel _ _ _ _ _⟩

theorem execSetCt_skel (m : SignedMsg) (pri : Fin 65536) (sec1 : Bool) (s : State) : Out.is (execSetCt m pri sec1 s) s.skel := by
  unfold execSetCt
  exact ⟨_, rfl, State.islParam_skel _ _ _ _ _⟩

theorem execTestMode_skel (m : SignedMsg) (mode : Nat) (s : State) : Out.is (execTestMode m mode s) s.skel := by
  unfold execTestMode
  exact ⟨_, rfl, State.islParam_skel _ _ _ _ _⟩

theorem execFwLoad_skel (m : SignedMsg) (fwid : Nat) (code sig : List Byte) (s : State) : Out.is (execFwLoad m fwid code sig s) s.skel := by
  refine ⟨_, rfl, ?_⟩
  refine State.islSigned_skel _ _ _ ?_
  intro t
  split
  · rfl
  · split <;> rfl

theorem execFwActivate_skel (m : SignedMsg) (s : State) : Out.is (execFwActivate m s) s.skel := by
  unfold execFwActivate
  refine ⟨_, rfl, State.islOpen_skel _ _ _ (fun t => ?_)⟩
  split
  · split
    · exact (State.islHello_skel _).trans ((State.islLog_skel _ _ _ _).trans rfl)
    · rfl
  · rfl

theorem execSetMkey_skel (m : SignedMsg) (key : List Byte) (s : State) : Out.is (execSetMkey m key s) s.skel := by
  unfold execSetMkey
  exact ⟨_, rfl, State.islParam_skel _ _ _ _ _⟩

theorem execSealJumperRemoved_skel (s : State) : Out.is (execSealJumperRemoved s) s.skel := by
  refine ⟨_, rfl, ?_⟩
  simp only [skel_mk, pending_skel, part_skel, phase_skel, mode_skel, paused_skel, edge_skel, number_skel, mono_skel, apply_ite State.skel, ite_self, implies_true, State.islClose_skel, State.island_skel]

theorem execSealOpenTimeout_skel (s : State) : Out.is (execSealOpenTimeout s) s.skel := by
  refine ⟨_, rfl, ?_⟩
  simp only [skel_mk, pending_skel, part_skel, phase_skel, mode_skel, paused_skel, edge_skel, number_skel, mono_skel, apply_ite State.skel, ite_self, implies_true, State.islClose_skel, State.island_skel]

theorem execIslandStop_skel (s : State) : Out.is (execIslandStop s) s.skel := by
  unfold execIslandStop
  exact ⟨_, rfl, by simp only [skel_mk, pending_skel, part_skel, phase_skel, mode_skel, paused_skel, edge_skel, number_skel, mono_skel, implies_true, State.islLog_skel, State.island_skel]⟩

theorem execIslandStart_skel (outage : Nat) (clock : Bool) (s : State) : Out.is (execIslandStart outage clock s) s.skel := by
  refine ⟨_, rfl, ?_⟩
  (repeat' split) <;> (first | with_reducible rfl | (simp only [State.islStart_skel]; done))

theorem execWatchSample_skel (us : Fin 20000) (w : WatchIn) (s : State) : Out.is (execWatchSample us w s) s.skel := by
  unfold execWatchSample
  refine ⟨_, rfl, ?_⟩
  (repeat' split) <;> (first | with_reducible rfl | (simp only [skel_mk, pending_skel, part_skel, phase_skel, mode_skel, paused_skel, edge_skel, number_skel, mono_skel, apply_ite State.skel, ite_self, foldl_skel, implies_true, State.atUs_skel, State.watchSample_skel, State.onyxTick_skel]; done))

theorem execPhotoFallbackArm_skel (us : Fin 20000) (s : State) : Out.is (execPhotoFallbackArm us s) s.skel := by
  refine ⟨_, rfl, ?_⟩
  simp only [apply_ite State.skel, ite_self, State.atUs_skel, State.photoSync_skel]

theorem execRtcSecondTick_skel (us : Nat) (s : State) : Out.is (execRtcSecondTick us s) s.skel := by
  unfold execRtcSecondTick
  exact ⟨_, rfl, by simp only [apply_ite State.skel, ite_self, State.rtcTick_skel, State.rtcClock_skel]⟩

theorem execRtcSet_skel (who : Requester) (us : Fin 20000) (v : Word) (s : State) : Out.is (execRtcSet who us v s) s.skel := by
  refine ⟨_, rfl, ?_⟩
  simp only [State.cmdWrite_skel]

theorem execOscillatorStop_skel (s : State) : Out.is (execOscillatorStop s) s.skel := by
  refine ⟨_, rfl, ?_⟩
  simp only [apply_ite State.skel, ite_self, State.setBit_skel]

theorem execRtcSteerCheck_skel (us : Fin 20000) (s : State) : Out.is (execRtcSteerCheck us s) s.skel := by
  unfold execRtcSteerCheck
  exact ⟨_, rfl, by simp only [skel_mk, pending_skel, part_skel, phase_skel, mode_skel, paused_skel, edge_skel, number_skel, mono_skel, apply_ite State.skel, ite_self, State.atUs_skel, State.rtcSteer_skel]⟩

theorem execRtcCalAuto_skel (s : State) : Out.is (execRtcCalAuto s) s.skel := by
  refine ⟨_, rfl, ?_⟩
  (repeat' split) <;> (first | with_reducible rfl | (simp only [skel_mk, pending_skel, part_skel, phase_skel, mode_skel, paused_skel, edge_skel, number_skel, mono_skel, apply_ite State.skel, ite_self, implies_true, State.whenDue_skel, State.calAdjust_skel]; done))

theorem execRtcAlmCtrlWrite_skel (who : Requester) (us : Fin 20000) (k : Fin 2) (v : Word) (s : State) : Out.is (execRtcAlmCtrlWrite who us k v s) s.skel := by
  refine ⟨_, rfl, ?_⟩
  simp only [State.cmdWrite_skel]

theorem execEvinEdge_skel (i : Fin 4) (us : Nat) (count : Fin 32768) (rising : Bool) (s : State) : Out.is (execEvinEdge i us count rising s) s.skel := by
  unfold execEvinEdge
  refine ⟨_, rfl, ?_⟩
  (repeat' split) <;> (first | with_reducible rfl | (simp only [skel_mk, pending_skel, part_skel, phase_skel, mode_skel, paused_skel, edge_skel, number_skel, mono_skel, apply_ite State.skel, ite_self, foldl_skel, implies_true, State.evinEdge_skel, State.rtcClock_skel]; done))

theorem execEvinPop_skel (who : Requester) (us : Fin 20000) (i : Fin 4) (s : State) : Out.is (execEvinPop who us i s) s.skel := by
  refine ⟨_, rfl, ?_⟩
  simp only [State.cmdWrite_skel]

theorem execEvrRdSelect_skel (who : Requester) (us : Fin 20000) (v : Word) (s : State) : Out.is (execEvrRdSelect who us v s) s.skel := by
  refine ⟨_, rfl, ?_⟩
  simp only [State.cmdWrite_skel]

theorem execKeyRecovery_skel (s : State) : Out.is (execKeyRecovery s) s.skel := by
  refine ⟨_, rfl, ?_⟩
  simp only [apply_ite State.skel, ite_self, State.keyRecover_skel, State.calRestore_skel]

theorem execKeyLoad_skel (i : Fin 8) (id : Nat) (q : KeyLoad) (s : State) : Out.is (execKeyLoad i id q s) s.skel := by
  refine ⟨_, rfl, ?_⟩
  simp only [implies_true, State.request_skel, State.keyLoad_skel]

theorem execKeyCommitCopy2_skel (k : Fin 32) (us : Fin 20000) (s : State) : Out.is (execKeyCommitCopy2 k us s) s.skel := by
  refine ⟨_, rfl, ?_⟩
  simp only [apply_ite State.skel, ite_self, State.atUs_skel, State.keyCopy2_skel]

theorem execKeyRevoke_skel (who : Requester) (us : Fin 20000) (k : Fin 32) (s : State) : Out.is (execKeyRevoke who us k s) s.skel := by
  refine ⟨_, rfl, ?_⟩
  simp only [State.cmdWrite_skel]

theorem execKeyOperationComplete_skel (us : Fin 20000) (e : KeyEnd) (asks : List SealAsk) (s : State) : Out.is (execKeyOperationComplete us e asks s) s.skel := by
  unfold execKeyOperationComplete
  exact ⟨_, rfl, by simp only [apply_ite State.skel, ite_self, foldl_skel, implies_true, State.atUs_skel, State.keyDone_skel, State.keyAsk_skel]⟩

theorem execAttest_skel (i : Fin 8) (id : Nat) (nonce : List Byte) (s : State) : Out.is (execAttest i id nonce s) s.skel := by
  unfold execAttest
  exact ⟨_, rfl, by simp only [apply_ite State.skel, ite_self, implies_true, State.respond_skel, State.request_skel, State.keyBusy_skel, State.keyQueue_skel]⟩

theorem execRetire_skel (i : Fin 8) (id : Nat) (body sig : List Byte) (s : State) : Out.is (execRetire i id body sig s) s.skel := by
  unfold execRetire
  exact ⟨_, rfl, by simp only [apply_ite State.skel, ite_self, implies_true, State.respond_skel, State.request_skel, State.keyBusy_skel, State.keyQueue_skel]⟩

theorem execManifest_skel (i : Fin 8) (id : Nat) (bs : List Byte) (txn : Bool) (s : State) : Out.is (execManifest i id bs txn s) s.skel := by
  unfold execManifest
  (repeat' split) <;> (first | exact ⟨_, rfl, rfl⟩ | (refine ⟨_, rfl, ?_⟩; simp_all only [skel_mk, pending_skel, part_skel, phase_skel, mode_skel, paused_skel, edge_skel, number_skel, mono_skel, apply_ite State.skel, ite_self, foldl_skel, implies_true, State.respond_skel, State.txnRefused_skel, State.request_skel, State.keyBusy_skel, State.updRefuse_skel, State.keyQueue_skel, State.manifestRefuse_skel]; done) | (refine ⟨_, rfl, ?_⟩; grind [State.respond_skel, State.txnRefused_skel, State.request_skel, State.keyBusy_skel, State.updRefuse_skel, State.keyQueue_skel, State.manifestRefuse_skel, skel_mk, foldl_skel]))

theorem execPart_skel (i : Fin 8) (id len : Nat) (data : List Byte) (txn : Bool) (s : State) : Out.is (execPart i id len data txn s) s.skel := by
  refine ⟨_, rfl, ?_⟩
  simp only [apply_ite State.skel, ite_self, implies_true, State.respond_skel, State.txnRefused_skel, State.request_skel, State.openStream_skel, State.partDone_skel]

theorem execForwardSealComplete_skel (us : Fin 20000) (s : State) : Out.is (execForwardSealComplete us s) s.skel := by
  unfold execForwardSealComplete
  refine ⟨_, rfl, ?_⟩
  (repeat' split) <;> (first | with_reducible rfl | (simp only [skel_mk, pending_skel, part_skel, phase_skel, mode_skel, paused_skel, edge_skel, number_skel, mono_skel, apply_ite State.skel, ite_self, foldl_skel, implies_true, State.atUs_skel, State.setUpdState_skel, State.updEvt_skel, State.forwardSeal_skel, State.updStage_skel]; done))

theorem execUpdActivate_skel (who : Requester) (us : Fin 20000) (s : State) : Out.is (execUpdActivate who us s) s.skel := by
  refine ⟨_, rfl, ?_⟩
  simp only [State.cmdWrite_skel]

theorem execUpdConfirm_skel (who : Requester) (us : Fin 20000) (s : State) : Out.is (execUpdConfirm who us s) s.skel := by
  refine ⟨_, rfl, ?_⟩
  simp only [State.cmdWrite_skel]

theorem execUpdRollback_skel (who : Requester) (us : Fin 20000) (s : State) : Out.is (execUpdRollback who us s) s.skel := by
  refine ⟨_, rfl, ?_⟩
  simp only [State.cmdWrite_skel]

theorem execUpdAbort_skel (who : Requester) (us : Fin 20000) (s : State) : Out.is (execUpdAbort who us s) s.skel := by
  refine ⟨_, rfl, ?_⟩
  simp only [State.cmdWrite_skel]

theorem execControlPause_skel (s : State) :
    Out.is (execControlPause s) s.skel ∨
    (s.fr.phase = .emit ∧
      Out.is (execControlPause s) { s.skel.ticked s.nextEdge (s.fr.mono + 1) with phase := .stopped, paused := true }) := by
  unfold execControlPause
  split
  · rename_i h
    exact .inr ⟨h.1, _, rfl, State.pauseBegin_skel _⟩
  · exact .inl ⟨_, rfl, rfl⟩

theorem execUpdateResume_skel (bad : List (Fin 64 × Fin 20)) (s : State) :
    Out.is (execUpdateResume bad s) s.skel ∨
    (s.poweredOn = true ∧ Out.is (execUpdateResume bad s) { s.skel with phase := .emit, paused := false }) := by
  unfold execUpdateResume
  split
  · rename_i h
    exact .inr ⟨h.2, _, rfl, State.resume'_skel _ _⟩
  · exact .inl ⟨_, rfl, rfl⟩

theorem execUpdateNoResume_skel (s : State) : Out.is (execUpdateNoResume s) s.skel := by
  refine ⟨_, rfl, ?_⟩
  (repeat' split) <;> (first | with_reducible rfl | (simp only [implies_true, State.whenDue_skel, State.rollbackSwitch_skel, State.rollbackBegin_skel]; done))

theorem execConfirmWindowExpire_skel (s : State) : Out.is (execConfirmWindowExpire s) s.skel := by
  refine ⟨_, rfl, ?_⟩
  simp only [apply_ite State.skel, ite_self, implies_true, State.setFld_skel, State.whenDue_skel, State.rollbackBegin_skel]

theorem execSessionHandshake_skel (conn : Nat) (service dtls : Bool) (suite : TlsSuite) (p256 : Bool) (subject : Nat) (role : Fin 5) (cert sig : List Byte) (us : Fin 20000) (s : State) : Out.is (execSessionHandshake conn service dtls suite p256 subject role cert sig us s) s.skel := by
  unfold execSessionHandshake
  exact ⟨_, rfl, by simp only [State.atUs_skel, State.handshake_skel]⟩

theorem execHello_skel (conn lo hi features window : Nat) (token : Option Nat) (us : Fin 20000) (s : State) : Out.is (execHello conn lo hi features window token us s) s.skel := by
  refine ⟨_, rfl, ?_⟩
  (repeat' split) <;> (first | with_reducible rfl | (simp only [State.atUs_skel, State.hello_skel]; done))

theorem execRegRead_skel (i : Fin 8) (id a n : Nat) (us : Fin 20000) (s : State) : Out.is (execRegRead i id a n us s) s.skel := by
  refine ⟨_, rfl, ?_⟩
  simp only [implies_true, State.atUs_skel, State.request_skel, State.regRead_skel]

theorem execRegWrite_skel (i : Fin 8) (id a : Nat) (ws : List Word) (txn : Bool) (us : Fin 20000) (s : State) : Out.is (execRegWrite i id a ws txn us s) s.skel := by
  refine ⟨_, rfl, ?_⟩
  simp only [implies_true, State.atUs_skel, State.request_skel, State.regWrite_skel]

theorem execTxnBegin_skel (i : Fin 8) (id : Nat) (us : Fin 20000) (s : State) : Out.is (execTxnBegin i id us s) s.skel := by
  refine ⟨_, rfl, ?_⟩
  simp only [implies_true, State.atUs_skel, State.request_skel, State.txnBegin_skel]

theorem execTxnCommit_skel (i : Fin 8) (id : Nat) (us : Fin 20000) (s : State) : Out.is (execTxnCommit i id us s) s.skel := by
  refine ⟨_, rfl, ?_⟩
  simp only [implies_true, State.atUs_skel, State.request_skel, State.txnCommit_skel]

theorem execTxnAbort_skel (i : Fin 8) (id : Nat) (us : Fin 20000) (s : State) : Out.is (execTxnAbort i id us s) s.skel := by
  refine ⟨_, rfl, ?_⟩
  simp only [implies_true, State.atUs_skel, State.request_skel, State.txnAbort_skel]

theorem execTxnIdleTimeout_skel (i : Fin 8) (s : State) : Out.is (execTxnIdleTimeout i s) s.skel := by
  refine ⟨_, rfl, ?_⟩
  (repeat' split) <;> (first | with_reducible rfl | (simp only [implies_true, State.whenDue_skel, State.txnDrop_skel]; done))

theorem execLogRead_skel (i : Fin 8) (id log first n : Nat) (us : Fin 20000) (s : State) : Out.is (execLogRead i id log first n us s) s.skel := by
  refine ⟨_, rfl, ?_⟩
  simp only [implies_true, State.atUs_skel, State.request_skel, State.logRead_skel]

theorem execSubscribe_skel (i : Fin 8) (id mask : Nat) (s : State) : Out.is (execSubscribe i id mask s) s.skel := by
  refine ⟨_, rfl, ?_⟩
  simp only [apply_ite State.skel, ite_self, implies_true, State.setSess_skel, State.respond_skel, State.request_skel]

theorem execLanternCmd_skel (i : Fin 8) (id lid : Nat) (code : Fin 256) (payload : List Byte) (txn : Bool) (us : Fin 20000) (s : State) : Out.is (execLanternCmd i id lid code payload txn us s) s.skel := by
  refine ⟨_, rfl, ?_⟩
  simp only [implies_true, State.atUs_skel, State.request_skel, State.lanternCmd_skel]

theorem execSealedMsg_skel (i : Fin 8) (id : Nat) (msg : List Byte) (s : State) : Out.is (execSealedMsg i id msg s) s.skel := by
  refine ⟨_, rfl, ?_⟩
  refine State.request_skel _ _ _ _ _ _ ?_
  intro t
  split
  · exact State.respond_skel _ _ _ _ _
  · split
    · exact State.respond_skel _ _ _ _ _
    · split
      · exact State.respond_skel _ _ _ _ _
      · exact (State.emit_skel _ _).trans rfl

theorem execSegment_skel (i : Fin 8) (id off : Nat) (data : List Byte) (final : Bool) (us : Fin 20000) (s : State) : Out.is (execSegment i id off data final us s) s.skel := by
  unfold execSegment
  refine ⟨_, rfl, ?_⟩
  (repeat' split) <;> (first | with_reducible rfl | (simp only [skel_mk, pending_skel, part_skel, phase_skel, mode_skel, paused_skel, edge_skel, number_skel, mono_skel, apply_ite State.skel, ite_self, foldl_skel, implies_true, State.atUs_skel, State.sessHeard_skel, State.segment_skel]; done))

theorem execCredit_skel (i : Fin 8) (id off window : Nat) (us : Fin 20000) (s : State) : Out.is (execCredit i id off window us s) s.skel := by
  refine ⟨_, rfl, ?_⟩
  simp only [apply_ite State.skel, ite_self, State.atUs_skel, State.setSess_skel, State.sessHeard_skel]

theorem execKeepalive_skel (i : Fin 8) (us : Fin 20000) (s : State) : Out.is (execKeepalive i us s) s.skel := by
  refine ⟨_, rfl, ?_⟩
  simp only [apply_ite State.skel, ite_self, State.atUs_skel, State.sessHeard_skel]

theorem execSessionIdleTimeout_skel (i : Fin 8) (s : State) : Out.is (execSessionIdleTimeout i s) s.skel := by
  refine ⟨_, rfl, ?_⟩
  simp only [apply_ite State.skel, ite_self, implies_true, State.whenDue_skel, State.sessEnd_skel]

theorem execSessionClose_skel (i : Fin 8) (how : SessLeave) (us : Fin 20000) (s : State) : Out.is (execSessionClose i how us s) s.skel := by
  unfold execSessionClose
  refine ⟨_, rfl, ?_⟩
  (repeat' split) <;> (first | with_reducible rfl | (simp only [skel_mk, pending_skel, part_skel, phase_skel, mode_skel, paused_skel, edge_skel, number_skel, mono_skel, apply_ite State.skel, ite_self, foldl_skel, implies_true, State.atUs_skel, State.emit_skel, State.sessHeard_skel, State.sessEnd_skel]; done))

theorem execResumableExpire_skel (i : Fin 8) (s : State) : Out.is (execResumableExpire i s) s.skel := by
  unfold execResumableExpire
  exact ⟨_, rfl, by simp only [apply_ite State.skel, ite_self, implies_true, State.whenDue_skel, State.sessClear_skel]⟩

theorem execEvrHeadNotify_skel (s : State) : Out.is (execEvrHeadNotify s) s.skel := by
  refine ⟨_, rfl, ?_⟩
  simp only [skel_mk, pending_skel, part_skel, phase_skel, mode_skel, paused_skel, edge_skel, number_skel, mono_skel, apply_ite State.skel, ite_self, implies_true, State.whenDue_skel, State.notifyAll_skel]

theorem execPeerHandshake_skel (p : Fin 8) (serial : Nat) (good : Bool) (us : Fin 20000) (s : State) : Out.is (execPeerHandshake p serial good us s) s.skel := by
  refine ⟨_, rfl, ?_⟩
  simp only [apply_ite State.skel, ite_self, State.atUs_skel, State.peerShake_skel]

theorem execPeerKeepalive_skel (p : Fin 8) (from_ : Bool) (us : Fin 20000) (s : State) : Out.is (execPeerKeepalive p from_ us s) s.skel := by
  unfold execPeerKeepalive
  exact ⟨_, rfl, by simp only [apply_ite State.skel, ite_self, State.atUs_skel, State.peerHeard_skel, State.peerAlive_skel]⟩

theorem execPeerLinkDown_skel (p : Fin 8) (s : State) : Out.is (execPeerLinkDown p s) s.skel := by
  refine ⟨_, rfl, ?_⟩
  simp only [apply_ite State.skel, ite_self, implies_true, State.setBit_skel, State.whenDue_skel, State.setHostPeer_skel, State.setPeer_skel]

theorem execPeerRetry_skel (p : Fin 8) (s : State) : Out.is (execPeerRetry p s) s.skel := by
  refine ⟨_, rfl, ?_⟩
  simp only [apply_ite State.skel, ite_self, implies_true, State.whenDue_skel, State.emit_skel, State.setHostPeer_skel, State.setPeer_skel]

theorem execFpSample_skel (us : Fin 20000) (raw : Fin 32768) (pad : Fin 65536) (s : State) : Out.is (execFpSample us raw pad s) s.skel := by
  refine ⟨_, rfl, ?_⟩
  simp only [apply_ite State.skel, ite_self, State.atUs_skel, State.fpSample_skel]

theorem execKeyStuck_skel (k : Fin 7) (s : State) : Out.is (execKeyStuck k s) s.skel := by
  refine ⟨_, rfl, ?_⟩
  simp only [apply_ite State.skel, ite_self, State.setBit_skel, State.report_skel, State.setRegBit_skel]

theorem execPadHoldComplete_skel (s : State) : Out.is (execPadHoldComplete s) s.skel := by
  refine ⟨_, rfl, ?_⟩
  (repeat' split) <;> (first | with_reducible rfl | (simp only [State.fltAck_skel, State.setFp_skel]; done))

theorem execLampTestEnd_skel (s : State) : Out.is (execLampTestEnd s) s.skel := by
  refine ⟨_, rfl, ?_⟩
  (repeat' split) <;> (first | with_reducible rfl | (simp only [implies_true, State.whenDue_skel, State.setFp_skel]; done))

theorem execDisplayRefresh_skel (us : Fin 20000) (s : State) : Out.is (execDisplayRefresh us s) s.skel := by
  unfold execDisplayRefresh
  exact ⟨_, rfl, by simp only [apply_ite State.skel, ite_self, State.atUs_skel, State.emit_skel, State.draw_skel, State.setFp_skel]⟩

theorem execDisplayBlank_skel (s : State) : Out.is (execDisplayBlank s) s.skel := by
  refine ⟨_, rfl, ?_⟩
  simp only [apply_ite State.skel, ite_self, State.setBit_skel]

theorem execPinLockoutEnd_skel (s : State) : Out.is (execPinLockoutEnd s) s.skel := by
  refine ⟨_, rfl, ?_⟩
  (repeat' split) <;> (first | with_reducible rfl | (simp only [implies_true, State.setBit_skel, State.whenDue_skel, State.setFp_skel]; done))

theorem execFpPinSet_skel (who : Requester) (us : Fin 20000) (v : Word) (s : State) : Out.is (execFpPinSet who us v s) s.skel := by
  refine ⟨_, rfl, ?_⟩
  simp only [State.cmdWrite_skel]

theorem execUsbDetach_skel (cause : Fin 3) (us : Fin 20000) (s : State) : Out.is (execUsbDetach cause us s) s.skel := by
  refine ⟨_, rfl, ?_⟩
  simp only [apply_ite State.skel, ite_self, State.atUs_skel, State.cableEnd_skel]

theorem execFaultServiceTimeout_skel (s : State) : Out.is (execFaultServiceTimeout s) s.skel := by
  refine ⟨_, rfl, ?_⟩
  (repeat' split) <;> (first | with_reducible rfl | (simp only [implies_true, State.whenDue_skel, State.doubleFault_skel]; done))

theorem execAppDomainReset_skel (us : Fin 20000) (s : State) :
    Out.is (execAppDomainReset us s) s.skel ∨
    (s.poweredOn = true ∧ Out.is (execAppDomainReset us s) { s.skel with phase := if s.pwr.paused then .stopped else .emit }) := by
  have key : ∀ t : State, t.skel = s.skel → ∀ (c : Prop) [Decidable c],
      (if c then t.saveAll true else t).appReset.skel = { s.skel with phase := if s.pwr.paused then .stopped else .emit } := by
    intro t ht c _
    have h : (if c then t.saveAll true else t).skel = s.skel := by
      split
      · exact (State.saveAll_skel _ _).trans ht
      · exact ht
    have hp : (if c then t.saveAll true else t).pwr.paused = s.pwr.paused := congrArg Skel.paused h
    rw [State.appReset_skel, h, hp]
  unfold execAppDomainReset
  split
  · rename_i h
    refine .inr ⟨h.1, _, rfl, key _ ?_ _⟩
    rw [State.evrFlush_skel, State.atUs_skel]
  · exact .inl ⟨_, rfl, rfl⟩

theorem execGarnetRebuild_skel (us : Fin 20000) (s : State) : Out.is (execGarnetRebuild us s) s.skel := by
  refine ⟨_, rfl, ?_⟩
  simp only [apply_ite State.skel, ite_self, State.atUs_skel, State.garnetRebuild_skel]

theorem execRodFltAck_skel (who : Requester) (us : Fin 20000) (s : State) : Out.is (execRodFltAck who us s) s.skel := by
  refine ⟨_, rfl, ?_⟩
  simp only [State.cmdWrite_skel]

theorem execRodFltRelease_skel (who : Requester) (us : Fin 20000) (s : State) : Out.is (execRodFltRelease who us s) s.skel := by
  refine ⟨_, rfl, ?_⟩
  simp only [State.cmdWrite_skel]

theorem execRodWatchdog_skel (r : Fin 16) (us : Fin 20000) (s : State) : Out.is (execRodWatchdog r us s) s.skel := by
  refine ⟨_, rfl, ?_⟩
  simp only [apply_ite State.skel, ite_self, State.atUs_skel, State.assertSrc_skel, State.fltRaise_skel, State.rodReset_skel]

theorem execSupplyFault_skel (us : Fin 20000) (rail millivolts : Nat) (s : State) : Out.is (execSupplyFault us rail millivolts s) s.skel := by
  refine ⟨_, rfl, ?_⟩
  simp only [State.atUs_skel, State.fltRaise_skel]

theorem execRadioTimeoutFault_skel (x : Fin 2) (us : Fin 20000) (s : State) : Out.is (execRadioTimeoutFault x us s) s.skel := by
  refine ⟨_, rfl, ?_⟩
  (repeat' split) <;> (first | with_reducible rfl | (simp only [State.atUs_skel, State.trxStop_skel, State.fltRaise_skel]; done))

theorem execNandEccFailure_skel (us : Fin 20000) (block : Nat) (s : State) : Out.is (execNandEccFailure us block s) s.skel := by
  refine ⟨_, rfl, ?_⟩
  simp only [skel_mk, pending_skel, part_skel, phase_skel, mode_skel, paused_skel, edge_skel, number_skel, mono_skel, State.atUs_skel, State.fltRaise_skel]

theorem execIslandCoverChange_skel (removed : Bool) (s : State) : Out.is (execIslandCoverChange removed s) s.skel := by
  refine ⟨_, rfl, ?_⟩
  simp only [skel_mk, pending_skel, part_skel, phase_skel, mode_skel, paused_skel, edge_skel, number_skel, mono_skel, apply_ite State.skel, ite_self, implies_true, State.islLog_skel, State.island_skel]

theorem execJunctionLimit_skel (us : Fin 20000) (above : Bool) (decidegrees : Int) (s : State) : Out.is (execJunctionLimit us above decidegrees s) s.skel := by
  unfold execJunctionLimit
  exact ⟨_, rfl, by simp only [skel_mk, pending_skel, part_skel, phase_skel, mode_skel, paused_skel, edge_skel, number_skel, mono_skel, apply_ite State.skel, ite_self, State.atUs_skel, State.fltRaise_skel, State.noteDrop_skel]⟩

theorem execVbkpValid_skel (s : State) :
    Out.is (execVbkpValid s) s.skel ∨ (s.pwr.mode = .off ∧ Out.is (execVbkpValid s) { s.skel with mode := .backup }) := by
  unfold execVbkpValid
  by_cases h : s.pwr.mode = .off
  · refine .inr ⟨h, _, rfl, ?_⟩
    rw [if_pos h, State.alwaysOnStart_skel]
    exact congrArg (fun k : Skel => { k with mode := PMode.backup })
      ((State.setBit_skel { s with pwr := { s.pwr with vbkp := true } } R.PWR_STAT_VBKP_OK true 0 0).trans rfl)
  · refine .inl ⟨_, rfl, ?_⟩
    rw [if_neg h]
    exact (State.setBit_skel _ _ _ _ _).trans rfl

theorem execFeederFeedbackChange_skel (f : Fin 6) (us : Fin 20000) (closed : Bool) (s : State) : Out.is (execFeederFeedbackChange f us closed s) s.skel := by
  refine ⟨_, rfl, ?_⟩
  simp only [apply_ite State.skel, ite_self, State.atUs_skel, State.setFeeder_skel, State.syncFeedback_skel]

theorem execPulseEdge_skel (k : Fin 2) (us : Fin 20000) (rising : Bool) (s : State) : Out.is (execPulseEdge k us rising s) s.skel := by
  refine ⟨_, rfl, ?_⟩
  simp only [skel_mk, pending_skel, part_skel, phase_skel, mode_skel, paused_skel, edge_skel, number_skel, mono_skel, apply_ite State.skel, ite_self, State.setFld_skel, State.addWrap_skel, State.atUs_skel, State.draw_skel]

theorem execUsbAttach_skel (configured : Bool) (us : Fin 20000) (s : State) : Out.is (execUsbAttach configured us s) s.skel := by
  refine ⟨_, rfl, ?_⟩
  simp only [apply_ite State.skel, ite_self, State.setBit_skel, State.atUs_skel]

theorem execPinEntryTimeout_skel (s : State) : Out.is (execPinEntryTimeout s) s.skel := by
  refine ⟨_, rfl, ?_⟩
  (repeat' split) <;> (first | with_reducible rfl | (simp only [implies_true, State.whenDue_skel, State.serviceEnd_skel]; done))

theorem execBoundLevelApply_skel (s : State) : Out.is (execBoundLevelApply s) s.skel := by
  refine ⟨_, rfl, ?_⟩
  (repeat' split) <;> (first | with_reducible rfl | (simp only [skel_mk, pending_skel, part_skel, phase_skel, mode_skel, paused_skel, edge_skel, number_skel, mono_skel, foldl_skel, implies_true, State.whenDue_skel, State.chanTake_skel]; done))

end Sys2Proof.Machine
end

