-- ==== Sys2Proof/Machine/IsaDecode.lean ====
section
/-! DEFINITION. The instruction that the words of a bead's code spell (03_marric_instruction_set.md R72 to R74 and the group tables):
the rod on which it issues, and what the outside tells of its issue, come beside the words. -/

namespace Sys2Proof.Machine

/-- The operand B of a vector instruction: V[b], or with bit 4 set the scalar S[b[3:0]] in every lane (R72). -/
def vbOf (b : Nat) : VB := if b < 16 then .vec (Fin.ofNat 16 b) else .bcast (Fin.ofNat 16 (b - 16))

/-- The scalar register group, OP 0x01. -/
def scalarOf (r : Fin 16) (fn : Nat) (d a b sh : Fin 32) : Option Instr :=
  match fn with
  | 0x00 => some (.add r d a b)
  | 0x01 => some (.sub r d a b)
  | 0x02 => some (.and r d a b)
  | 0x03 => some (.or r d a b)
  | 0x04 => some (.xor r d a b)
  | 0x05 => some (.shl r d a b sh)
  | 0x06 => some (.shr r d a b sh)
  | 0x07 => some (.sar r d a b sh)
  | 0x08 => some (.min r d a b)
  | 0x09 => some (.max r d a b)
  | 0x0A => some (.adds r d a b)
  | 0x0B => some (.subs r d a b)
  | 0x0C => some (.mulq r d a b sh)
  | 0x0D => some (.macq r d a b sh)
  | 0x0E => some (.divq r d a b sh)
  | 0x0F => some (.abs r d a)
  | 0x10 => some (.clamp r d a b)
  | 0x11 => some (.sel r d a b (Fin.ofNat 16 sh))
  | 0x12 => some (.cmp r a b)
  | 0x13 => some (.mov r d a)
  | _ => none

/-- The vector group, OP 0x20: FN[3:0] names the operation, FN[5:4] the mask. -/
def vectorOf (r : Fin 16) (fn d a b : Nat) (sh : Fin 32) : Option Instr :=
  let k := Fin.ofNat 4 (fn / 16)
  let vd := Fin.ofNat 16 d
  let va := Fin.ofNat 16 a
  let o := vbOf b
  match fn % 16 with
  | 0x0 => some (.vadd r vd va o k (decide (sh.val = 1)))
  | 0x1 => some (.vsub r vd va o k (decide (sh.val = 1)))
  | 0x2 => some (.vmulq r vd va o k sh)
  | 0x3 => some (.vmacq r vd va o k sh)
  | 0x4 => some (.vmin r vd va o k)
  | 0x5 => some (.vmax r vd va o k)
  | 0x6 => some (.vclamp r vd va o k)
  | 0x7 => some (.vsel r vd va o k)
  | 0x8 => some (.vcmp r (Fin.ofNat 4 d) va o k (Fin.ofNat 8 sh))
  | 0x9 => (match b with
    | 0 => some (.vredSum r (Fin.ofNat 32 d) va k sh)
    | 1 => some (.vredMin r (Fin.ofNat 32 d) va k)
    | 2 => some (.vredMax r (Fin.ofNat 32 d) va k)
    | _ => none)
  | _ => none

/-- The immediate forms, loads, stores, ports and lantern sets, OP 0x02 to 0x1B. -/
def immediateOf (r : Fin 16) (op w w2 : Nat) : Option Instr :=
  let d := Fin.ofNat 32 (wbits w 21 5)
  let a := Fin.ofNat 32 (wbits w 16 5)
  let b := Fin.ofNat 32 (wbits w 11 5)
  let m := Fin.ofNat 4 (wbits w 14 2)
  let imm := BitVec.ofNat 14 w
  let imm16 := BitVec.ofNat 16 w
  let n := Fin.ofNat 32 (w % 32)
  let vd := Fin.ofNat 16 d
  let va := Fin.ofNat 16 a
  match op with
  | 0x02 => some (.addi r d a imm)
  | 0x03 => some (.andi r d a imm16)
  | 0x04 => some (.ori r d a imm16)
  | 0x05 => some (.xori r d a imm16)
  | 0x06 => (match m.val with
    | 0 => some (.shli r d a n)
    | 1 => some (.shri r d a n)
    | _ => some (.sari r d a n))
  | 0x07 => some (.cmpi r a imm)
  | 0x08 => some (.liShort r d imm16)
  | 0x09 => some (.lui r d imm16)
  | 0x0A => some (.liLong r d (BitVec.ofNat 32 w2))
  | 0x0B => some (.tli r d a b)
  | 0x10 => some (.ldf r d a m imm)
  | 0x11 => some (.stf r d a m imm)
  | 0x12 => some (.ldi r d a m imm)
  | 0x13 => some (.sti r d a m imm)
  | 0x14 => some (.portrd r d a imm)
  | 0x15 => some (.portwr r d a imm)
  | 0x18 => some (.lset r (Fin.ofNat 2 d) (Fin.ofNat 6 (w % 16)) a (wbits w 4 1 == 1) (BitVec.ofNat 32 w2))
  | 0x19 => some (.lnext r vd m (Fin.ofNat 2 a))
  | 0x1A => some (.ltg r vd va m (Fin.ofNat 128 w) (Fin.ofNat 4 (wbits w 7 2)) (wbits w 9 1 == 1))
  | 0x1B => some (.lts r vd va m (Fin.ofNat 128 w) (Fin.ofNat 4 (wbits w 7 2)))
  | _ => none

/-- Time, flow and outputs, OP 0x28 to 0x34; `us` is the time in the frame that TIME kind 5 reads. -/
def outputOf (r : Fin 16) (us : Fin 20000) (op w w2 : Nat) : Option Instr :=
  let d := Fin.ofNat 32 (wbits w 21 5)
  let a := Fin.ofNat 32 (wbits w 16 5)
  let b := Fin.ofNat 32 (wbits w 11 5)
  let m := Fin.ofNat 4 (wbits w 14 2)
  let vd := Fin.ofNat 16 d
  let va := Fin.ofNat 16 a
  match op with
  | 0x28 => some (.time r d (Fin.ofNat 7 (w % 8)) us)
  | 0x29 => some (if w % 2048 = 0 then .calFields r d a else .calDue r d a (BitVec.ofNat 32 w2))
  | 0x2A => some (.sun r d)
  | 0x2B => some (.sunev r d a (wbits w 0 1 == 1))
  | 0x2C => some (.flowrd r vd va m (Fin.ofNat 4 w))
  | 0x2D => some (.flowdet r a b)
  | 0x30 => some (.lvl r va (vbOf b) (Fin.ofNat 4 w))
  | 0x31 => some (.tlb r a (BitVec.ofNat 14 w))
  | 0x32 => some (.post r d a (Fin.ofNat 16 b) (BitVec.ofNat 8 w2) (Fin.ofNat 64 (wbits w2 8 6)))
  | 0x33 => some (.drvset r a b)
  | 0x34 => some (.tally r d a b)
  | _ => none

/-- Control flow, OP 0x38 to 0x3E; `ev` is what happens while an EOI's chained entry runs. -/
def controlOf (r : Fin 16) (ev : EntryEvent) (op w : Nat) : Option Instr :=
  let a := Fin.ofNat 32 (wbits w 16 5)
  let off := BitVec.ofNat 16 w
  match op with
  | 0x38 => some (.br r off)
  | 0x39 => some (.brc r (Fin.ofNat 16 (wbits w 16 4)) off)
  | 0x3A => some (.loop r (Fin.ofNat 32 (wbits w 21 5)) (BitVec.ofNat 12 (wbits w 9 12)) (BitVec.ofNat 9 w))
  | 0x3B => some (.call r off)
  | 0x3C => (match w % 64 with
    | 0 => some (.nop r)
    | 1 => some (.ret r)
    | 2 => some (.evwait r)
    | 3 => some (.eoi (Fin.ofNat 18 r) ev)
    | _ => some (.halt r))
  | 0x3D => some (.raise r a (BitVec.ofNat 6 w))
  | _ => some (.fault r (BitVec.ofNat 14 w))

/-- The instruction that `w` and the word after it spell on rod `r`; none when the word breaks R73. -/
def marricInstr (r : Fin 16) (us : Fin 20000) (ev : EntryEvent) (w w2 : Nat) : Option Instr :=
  let op := wbits w 26 6
  match vOp w w2 with
  | none => none
  | some _ =>
    if op = 0x01 then
      scalarOf r (w % 64) (Fin.ofNat 32 (wbits w 21 5)) (Fin.ofNat 32 (wbits w 16 5)) (Fin.ofNat 32 (wbits w 11 5))
        (Fin.ofNat 32 (wbits w 6 5))
    else if op = 0x20 then
      vectorOf r (w % 64) (wbits w 21 5) (wbits w 16 5) (wbits w 11 5) (Fin.ofNat 32 (wbits w 6 5))
    else if op < 0x20 then immediateOf r op w w2
    else if op < 0x38 then outputOf r us op w w2
    else controlOf r ev op w

end Sys2Proof.Machine
end

