-- ==== Sys2Proof/Tests/Slice0.lean ====
section
/-! SUPPORT. Tests: states and operands that meet the hypotheses of each statement, ill-formed commands that WellFormed refuses, and
examples that the spec works out. The states are made by the helpers below. -/

namespace Sys2Proof.Tests

open Machine Claims

set_option Elab.async false

/-- The main domain in QUARTZ, every function ready, in phase EMIT of frame 85,000,000,000. -/
def up : State := { State.reset with
  regs := [(4, 0x3FFFF)]
  fr := { State.reset.fr with phase := .emit, number := 85000000000, edgeNs := 1700000000000000000, nowUs := 500 }
  pwr := { State.reset.pwr with mode := .on, vaux := true } }

/-- BEAD[3] of image slot 0 runs on ROD[0], within its budget. -/
def running (b : Bead) : State :=
  (((up.setBit R.ROD_CUR_IDLE false 0).setFld R.ROD_CUR_SLOT 3 0).setFld R.ROD_BEAD_BUDGET_BUDGET 100000 3).setBead 3 b

/-- An image with its own regions and grants of every kind. -/
def image : Image := { mpi := { fBase := 0x300000, fSize := 64, iBase := 0x100, iSize := 64, constBase := 0x1000000, constSize := 256
                                grants := [⟨2, 3, 0x20, 0x3F⟩, ⟨3, 2, 0, 9⟩, ⟨4, 0, 1, 0⟩, ⟨5, 3, 0x40100, 0x40100⟩, ⟨6, 0, 1, 0⟩] } }

def runningI (b : Bead) : State := { running b with images := [(0, image)] }

/-! ### Instructions -/

theorem test_wit_issues : Issues (running {}) 0 3 := by repeat' apply And.intro
                                                        all_goals decide +kernel

theorem test_wit_divq_zero : Issues (running { s := [(1, 5)] }) 0 3 ∧ ((running { s := [(1, 5)] }).bead 3).rs 2 = 0 := by
  repeat' apply And.intro
  all_goals decide +kernel

theorem test_wit_vcmp : Issues (running {}) 0 3 ∧ (1 : Fin 4).val ≠ 0 := by
  repeat' apply And.intro
  all_goals decide +kernel

theorem test_wit_loads :
    let s := runningI { s := [(1, 0x300000), (2, 0x1000000), (3, 0x100)] }
    Issues s 0 3 ∧ ((3 : Fin 4).val = 3 → (15 : Fin 32).val < 16) ∧ (0x300000 : Nat) % accessBytes 3 = 0
      ∧ ((s.bead 3).rs 1 + (0 : BitVec 14).signExtend 32).toNat = 0x300000
      ∧ s.mayLoad (s.mpi (s.bead 3)) 0x300000 (accessBytes 3) = true
      ∧ (mayI (s.mpi (s.bead 3)) 0x1000000 (accessBytes 3) || inConst (s.mpi (s.bead 3)) 0x1000000 (accessBytes 3)) = true
      ∧ s.mayStore (s.mpi (s.bead 3)) 0x300000 (accessBytes 3) = true ∧ s.poolUsed + 16 ≤ 262144
      ∧ mayI (s.mpi (s.bead 3)) 0x100 (accessBytes 3) = true := by
  repeat' apply And.intro
  all_goals decide +kernel

theorem test_wit_lane_fields :
    let s := runningI {}
    Issues s 0 3 ∧ (2 : Fin 4).val ≠ 3 ∧ (0x3C : Fin 128).val % 2 ^ (2 : Fin 4).val = 0
      ∧ (∀ i : Fin 4, (s.mpi (s.bead 3)).granted 2 0 (0x3C + i) = true)
      ∧ (∀ i : Fin 4, (s.mpi (s.bead 3)).granted 2 1 (0x3C + i) = true ∧ 32 ≤ 0x3C + i.val ∧ 0x3C + i.val < 64)
      ∧ s.poolUsed + 16 ≤ 262144 := by
  repeat' apply And.intro
  all_goals decide +kernel

theorem test_wit_lset : Issues (running {}) 0 3 ∧ Instr.wordOk (.lset 0 0 4 0 true 0x3FFF0000) = true
    ∧ Instr.wordOk (.lset 0 1 1 30 false 0) = true ∧ SMap.wf State.fDflt [(2, 3), (0x282, 1)] = true ∧ 16384 ≤ 16384 := by
  repeat' apply And.intro
  all_goals decide +kernel

theorem test_wit_lnext : Issues (running {}) 0 3 ∧ (3 : Fin 4).val ≠ 0 := by
  repeat' apply And.intro
  all_goals decide +kernel

/-- The curve of 03 R85 at the start of C: N = 17, XS = 12, x0 = 0, y[9] = 30,000 and y[10] = 36,000. -/
def curve : State := { runningI { s := [(1, 40000), (2, 0x1000000)] } with
  cmem := [(0x1000000, 17), (0x1000001, 12), (0x100002C, 0x30), (0x100002D, 0x75), (0x1000030, 0xA0), (0x1000031, 0x8C)] }

theorem test_wit_tli_issue : Issues curve 0 3 := by repeat' apply And.intro
                                                    all_goals decide +kernel

theorem test_wit_tli_table : ((curve.bead 3).rs 2).toNat = 0x1000000
    ∧ littleEndian (fun q => (SMap.find 0 curve.cmem q).toNat) 0x1000000 4 = 17 + 12 * 256
    ∧ inConst (curve.mpi (curve.bead 3)) 0x1000000 4 = true
    ∧ inConst (curve.mpi (curve.bead 3)) 0x1000000 (4 * (17 + 2)) = true := by
  repeat' apply And.intro
  all_goals decide +kernel

theorem test_wit_cal : Issues (running {}) 0 3 ∧ 1 ≤ (30 : Fin 32).val ∧ (30 : Fin 32).val ≤ 30
    ∧ (0x80000BB8 : Word).toNat / 4096 % 524288 = 0 := by
  repeat' apply And.intro
  all_goals decide +kernel

theorem test_wit_logged : Issues (runningI {}) 0 3 ∧ (runningI {}).poolUsed + 16 ≤ 262144 ∧ (56 : Fin 64).val ≤ 56 := by
  repeat' apply And.intro
  all_goals decide +kernel

/-- 03 R93 at the ends of its cases: LID 16,383 with the largest speed, class 3, direction 3, a speed beyond the range. -/
theorem test_wit_flowdet : ¬ ((16383 : Nat) / 16384 % 4 = 3 ∨ 16383 / 65536 % 4 = 3) ∧ ¬ (up.part.lanterns ≤ 16383 % 16384 ∨ 65535 < 65535)
    ∧ ((3 * 16384 : Nat) / 16384 % 4 = 3) ∧ ((3 * 65536 : Nat) / 65536 % 4 = 3) ∧ (up.part.lanterns ≤ 0 ∨ 65535 < 65536)
    ∧ up.ready 9 = true ∧ ({ up with regs := [] } : State).ready 9 = false := by
  repeat' apply And.intro
  all_goals decide +kernel

theorem test_wit_ports :
    let s := runningI {}
    let m := s.mpi (s.bead 3)
    isRegister 0x60002 = false ∧ (isRegister 0x60000 = true ∧ ¬ (portForbidden 0x60000 = false ∧ m.port 0x60000 false = true))
      ∧ (isRegister 0x40100 = true ∧ ¬ (programMayWrite 0x30000 = true ∧ m.port 0x30000 true = true))
      ∧ (isRegister 0x40100 = true ∧ portForbidden 0x40100 = false ∧ m.port 0x40100 false = true)
      ∧ (isRegister 0x20000 = true ∧ portForbidden 0x20000 = false) := by
  repeat' apply And.intro
  all_goals decide +kernel

theorem test_wit_post_tests :
    let s := runningI {}
    (s.part.lanterns ≤ 16384) ∧ ((16383 : Nat) < s.part.lanterns ∧ (s.mpi (s.bead 3)).lantern 16383 = false)
      ∧ ((9 : Nat) < s.part.lanterns ∧ (s.mpi (s.bead 3)).lantern 9 = true ∧ recComm s.seenF 9 = false)
      ∧ (s.part.chans ≤ 24) ∧ ((23 : Nat) < s.part.chans ∧ (s.mpi (s.bead 3)).channel 23 = false)
      ∧ ((0 : Nat) < s.part.chans ∧ (s.mpi (s.bead 3)).channel 0 = true) ∧ s.ready 3 = true ∧ ({ s with regs := [] } : State).ready 3 = false
      ∧ s.bit R.PWR_TALLY_STAT_READY = false ∧ (s.setBit R.PWR_TALLY_STAT_READY true).bit R.PWR_TALLY_STAT_READY = true := by
  repeat' apply And.intro
  all_goals decide +kernel

theorem test_wit_post_commissioned :
    let s : State := { runningI {} with fmem := [(2, 0x80), (128 * 9 + 2, 0x80), (128 * 9 + 3, 0xFF)] }
    recComm (SMap.set 0 [] (128 * 9 + 1) 0x40) 9 = true ∧ (s.mpi (s.bead 3)).lantern 9 = true := by
  repeat' apply And.intro
  all_goals decide +kernel

theorem test_wit_branch : Issues (running { calls := [7] }) 0 3 ∧ (1 : BitVec 16) ≠ 0 ∧ (1 : BitVec 9) ≠ 0
    ∧ ((running { calls := [7] }).bead 3).calls = 7 :: [] := by
  repeat' apply And.intro
  all_goals decide +kernel

theorem test_wit_loop_end :
    let s := running { pc := 4, loops := [⟨2, 1, 5, 0⟩] }
    Issues s 0 3 ∧ (s.bead 3).loops = (⟨2, 1, 5, 0⟩ : LoopCtx) :: [] ∧ (⟨2, 1, 5, 0⟩ : LoopCtx).stop = (s.bead 3).pc + 1
      ∧ (⟨2, 1, 5, 0⟩ : LoopCtx).depth = (s.bead 3).calls.length := by
  repeat' apply And.intro
  all_goals decide +kernel

/-- The budget of 100,000 is just reached by one cycle, by two, and passed. -/
theorem test_wit_pass_end : Issues (running { cycles := 99999 }) 0 3 ∧ Issues (running { cycles := 99998 }) 0 3 ∧ Issues (running { cycles := 100000 }) 0 3
    ∧ (running {}).fld R.ROD_BEAD_BUDGET_BUDGET 3 = 100000 ∧ ((running {}).target 0).svc = none ∧ ((running {}).bead 3).calls = [] := by
  repeat' apply And.intro
  all_goals decide +kernel

/-- A claim of SRC[200] is in service on target t, with 15 to restore. -/
def claimed (t : Nat) : State :=
  let s := running {}
  ((s.setRod 0 { s.rod 0 with handler := some 3 }).setClaim t (BitVec.ofNat 32 (200 + 15 * 4096 + 2 ^ 17))).setTarget t { s.target t with svc := some 15 }

theorem test_wit_eoi : ((claimed 0).target 0).svc = some 15 ∧ (∀ q : Fin 256, (claimed 0).fld R.ICU_SRC_CFG_PRIO q ≤ 15)
    ∧ ((claimed 0).claim 0).getLsbD 16 = false ∧ (claimed 0).curBead 0 = some 3
    ∧ ((claimed 0).bead 3).cycles + 5 ≤ (claimed 0).fld R.ROD_BEAD_BUDGET_BUDGET 3
    ∧ ((claimed 0).rod 0).handler = some (3 % 64) ∧ ((claimed 16).target 16).svc = some 15 := by
  repeat' apply And.intro
  all_goals decide +kernel

theorem test_wit_faulting :
    let s := runningI { s := [(1, 0x200000), (2, 0x300040)] }
    let m := s.mpi (s.bead 3)
    Issues s 0 3 ∧ (1 : Fin 32).val ≠ 0 ∧ 56 < (57 : Fin 64).val ∧ 16 ≤ (16 : Fin 32).val ∧ (0x200001 : Nat) % accessBytes 1 ≠ 0
      ∧ s.mayLoad m 0x300040 (accessBytes 3) = false ∧ s.mayStore m 0x300040 (accessBytes 0) = false
      ∧ (mayI m 0x140 (accessBytes 2) || inConst m 0x140 (accessBytes 2)) = false ∧ mayI m 0xFC (accessBytes 2) = false := by
  repeat' apply And.intro
  all_goals decide +kernel

theorem test_wit_no_issue : up.curBead 1 = none ∧ (running { cycles := 100001 }).curBead 0 = some 3
    ∧ (running { cycles := 100001 }).fld R.ROD_BEAD_BUDGET_BUDGET 3 < ((running { cycles := 100001 }).bead 3).cycles := by
  repeat' apply And.intro
  all_goals decide +kernel

/-- 03 R85's worked example: a = 40,000 gives 34,593. -/
theorem test_tli_example : ((match exec (.tli 0 3 1 2) curve with | .next t => (t.bead 3).rs 3 | _ => 0) : Word) = 34593 := by
  decide +kernel

/-! ### Power, frames, beads, registers, sources -/

/-- The same with no function ready. -/
def cold : State := { up with regs := [] }

def inOnyx (task : Option Nat) : State :=
  { up with pwr := { up.pwr with mode := .onyx, vaux := false, task := task }, fr := { up.fr with phase := .stopped } }

def inPhase (p : Phase) : State := { running {} with fr := { up.fr with phase := p } }

theorem test_wit_power_states : State.reset.pwr.mode = .off ∧ ((inOnyx none).pwr.mode = .onyx ∧ (inOnyx none).pwr.task = none)
    ∧ ((inOnyx (some 1)).pwr.mode = .onyx ∧ (inOnyx (some 1)).pwr.task ≠ none ∧ (inOnyx (some 1)).pwr.warmWait = false)
    ∧ (cold.pwr.mode = .on ∧ cold.pwr.paused = false ∧ cold.flt.step = 0 ∧ ∀ n : Fin 18, cold.ready n = false)
    ∧ ({ cold with drv := { cold.drv with storeRead := true } } : State).drv.storeRead = true ∧ 2 ≤ cold.part.trxs
    ∧ cold.bit R.PWR_STAT_STATE = false ∧ ({ up with pwr := { up.pwr with mode := .backup } } : State).pwr.mode = .backup := by
  repeat' apply And.intro
  all_goals decide +kernel

/-- VAUX is back while task 1 runs, and no other task has its energy. -/
theorem test_wit_warm_start :
    let s : State := { inOnyx (some 1) with pwr := { (inOnyx (some 1)).pwr with warmWait := true } }
    s.pwr.mode = .onyx ∧ s.pwr.task = some 1 ∧ s.pwr.warmWait = true ∧ firstTask s 1 49 = none ∧ firstTask s 1 50 = some 3
      ∧ firstTask (inOnyx (some 2)) 1 150 = some 2 := by
  repeat' apply And.intro
  all_goals decide +kernel

theorem test_wit_supply : (249 : Nat) < 250 ∧ (249 : Nat) < 260 ∧ (250 ≤ (249 : Nat) ∨ (249 : Nat) ≤ 249) ∧ up.pwr.mode = .on ∧ up.pwr.mode ≠ .off ∧ State.reset.pwr.mode = .off
    ∧ (inOnyx none).pwr.mode = .onyx ∧ (up.setBit R.LTAB_STAT_RESTORED true).bit R.LTAB_STAT_RESTORED = true
    ∧ WriteAccepted up .sup 900 R.PWR_REQ_AGATE.addr 1 ∧ WriteAccepted up .panel 19999 R.PWR_REQ_AGATE.addr 0 := by
  repeat' apply And.intro
  all_goals decide +kernel

theorem test_wit_frame_edge : up.pwr.mode = .on ∧ up.pwr.paused = false ∧ up.fr.phase = .emit ∧ up.halted = false ∧ up.stepDue = none := by
  repeat' apply And.intro
  all_goals decide +kernel

/-- Rod 0 idle in SNAP with beads 7 and 63 selected. -/
def selecting : State := ({ up with fr := { up.fr with phase := .snap } }).setRod 0 { up.rod 0 with select := [7, 63] }

theorem test_wit_exec_start : selecting.fr.phase = .snap ∧ selecting.halted = false ∧ selecting.curSlot 0 = none
    ∧ (selecting.rod 0).stalled = false ∧ selecting.rodRuns 0 = true ∧ (selecting.rod 0).waiting = [] ∧ (selecting.rod 0).select = 7 :: [63] := by
  repeat' apply And.intro
  all_goals decide +kernel

/-- Bead 9 of rod 0 waits for the port. -/
def waiting : State := (inPhase .exec).setRod 0 { (inPhase .exec).rod 0 with waiting := [(9, false)] }

theorem test_wit_port : waiting.fr.phase ≠ .stopped ∧ (waiting.rod 0).stalled = false
    ∧ ((serveOne waiting.fr.compat waiting.port waiting.portLeaves).2.map (·.path)) = some [0, 9] := by
  repeat' apply And.intro
  all_goals decide +kernel

/-- EXEC over, two passes in the bar queue. -/
def barDue : State := { inPhase .exec with bar := { State.reset.bar with queue := [⟨5, 3, [(256, 77)], [], 2⟩, ⟨3, 3, [(256, 9)], [], 1⟩] } }

theorem test_wit_bar : barDue.fr.phase = .exec ∧ barDue.halted = false ∧ barDue.bar.host = [] ∧ barDue.bar.queue.all portless = true
    ∧ barDue.beads.all (fun e => decide (barDue.beadState e.1 ≠ 2)) = true
    ∧ (inPhase .bar).fr.phase = .bar ∧ (inPhase .bar).bar.overrun = false ∧ (inPhase .bar).pwr.mode ≠ .onyx ∧ (inPhase .bar).flt.cur = none := by
  repeat' apply And.intro
  all_goals decide +kernel

/-- BEAD[1023] VALID in the given state with a budget of 4 and 5 cycles used. -/
def bead1023 (st : Nat) : State :=
  ((((inPhase .exec).setBit R.ROD_BEAD_STATE_VALID true 1023).setFld R.ROD_BEAD_STATE_STATE st 1023).setFld R.ROD_BEAD_BUDGET_BUDGET 4 1023).setBead 1023
    { cycles := 5 }

theorem test_wit_bead_requests : WriteAccepted (bead1023 0) .sup 0 (0x31014 + 32 * 1023) 1 ∧ WriteAccepted (bead1023 3) .sup 0 (0x31014 + 32 * 1023) 2
    ∧ WriteAccepted (bead1023 6) .panel 0 (0x31014 + 32 * 1023) 4 ∧ (bead1023 0).beadValid 1023 = true ∧ (bead1023 0).beadState 1023 = 0
    ∧ (bead1023 3).beadState 1023 = 3 ∧ (bead1023 4).beadState 1023 = 4 ∧ (bead1023 6).beadState 1023 = 6 ∧ up.beadValid 1023 = false := by
  repeat' apply And.intro
  all_goals decide +kernel

theorem test_wit_admit_limit : WriteAccepted up .sup 0 0x30000 90 ∧ (∀ r : Fin 16, up.fld R.ROD_LOAD_CYCLES r ≤ 7800000 * ((90 : Word).toNat % 128) / 100) := by
  repeat' apply And.intro
  all_goals decide +kernel

theorem test_wit_bead_faults : (bead1023 2).fr.phase ≠ .stopped ∧ (bead1023 2).beadValid 1023 = true ∧ (bead1023 2).beadState 1023 = 2
    ∧ (bead1023 2).fld R.ROD_BEAD_BUDGET_BUDGET 1023 < ((bead1023 2).bead 1023).cycles ∧ (bead1023 2).replayAllowed 1023 = true
    ∧ (bead1023 2).rodClocked 15 = true ∧ (bead1023 2).ready 8 = true ∧ (bead1023 2).flt.step = 0 := by
  repeat' apply And.intro
  all_goals decide +kernel

theorem test_wit_register_write : WriteAccepted up .sup 900 0xA0000 1 ∧ (up.atUs 900).unitWrite .sup 0xA0000 1 = none
    ∧ (findReg 0xA0000).isSome = true ∧ State.classAReg 0xA0000 = false
    ∧ up.asks .sup = true ∧ (up.atUs 900).writeStatus .sup 0x3 0 ≠ .ok ∧ (up.atUs 900).writeStatus .sup 0x3 0 ≠ .auth := by
  repeat' apply And.intro
  all_goals decide +kernel

theorem test_wit_register_read : ReadAccepted up .sup 900 R.NTU_TIME_S_LO_S.addr ∧ ReadAccepted up .panel 900 R.RTC_DATE_DAY.addr
    ∧ ReadAccepted up .sup 900 R.MET_TIME_LO_S.addr ∧ State.latches R.MET_TIME_LO_S.addr ≠ [] ∧ WriteAccepted up .sup 0 0xD0208 0x10003 := by
  repeat' apply And.intro
  all_goals decide +kernel

/-- SRC[200] of priority 15 waits for target t; rod targets have its bead in slot 63 WAITING. -/
def asserted (t : Fin 18) : State :=
  let s := ((inPhase .exec).setBit R.ROD_CUR_IDLE true 0).assertSrc 200
  let s := (((s.setFld R.ICU_SRC_CFG_PRIO 15 200).setFld R.ICU_SRC_CFG_TARGET t 200).setBit R.ICU_SRC_CFG_BOUND true 200).setFld R.ICU_SRC_CFG_SLOT 63 200
  let s := (s.setBit R.ROD_BEAD_STATE_VALID true (64 * t + 63)).setFld R.ROD_BEAD_STATE_STATE 3 (64 * t + 63)
  ((s.setFld R.ROD_BEAD_BUDGET_BUDGET 100 (64 * t + 63)).setBead (64 * t + 63) { act := 1 }).setRod t { s.rod t with remain := 1000 }

theorem test_wit_dispatch : up.part.hasTarget 17 = true ∧ (up.atUs 0).nextSource 17 ((up.atUs 0).rp 17) = none
    ∧ ((asserted 0).atUs 900).nextSource 0 (((asserted 0).atUs 900).rp 0) = some 200
    ∧ ((asserted 16).atUs 900).nextSource 16 (((asserted 16).atUs 900).rp 16) = some 200 := by
  repeat' apply And.intro
  all_goals decide +kernel

theorem test_wit_moderation : (up.setTarget 0 { up.target 0 with timerNs := up.nowNs + 1 }).nowNs
    < ((up.setTarget 0 { up.target 0 with timerNs := up.nowNs + 1 }).target 0).timerNs := by decide +kernel

theorem test_wit_source_writes : WriteAccepted up .sup 900 (0x20008 + 4) 0xFFFFFFFF ∧ WriteAccepted up .sup 900 (0x21000 + 16 * 255) 0x10F
    ∧ up.legalTarget 31 = true ∧ up.legalTarget 18 = false ∧ WriteAccepted up .sup 900 (0x21000 + 16 * 1) 0x100 := by
  repeat' apply And.intro
  all_goals decide +kernel

theorem test_wit_raise : Issues (runningI { s := [(1, 0x100 + 63)] }) 0 3 ∧ (1 : Fin 32).val ≠ 0
    ∧ ((runningI {}).mpi ((runningI {}).bead 3)).raise 63 = false := by
  repeat' apply And.intro
  all_goals decide +kernel

/-! ### Images, flow, segment -/

/-- Session 7 open as OPERATOR at version 4 with every feature. -/
def sess7 : State :=
  (((((running {}).setBit R.LTAB_STAT_RESTORED true).setFld R.HOST_SESS_STATE 2 7).setFld R.HOST_SESS_ROLE 3 7).setFld R.HOST_SESS_VERSION 4 7).setFld
    R.HOST_SESS_FEATURES 0x3F 7

/-- The register of LATE_DROP counts of SRC[255], and one whose write can end the condition of SRC[67]. -/
theorem test_wit_register_effects : ReadAccepted sess7 (.gsp 7) 900 (0x21008 + 16 * 255) ∧ State.latches (0x21008 + 16 * 255) = []
    ∧ (findReg (0x21008 + 16 * 255)).any (fun x => x.1.has .rclr) = true
    ∧ State.regSource R.RAD_LINK_EVT_DROP.addr = some 67 ∧ WriteAccepted up .sup 900 R.RAD_LINK_EVT_DROP.addr 1
    ∧ (up.atUs 900).unitWrite .sup R.RAD_LINK_EVT_DROP.addr 1 = none ∧ (findReg R.RAD_LINK_EVT_DROP.addr).isSome = true
    ∧ State.classAReg R.RAD_LINK_EVT_DROP.addr = false ∧ State.regSource 0xA0000 = none := by
  repeat' apply And.intro
  all_goals decide +kernel

theorem test_wit_image_load : Fresh sess7 7 0 3 false ∧ sess7.sessFeature 7 0 = true ∧ sess7.bit R.LTAB_STAT_RESTORED = true
    ∧ sess7.imgOfRequest 7 0 = none ∧ sess7.freeSlot = some 0
    ∧ ((List.range 64).foldl (fun t i => t.setFld R.LTAB_IMG_STATE 3 i) sess7).freeSlot = none := by
  repeat' apply And.intro
  all_goals decide +kernel

/-- The smallest image: one ONESHOT bead whose code is HALT, no tables but its own; its signature section is a COSE_Sign1 with ES256, no payload and a
signature of 64 zeros. -/
def tiny : List Byte := (List.range 266).map (fun i => SMap.find 0 [(0, 0x4D), (1, 0x50), (2, 0x49), (4, 1), (5, 1), (6, 1), (8, 0x41), (0x1C, 1), (0x24, 0x80),
  (0x28, 1), (0x2C, 0xC0), (0x37, 1), (0x3A, 0x30), (0x48, 0xC0), (0x4C, 0x0A), (0x4D, 1), (0x60, 2), (0x61, 0xFF), (0x62, 0xFF), (0x70, 1), (0x74, 100), (0x80, 4),
  (0x83, 0xF0), (0xC0, 0xD2), (0xC1, 0x84), (0xC2, 0x43), (0xC3, 0xA1), (0xC4, 1), (0xC5, 0x26), (0xC6, 0xA0), (0xC7, 0xF6), (0xC8, 0x58), (0xC9, 0x40)] i)

/-- OWNER_CA is loaded and slot 63 holds the image in the given state. -/
def held (st : Nat) : State :=
  let s := (sess7.setImage 63 { bytes := tiny, mpi := mpiOf tiny, stored := decide (st ≠ 2) }).setKeySlot 2 { mat := some [7] }
  (((s.setFld R.KEY_SLOT_STAT_STATE 1 2).setFld R.KEY_SLOT_CFG_TYPE 2 2).setFld R.KEY_SLOT_CFG_USAGE 127 2).setFld R.LTAB_IMG_STATE st 63

theorem test_tiny_image : fmtOk tiny = true ∧ coseSign1 (tiny.drop (mpiOf tiny).sigOff) = true ∧ coseSign1 [] = false ∧ sizeOk tiny (mpiOf tiny) = true ∧ levelOk tiny (mpiOf tiny) = true
    ∧ checkProgram up.part tiny (mpiOf tiny) = none := by
  repeat' apply And.intro
  all_goals decide +kernel

theorem test_wit_image_verify (store : 266 ≤ Config.programStore)
    (sig : Config.sigValid [7] (tiny.take (mpiOf tiny).sigOff) (tiny.drop (mpiOf tiny).sigOff) = true) :
    (held 2).imgState 63 = 2 ∧ (held 2).pwr.mode = .on ∧ (held 2).checkImage 63 false = none ∧ (held 4).checkImage 63 true = none
      ∧ (sess7.setImage 63 {}).checkImage 63 false = some (.invalid, 1) := by
  have form (st : Nat) (b : ((held st).image 63).bytes = tiny) (k : (held st).keyUse 2 1 = (.ok, [7])) :
      (held st).checkForm ((held st).image 63).bytes = none := by
    rw [b]
    simp only [State.checkForm, State.keyVerify, k, sig, test_tiny_image.1, test_tiny_image.2.1, test_tiny_image.2.2.2.1, test_tiny_image.2.2.2.2.1]
    rfl
  have used : (held 2).storeUsed + ((held 2).image 63).bytes.length ≤ 266 := by decide +kernel
  refine ⟨by decide +kernel, rfl, ?_, ?_, by decide +kernel⟩
  · have p : checkProgram (held 2).part ((held 2).image 63).bytes (mpiOf ((held 2).image 63).bytes) = none := by decide +kernel
    simp only [State.checkImage, form 2 (by decide +kernel) (by decide +kernel), p]
    rw [if_neg (by decide +kernel), if_neg (by simp; omega)]
    decide +kernel
  · have p : checkProgram (held 4).part ((held 4).image 63).bytes (mpiOf ((held 4).image 63).bytes) = none := by decide +kernel
    simp only [State.checkImage, form 4 (by decide +kernel) (by decide +kernel), p]
    decide +kernel

/-- Image slot 63 ACTIVE with its bead 0 in the given state, bound to source 255. -/
def active (st : Nat) : State :=
  (((held 5).setImage 63 { mpi := { subs := [⟨255, 15, 0, 0⟩] }, placed := [(0, 1023)] }).setBit R.ROD_BEAD_STATE_VALID true 1023).setFld
    R.ROD_BEAD_STATE_STATE st 1023

theorem test_wit_image_control :
    WriteAccepted (held 3) .sup 900 0x50020 (BitVec.ofNat 32 (63 + 0x100)) ∧ WriteAccepted (held 3) .sup 900 0x50020 (BitVec.ofNat 32 (63 + 0x200))
    ∧ WriteAccepted (held 3) (.gsp 7) 900 0x50020 (BitVec.ofNat 32 (63 + 0x300)) ∧ (held 3).imgState 63 = 3 ∧ (held 3).ready 8 = true
    ∧ (held 6).imgState 63 = 6 ∧ (held 0).imgState 63 = 0 ∧ (match (held 3).checkPlace 63 with | .ok ps => ps.length | .error _ => 0) = 1
    ∧ (match ({ held 3 with fr := { (held 3).fr with limitPct := 0 } } : State).checkPlace 63 with | .ok _ => 0 | .error e => e.2) = 18
    ∧ (active 3).imgState 63 = 5 ∧ (∀ u ∈ ((active 3).image 63).mpi.subs, u.source < 256) ∧ ((active 3).image 63).placed = [(0, 1023)]
    ∧ (active 3).beadState 1023 = 3 ∧ (active 2).beadState 1023 = 2 := by
  repeat' apply And.intro
  all_goals decide +kernel

/-- Slot 62 waits in ACTIVATING for slot 63, whose bead runs. -/
def switching : State := ((active 2).setImage 62 { edges := 50 }).setFld R.LTAB_IMG_STATE 4 62

theorem test_wit_image_timeout : switching.fr.phase ≠ .stopped ∧ switching.imgState 62 = 4 ∧ 50 ≤ (switching.image 62).edges
    ∧ switching.replacedBy 62 = some 63 ∧ switching.imageRuns 63 = true := by
  repeat' apply And.intro
  all_goals decide +kernel

theorem test_wit_reverify : ({ held 4 with flt := { up.flt with reverify := true } } : State).flt.reverify = true ∧ (held 4).ready 8 = true
    ∧ (held 4).pwr.mode = .on ∧ (held 4).storedImages = [63] ∧ WriteAccepted (sess7.setOwn (.gsp 7) 0x50000 64) (.gsp 7) 900 (0x58000 + 4 * 8191) 9 := by
  repeat' apply And.intro
  all_goals decide +kernel

/-- A link of 50 m with one exit to nowhere in the shadow, PENDING. -/
def shadowed : State := { up.setBit R.FLOW_STAT_PENDING true with flow := { up.flow with shadow := [(0, 0x00100A40), (1, 0xFFFF0D00)] } }

theorem test_wit_flow : up.ready 9 = true ∧ up.flow.busy = false ∧ up.fr.phase ≠ .stopped ∧ up.halted = false ∧ up.fr.number % 10 = 0
    ∧ (up.setBit R.FLOW_CTRL_RUN false).bit R.FLOW_CTRL_RUN = false ∧ (up.setBit R.FLOW_CTRL_RUN true).bit R.FLOW_CTRL_RUN = true
    ∧ shadowed.bit R.FLOW_STAT_PENDING = true ∧ up.bit R.FLOW_STAT_PENDING = false
    ∧ (shadowCheck shadowed.flow.shadow (fun b => shadowed.rd (R.FLOW_BND_CFG_VALID.at b 0)) shadowed.peerEn).isSome = true
    ∧ shadowCheck [] (fun b => shadowed.rd (R.FLOW_BND_CFG_VALID.at b 0)) shadowed.peerEn = none
    ∧ ({ up with flow := { up.flow with busy := true } } : State).flow.busy = true := by
  repeat' apply And.intro
  all_goals decide +kernel

/-- 29 frames without a message. -/
def quiet : State := { up with fr := { up.fr with mono := 29 } }

theorem test_wit_peers : ((up.setBit R.HOST_PEER_CFG_EN true 7).setFld R.HOST_PEER_STAT_STATE 2 7).peerEn 7 = true
    ∧ ((up.setBit R.HOST_PEER_CFG_EN true 7).setFld R.HOST_PEER_STAT_STATE 2 7).fld R.HOST_PEER_STAT_STATE 7 = 2
    ∧ SMap.find 0 quiet.flow.heard 7 + 30 ≤ quiet.fr.mono + 1 ∧ quiet.peerLost 7 = false := by
  repeat' apply And.intro
  all_goals decide +kernel

/-- Lantern 1 (of a part of 2,048) commissioned on feeder 1 and joined, with a command of session 7 in flight. -/
def seg : State :=
  let s := { sess7 with part := { up.part with size := .cm02k }, seg := { up.seg with feeders := 63 } }
  let s := ((s.setLan 1 0 2 0x4001).setLan 1 0x1E 2 400).setLan 1 3 1 1
  s.setLeaf 1 { joined := true, txn := 65535, cmds := [⟨77, 0x11, [1], 3, some 7, 1, 5, 4⟩], codes := [(0x03, 5)], source := 2, traf := some 9000
                sched := some 8999, sent := 9000, cleared := [(0x04, 0)], reportNs := some 0, badNs := some 0, fsSent := some (1, 1) }

theorem test_wit_reports : seg.pwr.mode = .on ∧ LapNew seg 1 255 ∧ codeOn seg 1 0x03 = true ∧ codeOn seg 1 255 = false ∧ codeOn seg 1 0x04 = false
    ∧ flapping { seg with fr := { seg.fr with edgeNs := 0 } } 19999 1 0x04 = true ∧ flapping seg 0 1 0x04 = false
    ∧ seg.fr.phase ≠ .stopped ∧ (seg.leaf 1).joined = true ∧ (seg.leaf 1).fsSent ≠ some (seg.lan 1 0x1C 2, seg.fullFade 1)
    ∧ (255 ∈ SMap.find [] ({ seg with links := { seg.links with recNos := [(1, [255])] } } : State).links.recNos 1)
    ∧ (seg.leaf 1).reportNs = some 0 ∧ Due seg (0 + 3 * seg.reportPeriod 1)
    ∧ ((seg.setLeaf 1 { joined := true, known := some 5 }).leaf 1).reportNs = none ∧ ((seg.setLeaf 1 { joined := true, known := some 5 }).leaf 1).known ≠ none
    ∧ Due seg (0 + 3 * (seg.setLeaf 1 { joined := true, known := some 5 }).reportPeriod 1)
    ∧ (seg.leaf 1).badNs = some 0 ∧ Due seg (0 + seg.fld R.SEG_REPORT_UNREACH * 1000000000) := by
  repeat' apply And.intro
  all_goals first | decide +kernel | (unfold Due; decide +kernel)

/-- Session 7 subscribes to FAULT, and one note is held. -/
def noted : State :=
  let s := { seg with seg := { seg.seg with notes := [⟨1, 0x03, 1, 1⟩] } }
  s.setSess 7 { s.sess 7 with topics := 1 }

theorem test_wit_summary : Due noted (noted.seg.aggNs + noted.fld R.SEG_FAULT_CFG_AGG * 1000000000) ∧ noted.seg.notes ≠ [] ∧ noted.sessState 7 = 2
    ∧ (noted.sess 7).topics.testBit 0 = true ∧ 4 ≤ noted.sessVersion 7 ∧ noted.summaryEntries.length ≤ 512 ∧ noted.summaryEntries ≠ [] := by
  repeat' apply And.intro
  all_goals first | decide +kernel | (unfold Due; decide +kernel)

theorem test_wit_commands : (seg.leaf 1).cmds.head? = some ⟨77, 0x11, [1], 3, some 7, 1, 5, 4⟩ ∧ (0x11 : Nat) ≠ 0x32 ∧ (0x11 : Nat) ≠ 0x33
    ∧ seg.sessState 7 = 2 ∧ 77 ∉ (seg.sess 7).repeated ∧ (1 : Nat) < 3 ∧ Due seg (5 + seg.fld R.SEG_TIMING_CMD_TIMEOUT * 1000000000 / 3)
    ∧ Due seg (4 + seg.fld R.SEG_TIMING_CMD_TIMEOUT * 1000000000) := by
  repeat' apply And.intro
  all_goals first | decide +kernel | (unfold Due; decide +kernel)

/-- In EMIT, with safety entry 15 past its frame and a cap of 1 W after a demand response. -/
def emitting : State :=
  let s : State := { seg with fr := { seg.fr with phase := .emit } }
  let s := (((s.setFld R.SEG_SAFE_KIND 1 15).setFld R.SEG_SAFE_UNTIL_FRAME 3395621375 15).setFld R.DRV_STAT_SWITCH 0).setBit R.PWR_DR_SHED true
  { s with seg := { s.seg with tally := { s.seg.tally with cap := 1000, shed := true, delay := 0 } } }

theorem test_wit_levels : emitting.fr.phase = .emit ∧ (emitting.leaf 1).traf.isSome = true ∧ (emitting.leaf 1).hold ≤ emitting.fr.number
    ∧ emitting.switchPos = 0 ∧ (emitting.leaf 1).garnet = false ∧ emitting.safeLevel 1 = none ∧ (emitting.leaf 1).sched = some 8999
    ∧ 8999 ≤ (emitting.leaf 1).sent ∧ (emitting.leaf 1).source = 2
    ∧ emitting.bit R.SEG_SAFE_KIND 15 = true ∧ emitting.safeInForce 15 emitting.fr.number = false ∧ emitting.seg.tally.shed = true
    ∧ emitting.seg.tally.delay ≤ emitting.seg.overRun := by
  repeat' apply And.intro
  all_goals decide +kernel

theorem test_wit_leaves : (commissioned emitting.fmem emitting.part.lanterns) = [1] := by decide +kernel

theorem test_wit_load : emitting.seg.tally.cap < emitting.totalLoad := by decide +kernel

theorem test_wit_recon : let s := { seg with met := { seg.met with bounds := [(1699992000, [5]), (1699992900, [5005])] } }
    s.part.meter = true ∧ s.ready 13 = true ∧ s.fld R.SEG_RECON_CFG_PERIOD * 60 = 900 ∧ s.seg.reconDone < s.utcMs / 1000 / 900 * 900
    ∧ s.utcMs / 1000 / 900 * 900 * 1000 + 300000 ≤ s.utcMs := by
  repeat' apply And.intro
  all_goals decide +kernel

/-- Firmware image 15 is carried. -/
def camp (st : Nat) : State :=
  let img : UpdPart := { kind := 6, index := 15, version := 5, digest := [], hw := 0, bytes := [1] }
  let s := { seg with upd := { seg.upd with slot0 := [img], slot1 := [img] } }
  let tg : List CampTarget := [⟨1, 3, [], [], true, false⟩]
  { s with seg := { s.seg with camp := { s.seg.camp with targets := if st = 0 then [] else tg, asked := [(1, 0x32, 255), (1, 0x33, 0)], version := 5, actFrame := 100 } } }.setFld R.SEG_FW_STAT_STATE st

theorem test_wit_campaign : WriteAccepted (camp 0) .sup 900 R.SEG_FW_CTRL_IMAGE.addr (BitVec.ofNat 32 (15 + 0x100))
    ∧ WriteAccepted (camp 5) .sup 900 R.SEG_FW_CTRL_IMAGE.addr (BitVec.ofNat 32 (15 + 0x200))
    ∧ WriteAccepted (camp 6) .sup 900 R.SEG_FW_CTRL_IMAGE.addr (BitVec.ofNat 32 (15 + 0x300))
    ∧ (camp 0).campState = 0 ∧ ((camp 0).carried 15).isSome = true ∧ (camp 0).carried 14 = none ∧ (camp 0).ready 11 = true
    ∧ (camp 1).campState = 1 ∧ (camp 1).seg.camp.actNs + 2400000000 ≤ ((camp 1).atUs 0).nowNs ∧ (camp 1).bulkWaits 0x30 = false
    ∧ (camp 2).campState = 2 ∧ (camp 2).bulkWaits 0x31 = false
    ∧ (camp 3).campState = 3 ∧ (camp 3).seg.camp.targets.all (fun x => x.failed || x.maps.isEmpty) = true ∧ (1, 0x32, 255) ∈ (camp 3).seg.camp.asked ∧ (camp 3).pwr.mode = .on
    ∧ (camp 4).campState = 4 ∧ (camp 4).campChecked = true ∧ (1, 0x33, 0) ∈ (camp 4).seg.camp.asked
    ∧ (camp 5).campState = 5 ∧ (50 : Nat) < 2 ^ 31 ∧ (((((camp 5).setFld R.SEG_FW_ACT_FRAME ((85000000050 : Nat) % 2 ^ 32)).fld R.SEG_FW_ACT_FRAME)
        + 2 ^ 32 - 85000000000 % 2 ^ 32) % 2 ^ 32 = 50)
    ∧ (camp 6).campState = 6 ∧ Due (camp 6) ((camp 6).seg.camp.actFrame * 20000000 + 600000000000) := by
  repeat' apply And.intro
  all_goals first | decide +kernel | (unfold Due; decide +kernel)

/-! ### Radio and links -/

/-- A frame that fills partition 0 of the last demodulator; `target` is its destination. -/
def frame (fcs : Bool) (target : RxAddr) : RxFrame :=
  { demod := 7, psdu := 2047, ackOctets := 9, seq := 255, phrOk := true, fcs2 := false, white := true, fcsOk := fcs, version := 2, badType := false
    isAck := false, ar := true, pan := none, dest := target, src := .short 5, rssi := -80, cfo := 5, sfdNs := up.fr.edgeNs, sfdFrac := 0
    gtime := none, route := none, ci := none }

/-- Every demodulator on, partition 0 as large as one frame, hop maps in use, 6 dBm. -/
def radio : State :=
  let s := (((running {}).setBit R.RAD_DEMOD_EN true 7).setFld R.RAD_RXPART_SIZE (rxSpace 2047) 0).setFld R.RAD_DEMOD_PART 0 7
  let s := (List.range 4).foldl (fun t h => t.setBit R.RAD_HOP_CFG_VALID true h) s
  let s := (s.setFld R.RAD_TXPWR_MAX 6 0).setFld R.RAD_TXPWR_MAX 6 1
  s.setConn 5 { st := 1, gen2 := true }

/-- The same with the frame in progress. -/
def taking : State := { radio with rad := { radio.rad with inAir := [⟨7, up.fr.edgeNs, 0, rxSpace 2047⟩] } }

/-- The transceiver of the demodulator transmits from `a` on for 1 ms. -/
def sending (a : Nat) : State := { radio with rad := { radio.rad with txSpans := [(radio.demodTrx 7, [(a, a + 1000000)])] } }

theorem never_off {s : State} {f : RxFrame} (t : s.rad.txSpans = []) (d : s.rad.deafSpans = []) (a : s.rad.acks = []) (q : Nat × Nat) : ¬ RxOff s f q := by
  simp [RxOff, t, d, a, SMap.find]

theorem taken_whole (f : RxFrame) (d : f.demod = 7) (n : f.sfdNs = up.fr.edgeNs) : Taken (taking.atUs 900) f :=
  ⟨by rw [d]; decide +kernel, ⟨⟨7, up.fr.edgeNs, 0, rxSpace 2047⟩, by decide +kernel, d.symm, n.symm⟩,
    fun ⟨q, o, _⟩ => never_off (by decide +kernel) (by decide +kernel) (by decide +kernel) q o⟩

theorem test_wit_reception : Taken (taking.atUs 900) (frame false .own) ∧ Taken (taking.atUs 900) (frame true (.ext 5)) ∧ Taken (taking.atUs 900) (frame true .own)
    ∧ Taken (taking.atUs 900) { frame true .own with version := 3 } ∧ Taken (taking.atUs 900) { frame true .own with isAck := true } :=
  ⟨taken_whole _ rfl rfl, taken_whole _ rfl rfl, taken_whole _ rfl rfl, taken_whole _ rfl rfl, taken_whole _ rfl rfl⟩

/-- A frame whose SFD ends in a transmission, and one that a transmission meets before its PHR has ended. -/
theorem test_wit_not_received : (radio.setBit R.RAD_DEMOD_EN false 7).demodRuns 7 = false ∧ (sending up.fr.edgeNs).demodRuns 7 = true
    ∧ Unheard ((sending (up.fr.edgeNs - 500000)).atUs 900) (frame true .own)
    ∧ Preempted ((sending up.fr.edgeNs).atUs 900) (frame true .own) (State.phrEnd (rxMode radio (frame true .own)) (rxSfd radio (frame true .own)))
    ∧ ¬ RoomFor taking (frame true .own) := by
  refine ⟨by decide +kernel, by decide +kernel, ⟨(up.fr.edgeNs - 500000, up.fr.edgeNs + 500000), .inl ?_, ?_⟩,
    ⟨(up.fr.edgeNs, up.fr.edgeNs + 1000000), .inl ?_, ?_⟩, ?_⟩
  all_goals first | decide +kernel | (unfold RoomFor; decide +kernel)

/-- A frame in progress for which there is room, or which fails a test of its PHR; one that had no space reserved, and one that is met at its end. -/
theorem test_wit_phr : radio.demodRuns 7 = true ∧ ¬ Unheard (radio.atUs 900) (frame true .own)
    ∧ ¬ Preempted (radio.atUs 900) (frame true .own) (State.phrEnd (rxMode radio (frame true .own)) (rxSfd radio (frame true .own)))
    ∧ RoomFor radio (frame true .own) ∧ ¬ Reserved radio (frame true .own)
    ∧ (let s := { sending up.fr.edgeNs with rad := { (sending up.fr.edgeNs).rad with inAir := taking.rad.inAir } }
       Reserved s (frame true .own) ∧ Preempted (s.atUs 900) (frame true .own) (rxEnd s (frame true .own))) := by
  have off := @never_off (radio.atUs 900) (frame true .own) (by decide +kernel) (by decide +kernel) (by decide +kernel)
  refine ⟨by decide +kernel, fun ⟨q, o, _⟩ => off q o, fun ⟨q, o, _⟩ => off q o, by unfold RoomFor; decide +kernel, fun ⟨a, m, _⟩ => ?_,
    ⟨⟨7, up.fr.edgeNs, 0, rxSpace 2047⟩, ?_, rfl, rfl⟩, ⟨(up.fr.edgeNs, up.fr.edgeNs + 1000000), .inl ?_, ?_⟩⟩
  · rw [show radio.rad.inAir = [] by decide +kernel] at m
    cases m
  all_goals decide +kernel

theorem test_wit_filter : State.formOk (frame true .own) = true ∧ State.formOk { frame true .own with version := 3 } = false
    ∧ radio.filterMatch (frame true (.ext 5)) = none ∧ radio.filterMatch (frame true .own) = some 3
    ∧ (∀ e ∈ (radio.atUs 900).peerEntries (.short 5), e.seq ≠ 255) ∧ radio.rad.acks = []
    ∧ (let s := { radio with links := { radio.links with peers := [(5, [⟨255, true, radio.nowNs⟩])] } }
       ((s.atUs 900).peerEntries (.short 5)).find? (fun e => decide (e.seq = 255)) = some ⟨255, true, radio.nowNs⟩)
    ∧ (State.lengthOk { frame true .own with psdu := 2048 } = false ∧ State.lengthOk (frame true .own) = true) := by
  repeat' apply And.intro
  all_goals decide +kernel

def ackDue : AckDue := ⟨1, 7, up.nowNs, 2, 3, 9, 255, true, 5, true, 7⟩

theorem test_wit_ack : let s := { radio with rad := { radio.rad with acks := [ackDue] } }
    let span := s.ackSpan ackDue.mode ackDue.octets ackDue.endNs
    let busy : State := { s with rad := { s.rad with txSpans := [(1, [span])] } }
    s.firstAck 1 = some ackDue ∧ Due s (ackDue.endNs + 1000000) ∧ s.tlqOf 1 = [] ∧ SMap.find [] s.rad.txSpans 1 = [] ∧ s.trxReady 1 = true
      ∧ s.pwr.mode ≠ .onyx ∧ busy.firstAck 1 = some ackDue ∧ (SMap.find [] busy.rad.txSpans 1).any (overlaps span) = true := by
  repeat' apply And.intro
  all_goals first | decide +kernel | (unfold Due; decide +kernel)

def item (dest : Nat) : DownItem := ⟨0, false, dest, .mapUpdate 1 2, 30, 0, false⟩

/-- An entry due at `due` heads the queue of TRX 1. -/
def queued (due dest : Nat) (retry : Option Nat) : State := radio.setTlq 1 [⟨due, 1, 1, 3, 5, true, 30, 0, 7, retry, item dest, 0, false⟩]

/-- At its time with a lead of 10 octets, 300 ms late, and not yet; -128 dBm is quiet. -/
theorem test_wit_launch : let u := radio.atUs 900
    let e (due : Nat) : TlqEntry := ⟨due, 1, 1, 3, 5, true, 30, 0, 7, none, item 5, 0, false⟩
    let on := u.nowNs + 200000 + radio.leadNs (e 0)
    (queued on 5 none).tlqOf 1 = [e on] ∧ (queued on 0xFFFF none).trxReady 1 = true ∧ (u.launchPlan 1 (e on)).1 < u.nowNs + 201000
      ∧ u.nowNs + 201000 ≤ (u.launchPlan 1 (e (on + 1000000))).1 ∧ radio.busyUntil 1 ≤ u.nowNs
      ∧ u.nowNs + 200000 ≤ (e on).due - radio.leadNs (e on) + 1000
      ∧ (u.launchPlan 1 (e on)).1 + u.leadNs (e on) ≤ on + radio.fld R.RAD_TLQ_CFG_LATE_LIMIT 1 * 1000
      ∧ (let late := on - 300000000
         late + radio.fld R.RAD_TLQ_CFG_LATE_LIMIT 1 * 1000 < (u.launchPlan 1 (e late)).1 + u.leadNs (e late))
      ∧ -128 < radio.fldI R.RAD_CCA_THRESH ∧ radio.fldI R.RAD_CCA_THRESH ≤ 0 := by
  repeat' apply And.intro
  all_goals decide +kernel

theorem test_wit_cca_retry : let n := radio.nowNs
    let s := queued n 5 (some n)
    let u := s.atUs (ceilDiv (n - s.fr.edgeNs) 1000)
    s.tlqOf 1 = [⟨n, 1, 1, 3, 5, true, 30, 0, 7, some n, item 5, 0, false⟩] ∧ Due s n ∧ s.trxReady 1 = true
      ∧ (u.launchPlan 1 ⟨n, 1, 1, 3, 5, true, 30, 0, 7, none, item 5, 0, false⟩).1 < u.nowNs + 201000 := by
  repeat' apply And.intro
  all_goals first | decide +kernel | (unfold Due; decide +kernel)

/-- A broadcast item waits for a queue; a command of class 2 to LID 5 waits behind the tree. -/
def offering (cls : Nat) : State :=
  let s := radio.setLan 5 0x4E 2 1
  { s with links := { s.links with queue := [if cls = 0 then item 0xFFFF else ⟨2, false, 5, .cmd 0x20 1 [], 30, 0, false⟩] } }

theorem test_wit_offer : ((offering 0).atUs 900).firstUrgent = some (item 0xFFFF) ∧ Takes ((offering 0).atUs 900) (item 0xFFFF)
    ∧ (offering 0).pwr.mode ≠ .onyx ∧ (radio.atUs 900).firstUrgent = none ∧ (radio.atUs 900).downLeaves = [] := by
  simp only [Takes]
  repeat' apply And.intro
  all_goals decide +kernel

theorem test_wit_offer_tree : let u := (offering 2).atUs 900
    let i : DownItem := ⟨2, false, 5, .cmd 0x20 1 [], 30, 0, false⟩
    let l := (serveOne (u.bit R.RAD_DL_CFG_COMPAT) u.links.arb u.downLeaves).2
    u.firstUrgent = none ∧ u.downLeaves ≠ [] ∧ l.isSome = true
      ∧ l.any (fun l => decide (u.links.queue.find? (fun i => decide (2 ≤ i.cls) && !i.link && u.launchable i && decide (u.itemPath i = l.path)) = some i)) = true
      ∧ Takes u i := by
  simp only [Takes]
  repeat' apply And.intro
  all_goals decide +kernel

/-- A Gen-1 connection of LID 16,383, in event windows of 250 ms. -/
def gen1 (st m : Nat) (window got : Bool) : State :=
  radio.setConn 16383 { st := st, chmap := 2 ^ 64 - 1, evcnt := 65535, si := 250, m := m, evNs := up.fr.edgeNs - 245000000
                        heardNs := up.fr.edgeNs - 245000000, window := window, got := got, supNs := some 5, supMs := 1000 }

theorem test_wit_demod_write : WriteAccepted radio .sup 900 (0x60040 + 4 * 7) 0x0007FF0F ∧ WriteAccepted (gen1 1 0 false false) .sup 900 0x60040 1
    ∧ (gen1 1 0 false false).anyGen1 = true ∧ (0 : Nat) = (gen1 1 0 false false).fld R.RAD_LINK_CFG_G1DEMOD
    ∧ (chanCount radio.part.bandU (getBits 0x0007FF0F 2 2) ≤ getBits 0x0007FF0F 8 8) ∧ radio.anyGen1 = false
    ∧ (getBits 0x0007FF0F 16 3 = 7 ∧ radio.part.trxs ≤ 2) ∧ (radio.setFld R.RAD_WIN_CENTRE 863800 0).inWindow 0 3 ((radio.setFld R.RAD_WIN_CENTRE 863800 0).fld R.RAD_WIN_CENTRE 0) = true
    ∧ 3 < chanCount radio.part.bandU 0 ∧ WriteAccepted (radio.setFld R.RAD_WIN_CENTRE 863800 0) .sup 900 (0x60040 + 4) 0x301
    ∧ radio.fld R.RAD_RXPART_SIZE 0 ≠ 0 ∧ (radio.setFld R.RAD_RXPART_SIZE 0 7).fld R.RAD_RXPART_SIZE 7 = 0 := by
  repeat' apply And.intro
  all_goals decide +kernel

theorem test_wit_radio_writes : WriteAccepted radio .sup 900 (0x60100 + 64 * 1) 866000 ∧ WriteAccepted radio .sup 900 (0x60800 + 4 * 3) 0x80000003
    ∧ radio.hopValid 3 = true ∧ (getBits 0x80000003 0 2 ≠ radio.hopMode 3) ∧ radio.mapInUse (radio.hopMap true) = true ∧ up.hopValid 3 = false
    ∧ up.hopLegal 3 0 = true ∧ ((List.range 64).foldl (fun t k => t.wr (0x60900 + 4 * k) 0xFFFFFFFF) up).hopLegal 3 0 = false
    ∧ WriteAccepted up .sup 900 (0x60900 + 4 * 63) 0x05040302 ∧ WriteAccepted radio .sup 900 (0x60080 + 4 * 7) 2112
    ∧ WriteAccepted radio .sup 900 (0x60080 + 4 * 7) 2111 ∧ WriteAccepted radio .sup 900 (0x60080 + 4 * 0) 3670016
    ∧ WriteAccepted radio .sup 900 (0x60080 + 4 * 7) 3670016 ∧ radio.fld R.RAD_DEMOD_PART 7 = 0 ∧ (7 : Nat) < radio.part.demods
    ∧ WriteAccepted radio .sup 900 0x60208 0 ∧ WriteAccepted radio .sup 900 0x60208 3
    ∧ (mapEntries ((radio.setFld R.RAD_LINK_MAP_LO_MAP 0).fld R.RAD_LINK_MAP_LO_MAP)).length < 2 ∧ 2 ≤ (mapEntries (3 * 2 ^ 32)).length := by
  repeat' apply And.intro
  all_goals decide +kernel

theorem test_wit_map_switch : let s := { radio with links := { radio.links with mapNext := some (77, 1000) } }
    s.links.mapNext = some (77, 1000) ∧ Due s (1000 * 1000000) := by
  refine ⟨rfl, ?_⟩
  unfold Due
  decide +kernel

theorem test_wit_window : (gen1 1 0 false false).g1Live 16383 = true ∧ (gen1 1 0 false false).windowOpen = false
    ∧ Due (gen1 1 0 false false) (up.fr.edgeNs + 5000000 - 220000) ∧ ((gen1 1 0 false false).conn 16383).newMap = none
    ∧ ((gen1 1 0 false false).atUs (ceilDiv (up.fr.edgeNs + 5000000 - 220000 - up.fr.edgeNs) 1000)).nowNs ≤ up.fr.edgeNs + 5000000 + 220000
    ∧ ((gen1 1 0 true true).conn 16383).got = true ∧ ((gen1 1 0 true false).conn 16383).window = true
    ∧ ((gen1 2 4 true false).conn 16383).m + 1 < 6 ∧ ((gen1 2 5 true false).conn 16383).m + 1 = 6
    ∧ Due (gen1 2 5 true false) (up.fr.edgeNs - 245000000 + min 12500000 (200000 * 2 ^ 5)) := by
  repeat' apply And.intro
  all_goals first | decide +kernel | (unfold Due; decide +kernel)

theorem test_wit_supervision : ((gen1 3 6 false false).conn 16383).supNs = some 5 ∧ (gen1 3 6 false false).connected 16383 = true
    ∧ Due (gen1 3 6 false false) (5 + 1000 * 1000000)
    ∧ ({ gen1 3 6 false false with fmem := [(128 * 16383 + 1, 0x40), (128 * 16383 + 0x52, 0xFF), (128 * 16383 + 0x53, 0xFF)] } : State).firstHop 16383 = some 16383
    ∧ Due ({ radio with links := { radio.links with dst := [(16383, 7)] } } : State) 7 := by
  repeat' apply And.intro
  all_goals first | decide +kernel | (unfold Due; decide +kernel)

/-- At 500 ms of a resync period. -/
def resync : State :=
  let s := gen1 3 6 false false
  { s with fr := { s.fr with edgeNs := 1700000010500000000, nowUs := 0 } }

theorem test_wit_beacon : let x := (resync.atUs 0).pickTrx
    resync.pwr.mode ≠ .onyx ∧ (resync.conn 16383).st = 3 ∧ resync.g1Live 16383 = true ∧ (resync.atUs 0).nowNs % 1000000 = 0 ∧ (resync.atUs 0).nowNs / 1000000 % 30000 ∈ [500, 1000, 1500]
      ∧ (resync.tlqOf x).length < 64 ∧ resync.txArea + 29 ≤ 524288 ∧ resync.ready (11 + x) = true ∧ -20 ≤ resync.txPower x
      ∧ resync.txPower x ≤ resync.maxPower
      ∧ resync.chanOf (resync.hopMap false) (resync.conn 16383).chmap 0 0 < chanCount resync.part.bandU (resync.hopMode (resync.hopMap false)) := by
  repeat' apply And.intro
  all_goals decide +kernel

def inFlight (hop tries : Nat) : State := { radio with links := { radio.links with flight := [⟨1, hop, 255, tries, 3, radio.nowNs, item hop⟩] } }

theorem test_wit_ack_wait : (inFlight 5 3).links.flight.find? (fun g => decide (g.trx = 1 ∧ g.seq = 255 ∧ g.limitNs ≤ ((inFlight 5 3).atUs 900).nowNs))
      = some ⟨1, 5, 255, 3, 3, radio.nowNs, item 5⟩
    ∧ ((inFlight 5 3).conn 5).st = 1 ∧ ((inFlight 5 3).conn 5).gen2 = true ∧ ((inFlight 5 3).conn 5).supNs = none
    ∧ (inFlight 99 2).connected 99 = false ∧ (inFlight 5 2).connected 5 = true ∧ (inFlight 99 2).pwr.mode ≠ .onyx := by
  repeat' apply And.intro
  all_goals decide +kernel

theorem test_wit_repeat : let u := (inFlight 99 2).atUs 900
    let e := u.itemEntry 1 { item 99 with due := u.nowNs + 3 * 1000000 } 255
    (u.tlqOf 1).length < 64 ∧ u.txArea + e.octets ≤ 524288 ∧ u.nowNs ≤ e.due + u.fld R.RAD_TLQ_CFG_LATE_LIMIT 1 * 1000 ∧ e.due ≤ u.nowNs + 60000000000
      ∧ e.mode ≤ 3
      ∧ e.chan < chanCount u.part.bandU e.mode ∧ -20 ≤ e.power ∧ e.power ≤ u.maxPower ∧ u.ready 12 = true := by
  repeat' apply And.intro
  all_goals decide +kernel

theorem test_wit_routes : radio.hopValid (radio.hopMap true) = true
    ∧ ({ radio with links := { radio.links with advNs := some 5 } } : State).links.advNs = some 5 ∧ Due radio (5 + 30000000000)
    ∧ Due ({ radio with links := { radio.links with dst := [(16383, 7)] } } : State) 7
    ∧ SMap.find 0 ({ radio with links := { radio.links with dst := [(16383, 7)] } } : State).links.dst 16383 ≠ 0 := by
  repeat' apply And.intro
  all_goals first | decide +kernel | (unfold Due; decide +kernel)

/-! ### Clock, drive, feeders, loops -/

def announce : Announce :=
  { priority1 := 1, clockClass := 2, accuracy := 3, variance := 4, priority2 := 5, gm := 2 ^ 64 - 1, steps := 0, source := 9, intervalMs := 1000
    utcOffset := some 37, leap61 := false, leap59 := true, transport := 0, domain := 0, unsupported := false }

/-- As the ports are configured, and what each test refuses. -/
def via : PtpVia := ⟨0, 0, false⟩

/-- PTP enabled on port 1 with a master, in the given state; port 0 has a master if `two`. -/
def ptp (st : Nat) (two : Bool) : State :=
  let s := (((running {}).setBit R.NTU_CTRL_PTP_EN true).setFld R.NTU_CTRL_DOMAIN 0).setBit R.NTU_PORT_CFG_EN true 1
  let s := (s.setBit R.NTU_PORT_CFG_EN two 0).setNtuPort 1 { speed := 1000, master := some announce, foreign := [⟨announce, up.fr.edgeNs, none⟩] }
  let s := (s.setNtuPort 0 { speed := if two then 100 else 0, master := if two then some announce else none }).portSync
  ((((s.setFld R.NTU_PORT_STAT_STATE 2 1).setFld R.NTU_STAT_ACTIVE 1).setFld R.NTU_STAT_STATE st).setFld R.NTU_JUMP_LIMIT_NS 1000).setFld R.NTU_PORT_CFG_ANN_TO 3 1

/-- The same in HOLDOVER with JUMP set and accepted for a grandmaster. -/
def accepted (gm : Nat) : State :=
  let s := (ptp 3 false).setBit R.NTU_STAT_JUMP true
  { s with ntu := { s.ntu with accept := true, jumpGm := gm } }

theorem test_wit_sync : Hears (ptp 1 false) 1 via ∧ (ptp 1 false).ntuActive = 1 ∧ (ptp 1 false).ntuState = 1 ∧ (ptp 2 false).ntuState = 2
    ∧ (ptp 3 false).ntuState = 3 ∧ (ptp 3 false).ntu.accept = false ∧ (ptp 0 false).ntuState = 0 ∧ (ptp 0 false).ntu.net = none
    ∧ (ptpOffset (ptp 1 false) 1 1000 0).natAbs ≤ (ptp 1 false).fld R.NTU_JUMP_LIMIT_NS
    ∧ (ptp 1 false).fld R.NTU_JUMP_LIMIT_NS < (ptpOffset (ptp 1 false) 1 (-1001) 0).natAbs ∧ Hears ((ptp 1 false).setFld R.NTU_STAT_ACTIVE 0) 1 via
    ∧ ((ptp 1 false).setFld R.NTU_STAT_ACTIVE 0).ntuActive ≠ 1 ∧ Hears (ptp 0 false) 1 via ∧ Hears (ptp 3 false) 1 via
    ∧ (false = (ptp 1 false).bit R.NTU_PORT_CFG_DELAY 1) ∧ (true ≠ (ptp 1 false).bit R.NTU_PORT_CFG_DELAY 1) := by
  simp only [Hears]
  repeat' apply And.intro
  all_goals decide +kernel

theorem test_wit_accepted : Hears (accepted (2 ^ 64 - 1)) 1 via ∧ (accepted 5).ntuActive = 1 ∧ (accepted 5).ntuState = 3 ∧ (accepted 5).ntu.accept = true
    ∧ (accepted 5).bit R.NTU_STAT_JUMP = true ∧ (accepted (2 ^ 64 - 1)).gmOf 1 = some (accepted (2 ^ 64 - 1)).ntu.jumpGm
    ∧ (accepted 5).gmOf 1 ≠ some (accepted 5).ntu.jumpGm := by
  simp only [Hears]
  repeat' apply And.intro
  all_goals decide +kernel

theorem test_wit_not_taken : (ptp 1 false).ntuRuns 1 = true ∧ (2 : Nat) ≠ (ptp 1 false).fld R.NTU_PORT_CFG_TRANSPORT 1
    ∧ ({ via with unsupported := true } : PtpVia).transport = (ptp 1 false).fld R.NTU_PORT_CFG_TRANSPORT 1 := by
  repeat' apply And.intro
  all_goals decide +kernel

theorem test_wit_announce : (ptp 1 false).ntuRuns 1 = true ∧ announce.unsupported = false ∧ announce.domain = (ptp 1 false).fld R.NTU_CTRL_DOMAIN
    ∧ announce.transport = (ptp 1 false).fld R.NTU_PORT_CFG_TRANSPORT 1 ∧ announce.gm < 2 ^ 64
    ∧ ({ announce with domain := 1 } : Announce).domain ≠ (ptp 1 false).fld R.NTU_CTRL_DOMAIN ∧ HeardAgain (ptp 1 false) 1 announce ((ptp 1 false).atUs 900).nowNs
    ∧ (((ptp 1 false).setNtuPort 1 { speed := 1000 }).ntuPort 1).foreign = [] ∧ (((ptp 1 false).setNtuPort 1 { speed := 1000 }).ntuPort 1).master = none
    ∧ ((ptp 1 false).setNtuPort 1 { speed := 1000 }).ntuRuns 1 = true
    ∧ (((ptp 1 false).setFld R.NTU_STAT_ACTIVE 0).ntuPort 0).master = none := by
  refine ⟨?_, ?_, ?_, ?_, ?_, ?_, ⟨_, rfl, rfl, ?_⟩, ?_, ?_, ?_, ?_⟩
  all_goals decide +kernel

theorem test_wit_master_lost : (ptp 2 false).pwr.mode = .on ∧ ((ptp 2 false).ntuPort 1).master = some announce
    ∧ (∀ f ∈ ((ptp 2 false).ntuPort 1).foreign, f.ann.source = announce.source)
    ∧ Due (ptp 2 false) (((ptp 2 false).ntuPort 1).annNs + (ptp 2 false).fld R.NTU_PORT_CFG_ANN_TO 1 * announce.intervalMs * 1000000)
    ∧ (ptp 2 false).hasMaster 0 = false ∧ (ptp 2 true).hasMaster 0 = true ∧ -128000000 ≤ (ptp 2 false).ntu.integ
    ∧ (ptp 2 false).ntu.integ ≤ 128000000 ∧ (ptp 2 true).bit R.NTU_PORT_CFG_EN 1 = true := by
  simp only [Due]
  repeat' apply And.intro
  all_goals decide +kernel

theorem test_wit_time_step :
    let s : State := { up.setFld R.NTU_STAT_STATE 2 with ntu := { up.ntu with step := some (-7) } }
    s.pwr.mode = .on ∧ s.fr.phase = .emit ∧ (s.atUs (max 900 (s.tickLen / 1000))).stepDue = some (-7) := by
  repeat' apply And.intro
  all_goals decide +kernel

theorem test_wit_jump : WriteAccepted (ptp 3 false) .sup 900 R.NTU_JUMP_ACCEPT_ACCEPT.addr 1
    ∧ ((ptp 3 false).setBit R.NTU_STAT_JUMP true).bit R.NTU_STAT_JUMP = true ∧ (ptp 3 false).bit R.NTU_STAT_JUMP = false
    ∧ WriteAccepted (ptp 3 false) .sup 900 R.NTU_CTRL_PTP_EN.addr ((ptp 3 false).rd R.NTU_CTRL_PTP_EN.addr &&& 0xFFFFFFFE)
    ∧ (ptp 3 false).bit R.NTU_CTRL_PTP_EN = true := by
  repeat' apply And.intro
  all_goals decide +kernel

theorem test_wit_leap : let s : State := { up with fr := { up.fr with leapDue := some (1699999999000000000, true) } }
    s.pwr.mode = .on ∧ s.fr.leapDue = some (1699999999000000000, true) ∧ Due s (s.onModule (1699999999000000000 + 1000000000))
      ∧ -32768 < s.fldI R.NTU_UTC_OFFSET ∧ s.fldI R.NTU_UTC_OFFSET < 32767 := by
  repeat' apply And.intro
  all_goals first | decide +kernel | (unfold Due; decide +kernel)

/-- The bus in a mode, channel 23 on at a level with a check condition met `run` times, feeder 5 open since frame 0. -/
def drive (mode cond run : Nat) : State :=
  let s := (((running {}).setFld R.DRV_STAT_MODE mode).setFld R.UPD_STATE_STATE 0).setFld R.DRV_STAT_SWITCH 0
  let s := (s.setBit R.DRV_CTRL_EN true).setFld R.DRV_VLEDIN_V 1800
  let s := { s with drv := { s.drv with storeRead := true, off := false, iset := 145, rampFrom := 4800, rampTo := s.vmax, rampRate := 1000, cfg := [(23, 0x07FF83FF)] } }
  let s := (List.range 5).foldl (fun t f => t.setFeeder f { out := true }) s
  (s.setDchan 23 { goal := 60000, cond := cond, run := run, measured := true, nextNs := some 5 }).setFeeder 5 { changeNs := some 0 }

theorem test_wit_compliance : (drive 2 2 2).drvRuns = true ∧ ((drive 2 2 2).atUs 900).checked 23 = true ∧ ((drive 2 2 2).dchan 23).cond = 2
    ∧ 2 ≤ ((drive 2 2 2).dchan 23).run ∧ ((drive 2 2 1).dchan 23).run < 2 ∧ (drive 2 2 2).drvMode = 2
    ∧ (5000 * 261888 * 10 < State.setCurrent 145 ((drive 2 2 2).chanCfg 23) * 1000)
    ∧ (State.setCurrent 145 ((drive 2 2 2).chanCfg 23) * 1000 ≤ 199600 * 261888 * 10)
    ∧ (State.setCurrent 145 ((drive 2 2 2).chanCfg 23) * 1000 * 95 < 199600 * 261888 * 100) := by
  repeat' apply And.intro
  all_goals decide +kernel

theorem test_wit_ramp : (drive 1 0 0).drvMode = 1 ∧ (drive 4 0 0).drvMode = 4 ∧ (drive 1 0 0).drv.rampTo = (drive 1 0 0).vmax
    ∧ Due (drive 1 0 0) ((drive 1 0 0).drv.rampNs + ceilDiv (((drive 1 0 0).vmax - (drive 1 0 0).drv.rampFrom) * 1000000) (max 1 (drive 1 0 0).drv.rampRate))
    ∧ 23 ∈ (drive 1 0 0).chansOn ∧ ((drive 1 0 0).dchan 23).measured = true ∧ (drive 1 0 0).fld R.DRV_CHAN_VF_LEARNED 23 = 0
    ∧ ((drive 2 0 0).setBit R.DRV_STAT_HANDOVER true).bit R.DRV_STAT_HANDOVER = true := by
  repeat' apply And.intro
  all_goals first | decide +kernel | (unfold Due; decide +kernel)

theorem test_wit_shutdown : (drive 2 0 0).drvMode ≠ 5 ∧ (drive 2 0 0).flt.cur = none ∧ (drive 5 0 0).drvMode = 5
    ∧ WriteAccepted (drive 5 0 0) .sup 900 R.DRV_RESTART_RESTART.addr 1
    ∧ ((drive 5 0 0).setFldI R.DRV_THERM_TEMP 14079).fldI R.DRV_THERM_TEMP < 14080 ∧ 14080 ≤ ((drive 5 0 0).setFldI R.DRV_THERM_TEMP 14080).fldI R.DRV_THERM_TEMP
    ∧ startMode (drive 0 0 0) 1800 = 1 ∧ startMode (drive 0 0 0) 1799 = 0 := by
  repeat' apply And.intro
  all_goals decide +kernel

/-- SHUTDOWN with automatic retry, after `n` retries. -/
def cooling (n : Nat) : State :=
  let s := (drive 5 0 0).setBit R.DRV_THERM_AUTO true
  { s with drv := { s.drv with coolNs := some 7, retries := List.replicate n up.fr.edgeNs } }

theorem test_wit_auto_retry : (cooling 2).drv.coolNs = some 7 ∧ (cooling 2).drvRuns = true ∧ (cooling 2).bit R.DRV_THERM_AUTO = true
    ∧ Due (cooling 2) (7 + 60000000000) ∧ ((cooling 2).atUs (ceilDiv (7 + 60000000000 - (cooling 2).fr.edgeNs) 1000)).retryCount < 3
    ∧ 3 ≤ ((cooling 3).atUs (ceilDiv (7 + 60000000000 - (cooling 3).fr.edgeNs) 1000)).retryCount := by
  repeat' apply And.intro
  all_goals first | decide +kernel | (unfold Due; decide +kernel)

theorem test_wit_test_mode : WriteAccepted (drive 2 0 0) .sup 900 R.DRV_CTRL_EN.addr 3 ∧ (drive 3 0 0).drvMode = 3
    ∧ (([(23, 65535)] : List (Fin 24 × Nat)).map (fun e => e.1)).Nodup ∧ 23 ∈ ((drive 3 0 0).atUs 900).needed := by
  repeat' apply And.intro
  all_goals decide +kernel

theorem test_wit_open_dropout : ((drive 2 0 0).dchan 23).nextNs = some 5 ∧ (drive 2 0 0).sinksOn = true ∧ (drive 2 0 0).chanOn 23 = true
    ∧ ((drive 2 0 0).setFld R.DRV_CHAN_DIAG_STATE 1 23).fld R.DRV_CHAN_DIAG_STATE 23 = 1 ∧ ((drive 2 0 0).dchan 23).levelAt (drive 2 0 0).nowNs ≠ 0
    ∧ Due (drive 2 0 0) 5 ∧ ((drive 2 0 0).setFld R.DRV_CHAN_DIAG_STATE 2 23).fld R.DRV_CHAN_DIAG_STATE 23 = 2 := by
  repeat' apply And.intro
  all_goals first | decide +kernel | (unfold Due; decide +kernel)

theorem test_wit_current_writes : WriteAccepted (drive 0 0 0) .sup 900 R.DRV_ISET_ISET.addr 145
    ∧ WriteAccepted (drive 0 0 0) .sup 900 (R.DRV_CHAN_CFG_TRIM.at 23 0) 0x07FF83FF ∧ (drive 0 0 0).fld R.UPD_STATE_STATE ≠ 4
    ∧ (drive 0 0 0).currentsOk 145 (fun _ => 0) = true ∧ (drive 0 0 0).currentsOk 145 (fun d => if d = 23 then 0x8001 else 0) = false
    ∧ (drive 0 0 0).currentsOk 145 (fun d => if d = 23 then 0x07FF83FF else 0) = true := by
  repeat' apply And.intro
  all_goals decide +kernel

theorem test_wit_levels_of_drive : ({ drive 0 0 0 with drv := { (drive 0 0 0).drv with storeRead := false } } : State).drv.storeRead = false
    ∧ ({ drive 2 0 0 with drv := { (drive 2 0 0).drv with bound := [⟨23, 777, 500, 1, 85000000000⟩] } } : State).drv.bound = [⟨23, 777, 500, 1, 85000000000⟩]
    ∧ (drive 2 0 0).switchPos = 0 ∧ (drive 2 0 0).fr.phase ≠ .stopped ∧ Due (drive 2 0 0) (85000000000 * 20000000) := by
  repeat' apply And.intro
  all_goals first | decide +kernel | (unfold Due; decide +kernel)

theorem test_wit_feeders : (drive 2 0 0).drvRuns = true ∧ (drive 2 0 0).switchPos ≠ 2 ∧ ((drive 2 0 0).setFld R.DRV_STAT_SWITCH 2).switchPos ≠ 0
    ∧ WriteAccepted (drive 2 0 0) .sup 900 (R.DRV_FEEDER_CMD_CLOSE.at 5 0) 1 ∧ (drive 2 0 0).pwr.paused = false
    ∧ ((drive 2 0 0).feeder 5).out = false ∧ ((drive 2 0 0).atUs 900).feederHeld 5 true = false
    ∧ (({ drive 2 0 0 with drv := { (drive 2 0 0).drv with closeNs := some up.fr.edgeNs } } : State).atUs 900).feederHeld 5 true = true := by
  repeat' apply And.intro
  all_goals decide +kernel

/-- Feeder 5 PENDING with CLOSE set, its feedback enabled. -/
def feederPending : State :=
  (((drive 2 0 0).setBit R.DRV_FEEDER_STAT_PENDING true 5).setBit R.DRV_FEEDER_CMD_CLOSE true 5).setBit R.DRV_FEEDER_CFG_FB_EN true 5

theorem test_wit_feeder_release : feederPending.bit R.DRV_FEEDER_STAT_PENDING 5 = true ∧ feederPending.bit R.DRV_FEEDER_CMD_CLOSE 5 = true
    ∧ (feederPending.feeder 5).out ≠ true ∧ (List.finRange 6).all (fun g => decide (g = 5) || (feederPending.feeder g).out == feederPending.bit R.DRV_FEEDER_CMD_CLOSE g) = true
    ∧ Due feederPending (0 + 5000000000) := by
  repeat' apply And.intro
  all_goals first | decide +kernel | (unfold Due; decide +kernel)

theorem test_wit_feedback : feederPending.bit R.DRV_FEEDER_CFG_FB_EN 5 = true
    ∧ (feederPending.setFeeder 5 { feederPending.feeder 5 with raw := true }).fbValue 5 ≠ ((feederPending.setFeeder 5 { feederPending.feeder 5 with raw := true }).feeder 5).out
    ∧ feederPending.bit R.DRV_FEEDER_STAT_FAULT 5 = false ∧ Due feederPending (0 + feederPending.fld R.DRV_FEEDER_CFG_FB_TIME 5 * 10000000)
    ∧ ((drive 2 0 0).setBit R.DRV_FEEDER_CFG_FB_EN false 5).bit R.DRV_FEEDER_CFG_FB_EN 5 = false ∧ Due (drive 2 0 0) (0 + 100000000) := by
  repeat' apply And.intro
  all_goals first | decide +kernel | (unfold Due; decide +kernel)

/-- Loop 3 in a state, in control of AOUT 1, with AIN 3 in 4-20 mA. -/
def loop3 (st : Nat) (wire : Bool) : State :=
  let s := (((drive 0 0 0).setBit R.DRV_CTRL_EN false).setLoopState 3 st).setFld R.LCE_CFG_OUTSEL 2 3
  let s := ((s.setFld R.LCE_CFG_YSRC 3 3).setBit R.LCE_AIN_CFG_MODE true 3).setBit R.LCE_AIN_WIRE wire 3
  { s with lce := { s.lce with reinit := [(3, wire)] } }

theorem test_wit_loops : SMap.find 0 (loop3 1 false).lce.nextNs 3 ≤ ((loop3 1 false).atUs 900).nowNs ∧ (loop3 1 false).drv.storeRead = true ∧ (loop3 1 false).loopState 3 = 1 ∧ SMap.find false (loop3 1 false).lce.reinit 3 = false
    ∧ SMap.find false (loop3 1 true).lce.reinit 3 = true ∧ WriteAccepted (loop3 0 false) .sup 900 (R.LCE_CTRL_CLOSE.at 3 0) 1
    ∧ WriteAccepted (loop3 1 false) .sup 900 (R.LCE_CTRL_CLOSE.at 3 0) 2 ∧ (loop3 0 false).loopInputsOk 3 = true ∧ (loop3 0 true).loopInputsOk 3 = false
    ∧ WriteAccepted (loop3 0 false) .sup 900 (R.LCE_CTRL_CLOSE.at 0 0) 1 ∧ (loop3 2 true).loopState 3 = 2 ∧ 0 ≤ (loop3 1 false).fldI R.LCE_SLEW_STEP 3
    ∧ (loop3 1 false).bit R.LCE_AIN_CFG_MODE 3 = true ∧ (loop3 1 false).bit R.LCE_AIN_WIRE 3 = false ∧ (loop3 1 false).loopUses 3 3 = true
    ∧ (loop3 2 true).bit R.LCE_AIN_WIRE 3 = true ∧ (∀ j : Fin 4, j ≠ 3 → (loop3 2 true).loopUses 3 j = true → (loop3 2 true).bit R.LCE_AIN_WIRE j = false) := by
  repeat' apply And.intro
  all_goals decide +kernel

theorem test_wit_reinit : let s := loop3 1 true
    let rest := (0 : Int) + 0
    s.fldI R.LCE_I_MIN_MIN 3 + rest ≤ s.loopU 3 ∧ s.loopU 3 ≤ s.fldI R.LCE_I_MAX_MAX 3 + rest ∧ s.fldI R.LCE_OUT_MIN_MIN 3 ≤ s.loopU 3
      ∧ s.loopU 3 ≤ s.fldI R.LCE_OUT_MAX_MAX 3 := by
  repeat' apply And.intro
  all_goals decide +kernel

theorem test_wit_loop_writes : WriteAccepted (loop3 0 false) .sup 900 (R.LCE_AOUT_MAN_CODE.at 1 0) 65535 ∧ (loop3 0 false).aoutLoop 1 = some 3
    ∧ (loop3 0 false).aoutLoop 0 = none ∧ (loop3 0 false).fld R.LCE_CFG_OUTSEL 3 = 1 + 1 ∧ WriteAccepted (loop3 0 false) .sup 900 (R.LCE_SP_SP.at 3 0) 5
    ∧ WriteAccepted (loop3 0 false) .sup 900 (R.LCE_CTRL_CLOSE.at 3 0 + 4 * 36) 7 ∧ WriteAccepted (loop3 0 false) .sup 900 (R.LCE_CTRL_CLOSE.at 3 0 + 4 * 13) 0
    ∧ (loop3 0 false).loopUnlocked 3 = true ∧ (0 : Word).toInt ≤ (loop3 0 false).fldI R.LCE_OUT_MAX_MAX 3
    ∧ (loop3 0 false).fldI R.LCE_OUT_MAX_MAX 3 < (0x7FFFFFFF : Word).toInt := by
  repeat' apply And.intro
  all_goals decide +kernel

theorem test_wit_pulses : let s := { up with lce := { up.lce with pulseNs := [(1, 8)] } }
    SMap.find 0 s.lce.pulseNs 1 = 7 + 1 ∧ Due s (7 + s.fld R.LCE_PIN_CFG_TIMEOUT 1 * 1000000000) ∧ 7 + 16000 ≤ (s.atUs 0).nowNs := by
  repeat' apply And.intro
  all_goals first | decide +kernel | (unfold Due; decide +kernel)

/-! ### Meter link and island -/

/-- The link and the island run; the last record was `last`. -/
def metered (last : Option Nat) : State :=
  let s := (running {}).setFld R.NTU_STAT_STATE 2
  { s with
    part := { s.part with meter := true }
    met := { s.met with sess := true, last := last }
    isl := { s.isl with run := true, timeValid := true, secs := 1700000100, perStart := some 1699999200, mkey := [1], fwKey := [2], serial := 7, nonce := 5, acked := true } }

def meas (seq : Nat) : Meas :=
  { seq := seq, secs := 0, status := 0, energy := [], demLast := 0, demMax := 0, demPer := 0, demPrev := 0, demFlags := 0, freq := 0, phases := []
    feeders := [], events := [], used := 0, unlogged := 0, alarm := 0 }

theorem test_wit_link : LinkUp (metered none) ∧ (metered none).met.last = none ∧ (metered (some (2 ^ 32 - 1))).met.last = some (2 ^ 32 - 1)
    ∧ (measOf (measBytes (meas 901))).seq = 901 ∧ 901 < ((meas 901).seq + 2 ^ 32 - (2 ^ 32 - 1)) % 2 ^ 32 ∧ up.met.sess = false ∧ (metered none).met.waiting = none
    ∧ Due (metered none) ((metered none).met.heardNs + 3000000000) ∧ (metered none).fld R.WCH_IN_VALUE 1 = 0
    ∧ ((metered none).setFld R.WCH_IN_VALUE 1 1).fld R.WCH_IN_VALUE 1 ≠ 0 := by
  repeat' apply And.intro
  all_goals first | decide +kernel | (unfold Due; decide +kernel)

theorem test_wit_time_requests : WriteAccepted (metered none) .sup 900 R.MET_FW_REQ_REQ.addr 1
    ∧ WriteAccepted (metered none) .sup 900 R.MET_TSYNC_CTRL_REQ.addr 1 ∧ (metered none).ntuState = 2 ∧ (metered none).ready 13 = true
    ∧ ((metered none).setFld R.NTU_STAT_STATE 1).ntuState ≠ 2 ∧ ((metered none).setBit R.MET_TSYNC_CFG_AUTO true).bit R.MET_TSYNC_CFG_AUTO = true
    ∧ (({ metered none with fr := { up.fr with edgeNs := 1699999500000000000 + 37000000000 } } : State).atUs 900).utcMs / 1000 % 3600 = 300 := by
  repeat' apply And.intro
  all_goals decide +kernel

/-- A HELLO that offers versions 1 and 2, an island log record and the other payloads of the island. -/
def hello : List Byte := [1, 2] ++ leBytes 4 0x11 ++ leBytes 8 7 ++ leBytes 4 900 ++ leBytes 2 3

/-- 13 R335: each TYPE as a frame, and bytes that hold none. -/
theorem test_wit_carries : let has (typ : Nat) (p : List Byte) : Prop := Carries typ (linkFrame typ 65535 p) p
    has 0x01 hello ∧ has 0x11 (islRecBytes 4 ⟨0x40, 1700000100, [1]⟩) ∧ has 0x24 (List.replicate 16 1)
      ∧ has 0x22 (List.replicate 8 1) ∧ has 0x30 (List.replicate 16 1) ∧ has 0x31 [9, 9, 9]
      ∧ linkPayloads 0x01 [0xA5, 0x5A, 0x02, 0x01] = ([], 1) ∧ linkPayloads 0x31 [0xA5, 0xA5, 0x5A, 0x02, 0x31] = ([], 2)
      ∧ linkLength 0x31 1024 = true ∧ linkLength 0x01 20 = true ∧ linkLength 0x01 21 = false := by
  simp only [Carries]
  repeat' apply And.intro
  all_goals decide +kernel

theorem test_wit_meas_frame : Carries 0x10 (linkFrame 0x10 5 (measBytes (meas 901))) (measBytes (meas 901)) := by
  have h := linkHead_linkFrame 0x10 5 (measBytes (meas 901)) [] (by decide) (by decide +kernel) (by decide +kernel)
  rw [List.append_nil] at h
  obtain ⟨b, bs, e⟩ : ∃ b bs, linkFrame 0x10 5 (measBytes (meas 901)) = b :: bs := ⟨_, _, rfl⟩
  rw [e] at h ⊢
  simp [Carries, linkPayloads, linkScan, h]

/-- CRC-32C and the CRC-32 of IEEE 802.3 of the digits 1 to 9, as the published check values have them. -/
theorem test_crc : let digits : List Byte := [0x31, 0x32, 0x33, 0x34, 0x35, 0x36, 0x37, 0x38, 0x39]
    crc32c digits = 0xE3069283 ∧ crc32ieee digits = 0xCBF43926 := by
  decide +kernel

/-- Three records from SEQ 5 on are wanted: the first of them comes, one beyond them, one from before. -/
theorem test_wit_wanted : let s : State := { metered none with met := { (metered none).met with want := some (5, 3) } }
    LinkUp s ∧ s.met.want = some (5, 3) ∧ ((meas 5).seq + 2 ^ 32 - 5) % 2 ^ 32 < 3 ∧ 3 ≤ ((meas 8).seq + 2 ^ 32 - 5) % 2 ^ 32
      ∧ 2 ^ 31 ≤ ((meas 4).seq + 2 ^ 32 - 5) % 2 ^ 32 ∧ LinkPowered (metered none)
      ∧ leAt hello 0 1 ≤ 2 ∧ 2 ≤ leAt hello 1 1 ∧ (2 < leAt [3, 3] 0 1) ∧ leAt [0, 1] 1 1 < 2
      ∧ (metered none).ready 7 = true ∧ ((metered none).clearReady 7).ready 7 = false ∧ (metered none).evr.early.length < 256
      ∧ ({ sess7 with met := { sess7.met with waiting := some (7, 1) } } : State).met.waiting = some (7, 1)
      ∧ (∀ y ∈ (metered none).evr.met.recs, y.seq ≠ 4) := by
  repeat' apply And.intro
  all_goals decide +kernel

/-- The counters, the gaps between MEAS records where the clauses meet, an hour asked for already, a link that is not up. -/
theorem test_wit_link_bounds : CountersOk (metered none) ∧ (2 < 3 ∨ (2 : Nat) < 2)
    ∧ ((meas (2 ^ 32 - 1)).seq + 2 ^ 32 - (2 ^ 32 - 1)) % 2 ^ 32 = 0 ∧ ((meas 0).seq + 2 ^ 32 - (2 ^ 32 - 1)) % 2 ^ 32 = 1
    ∧ ((meas 899).seq + 2 ^ 32 - (2 ^ 32 - 1)) % 2 ^ 32 = 900 ∧ 2 ^ 31 ≤ ((meas (2 ^ 31 - 1)).seq + 2 ^ 32 - (2 ^ 32 - 1)) % 2 ^ 32
    ∧ ((meas (2 ^ 31 - 2)).seq + 2 ^ 32 - (2 ^ 32 - 1)) % 2 ^ 32 < 2 ^ 31 ∧ (metered none).met.autoHour ≠ ((metered none).atUs 900).utcMs / 3600000
    ∧ (let s := { metered none with met := { (metered none).met with autoHour := ((metered none).atUs 900).utcMs / 3600000 } }
       s.met.autoHour = (s.atUs 900).utcMs / 3600000)
    ∧ ({ sess7 with part := { sess7.part with meter := false } } : State).part.meter = false := by
  repeat' apply And.intro
  all_goals first | decide +kernel | (left; decide) | (unfold CountersOk; decide +kernel)

theorem test_wit_sealed : Fresh (sess7.setFld R.HOST_SESS_ROLE 4 7) 7 0 4 false ∧ sess7.part.meter = true ∧ sess7.ready 13 = true
    ∧ sess7.met.waiting = none ∧ (sess7.clearReady 13).ready 13 = false
    ∧ ({ sess7 with met := { sess7.met with waiting := some (7, 1) } } : State).met.waiting = some (7, 1)
    ∧ sess7.sessState 7 = 2 ∧ 1 ∉ (sess7.sess 7).repeated := by
  repeat' apply And.intro
  all_goals decide +kernel

/-- The island with its seal, budget and log length set. -/
def island (isOpen : Bool) (budget used : Nat) : State :=
  { metered none with isl := { (metered none).isl with
      isOpen := isOpen, spent := [(19675, 10000000 - budget)], lasting := [false, false, false, true, false, false], log := List.replicate used ⟨0x20, 5, []⟩ } }

/-- What a TSYNC_REQ carries. -/
def tsync (secs ns : Nat) : List Byte := leBytes 6 secs ++ leBytes 4 ns

theorem test_wit_island_frames : Carries 0x21 (linkFrame 0x21 3 (tsync 1700000100 999979000)) (tsync 1700000100 999979000) ∧ Carries 0x23 (linkFrame 0x23 3 []) []
    ∧ (linkPayloads 0x21 (linkFrame 0x23 3 [])).1 = [] ∧ leAt (tsync 1700000100 999979000) 0 6 = 1700000100 ∧ leAt (tsync 1700000100 999979000) 6 4 = 999979000
    ∧ (island false 0 0).isl.acked = true ∧ ({ island false 0 0 with isl := { (island false 0 0).isl with acked := false } } : State).isl.acked = false
    ∧ 10000000 ≤ spentOn (island false 0 0) (((island false 0 0).isl.secs + 1) / 86400) ∧ (island true 0 0).isl.isOpen = true := by
  simp only [Carries]
  repeat' apply And.intro
  all_goals decide +kernel

/-- 13 R329 at its bounds: a sag below 207.0 V of 10 ms, a swell above 253.0 V, what ends each. -/
theorem test_wit_sag : (island false 0 0).isl.lasting.getD 0 false = false ∧ (island false 0 0).isl.lasting.getD 3 false = true ∧ (10 : Nat) ≤ 10 ∧ (9 : Nat) < 10
    ∧ (2069 : Nat) < 2070 ∧ ¬ (2070 : Nat) < 2070 ∧ (2530 : Nat) < 2531 ∧ ¬ (2530 : Nat) < 2530 ∧ (2093 : Nat) < 2094 ∧ (2506 : Nat) < 2507 := by
  decide +kernel

theorem test_wit_tsync : IslandRuns (island false 0 0) ∧ (island false 0 0).isl.timeValid = true ∧ budgetOf (island false 0 0) = 0
    ∧ budgetOf (island false 1 0) ≠ 0 ∧ (island true 0 0).isl.isOpen = true
    ∧ (((1700000100999979000 / 1000 : Nat) + 20 - ((1700000100 : Int) * 1000000 + 0)).natAbs < 1000000)
    ∧ (1000000 ≤ ((1700000100999980000 / 1000 : Nat) + 20 - ((1700000100 : Int) * 1000000 + 0)).natAbs)
    ∧ ({ island false 0 0 with isl := { (island false 0 0).isl with timeValid := false } } : State).isl.timeValid = false := by
  repeat' apply And.intro
  all_goals decide +kernel

theorem test_wit_island_log : 8192 < (island true 0 8191).isl.log.length + 2 ∧ (island true 0 8190).isl.log.length + 2 ≤ 8192
    ∧ (island false 0 7935).isl.log.length < 7936 := by
  refine ⟨?_, ?_, ?_⟩
  all_goals simp only [island, List.length_replicate]
  all_goals decide

theorem test_wit_demand : (island false 0 0).isl.secs % 900 = 0 ∧ (island false 0 0).isl.perMark ≠ (island false 0 0).isl.secs
    ∧ (island false 0 0).isl.perStart = some 1699999200 ∧ (island false 0 0).isl.month < State.monthOf (island false 0 0).isl.secs
    ∧ up.part.meter = true ∧ up.isl.run = false ∧ (island false 0 0).isl.cover ≠ true := by
  repeat' apply And.intro
  all_goals decide +kernel

def signed : SignedMsg := { formed := true, serial := 7, nonce := 5, body := [9], sig := [8] }

theorem test_wit_signed (sig : Config.sigValid [1] [9] [8] = true) : Signed (island true 0 0) signed ∧ SealAdmits (island true 0 0)
    ∧ Signed (island false 0 0) signed ∧ ¬ Signed (island true 0 0) { signed with nonce := 6 } :=
  ⟨⟨⟨rfl, rfl⟩, rfl, rfl, rfl, sig⟩, ⟨rfl, by decide⟩, ⟨⟨rfl, rfl⟩, rfl, rfl, rfl, sig⟩, fun h => absurd h.2.2.2.1 (by decide +kernel)⟩

theorem test_wit_seal : (island false 0 0).isl.reseat = false ∧ ({ island true 0 0 with isl := { (island true 0 0).isl with openSecs := 14400 } } : State).isl.openSecs ≥ 14400
    ∧ (island true 0 0).isl.loaded = none
    ∧ ({ island true 0 0 with isl := { (island true 0 0).isl with loaded := some (9, [1], [2]) } } : State).isl.loaded = some (9, [1], [2]) := by
  repeat' apply And.intro
  all_goals decide +kernel

/-! ### Watch core, clock, keys -/

theorem test_wit_watch : up.pwr.mode = .on ∧ (inOnyx none).pwr.mode = .onyx
    ∧ (((up.setBit R.WCH_RULE_CFG_EN true 31).setFld R.WCH_RULE_CFG_STATES 7 31).ruleRuns 31 = true) ∧ up.ruleRuns 31 = false ∧ up.fld R.WCH_RULE_CFG_FILTER 31 = 0
    ∧ up.wch.schedNs = none ∧ (up.setBit R.WCH_PHOTO_STAT_ARMED true).bit R.WCH_PHOTO_STAT_ARMED = true ∧ up.bit R.WCH_PHOTO_STAT_ARMED = false := by
  repeat' apply And.intro
  all_goals decide +kernel

/-- Rule 31 sets flag 3 while PHOTO is above 100. -/
def watching : State :=
  let s := ((((up.setBit R.WCH_RULE_CFG_EN true 31).setFld R.WCH_RULE_CFG_STATES 7 31).setFld R.WCH_RULE_CFG_ACTION 4 31).setFld R.WCH_RULE_CFG_FLAG 3 31).setFld
    R.WCH_RULE_THR_THRESH 100 31
  { s with wch := { s.wch with nextNs := s.nowNs + 900000 } }

def watchIn (photo : Nat) : WatchIn :=
  { photo := photo, mains := 7, door := false, tamper := false, keys := 0, temp := 0, vaux := 0, store := 500, vbkp := 0, charging := false, din := 0 }

/-- 14 R358, R359: the rule fires at the first sample beyond its threshold; a sample comes no earlier than its time. -/
theorem test_watch_fires : (watching.atUs 900).nowNs < watching.wch.nextNs ∧ watching.wch.nextNs ≤ (watching.atUs 1400).nowNs
    ∧ (match exec (.watchSample 1400 (watchIn 101)) watching with | .next t => (t.fld R.WCH_FIRED_RULE, t.fld R.WCH_BKP_FLAGS_FLAG) | _ => (0, 0)) = (2 ^ 31, 8)
    ∧ (match exec (.watchSample 1400 (watchIn 100)) watching with | .next t => (t.fld R.WCH_FIRED_RULE, t.fld R.WCH_BKP_FLAGS_FLAG) | _ => (1, 1)) = (0, 0)
    ∧ (watching.clearReady 7).ready 7 = false ∧ watching.wch.logq.length < 16 := by
  repeat' apply And.intro
  all_goals decide +kernel

/-- The clock `ahead` ns before module time, in LOCKED. -/
def steered (ahead : Nat) : State :=
  let s := (up.setFld R.NTU_STAT_STATE 2).atUs 0
  let s := s.setRtcTime (RtcTime.ofSecs ((s.nowNs / 1000000000 : Nat) - s.utcOffset).toNat)
  { s with rtc := { s.rtc with tickNs := s.fr.edgeNs - ahead } }

theorem test_wit_steer : ((steered 60000).atUs 900).rtcDiff = 60 ∧ ((steered 61000).atUs 900).rtcDiff = 61 ∧ (steered 61000).fld R.NTU_STAT_STATE = 2
    ∧ (steered 61000).rtc.checkNs ≤ ((steered 61000).atUs 900).nowNs := by
  repeat' apply And.intro
  all_goals decide +kernel

/-- 04 R122: the last entry of an event input popped while SRC[13] is in service. -/
theorem test_pop_drop :
    let s := (up.setEvin 3 [⟨1, 2, 3⟩]).setBit R.ICU_SRC_STAT_INSVC true 13
    s.srcCond 13 = true ∧ (match exec (.evinPop .sup 900 3) s with | .next t => (t.srcCond 13, t.fld R.ICU_LATE_DROP_COUNT 13) | _ => (true, 0)) = (false, 1) := by
  decide +kernel

theorem test_wit_rtc : up.pwr.mode ≠ .off ∧ WriteAccepted up .sup 900 R.RTC_SET_DATE.addr 7 ∧ WriteAccepted up .panel 900 R.RTC_SET_DATE.addr 0
    ∧ (7 : Word).getLsbD 0 = true ∧ (RtcTime.mk 24 2 29 23 59 59).valid = true ∧ (RtcTime.mk 23 2 29 23 59 59).valid = false
    ∧ (up.setFld R.NTU_STAT_STATE 2).fld R.NTU_STAT_STATE = 2 ∧ ((up.setFld R.NTU_STAT_STATE 2).atUs 900).rtcDiff.natAbs ≥ 2000000
    ∧ (3600000000000 : Nat) ≤ 5 + 3600000000000 ∧ Due ({ up with rtc := { up.rtc with hourNs := some 5 } } : State) (5 + 3600000000000) := by
  repeat' apply And.intro
  all_goals first | decide +kernel | (unfold Due; decide +kernel)

theorem test_wit_alarm : WriteAccepted up .sup 900 (R.RTC_ALM_CTRL_ARM.at 1 0) 1 ∧ WriteAccepted up .sup 900 (R.RTC_ALM_CTRL_ARM.at 1 0) 0x3F9
    ∧ getBits 0x3F9 3 7 = 127 ∧ getBits 1 3 7 = 0 ∧ (0x3F9 : Word).getLsbD 1 = false
    ∧ monthDays 2000 2 < 30 ∧ monthDays 2000 2 = 29 := by
  repeat' apply And.intro
  all_goals decide +kernel

theorem test_wit_evin : up.part.evin = true ∧ (up.setEvin 3 (List.replicate 8 ⟨1, 2, 3⟩)).evin 3 = List.replicate 8 ⟨1, 2, 3⟩ ∧ (up.evin 3).length < 8
    ∧ WriteAccepted up .sup 900 (R.RTC_EVIN_POP_POP.at 3 0) 1 ∧ (up.fld R.RTC_EVIN_CFG_EDGE 3).testBit 1 = false
    ∧ ((up.setFld R.RTC_EVIN_CFG_EDGE 3 3).fld R.RTC_EVIN_CFG_EDGE 3).testBit 1 = true := by
  repeat' apply And.intro
  all_goals decide +kernel

def half (typ : Nat) (derived : Bool) (parent : Nat) (mat : List Byte) : KeyHalf := ⟨typ, 127, parent, derived, [], 1, 1, mat, true⟩

/-- OWNER_CA in slot 2, a wrapping key in slot 5, a key derived from it in slot 31, slot 6 revoked. -/
def keys : State :=
  let one : Option KeyCopy := some ⟨0, 1, true⟩
  let put (s : State) (k : Nat) (h : KeyHalf) : State :=
    ((s.setKeySlot k { a := some h, one := one, two := one, mat := some h.mat, dueNs := if k = 31 then some 5 else none }).setFld R.KEY_SLOT_STAT_STATE 1 k).setFld
      R.KEY_SLOT_CFG_TYPE h.typ k
  let s := put (put (put sess7 2 (half 2 false 0 [7])) 5 (half 3 false 0 [5])) 31 (half 3 true 5 [])
  ((((s.setKeySlot 6 { revoked := true }).setBit R.KEY_SLOT_CFG_DERIVED true 31).setFld R.KEY_SLOT_CFG_PARENT 5 31).setFld R.KEY_SLOT_CFG_USAGE 127 5).setFld R.KEY_SLOT_CFG_USAGE 127 2

theorem test_wit_recovery : keys.pwr.mode = .on ∧ keys.key.done = false
    ∧ (∀ k : Fin 4, (keys.keySlot k).winner ≠ none ∨ (keys.keySlot k).revoked = true ∨ ((keys.keySlot k).one = none ∧ (keys.keySlot k).two = none))
    ∧ (keys.keySlot 2).winner = some (0, half 2 false 0 [7]) ∧ (keys.keySlot 31).winner = some (0, half 3 true 5 []) ∧ (keys.keySlot 31).dueNs ≠ none
    ∧ keys.ready 5 = true ∧ (keys.keySlot 4).winner = none ∧ keys.rtc.calLost = false
    ∧ (keys.setKeySlot 3 { one := some ⟨0, 1, true⟩ }).keySlot 3 = { one := some ⟨0, 1, true⟩ } := by
  repeat' apply And.intro
  all_goals decide +kernel

theorem test_wit_recovery_headers (k h : Nat) (y : KeyHalf) (w : (keys.keySlot k).winner = some (h, y)) : y.typ < 8 ∧ y.usage < 128 ∧ y.parent < 32 := by
  have all : ∀ e ∈ keys.key.slots, ∀ o ∈ e.2.winner, o.2.typ < 8 ∧ o.2.usage < 128 ∧ o.2.parent < 32 := by decide +kernel
  rcases SMap.find_mem {} keys.key.slots k with e | e
  · rw [State.keySlot, e] at w
    cases w
  · exact all _ e _ w

theorem test_wit_revoke : WriteAccepted keys .sup 900 (R.KEY_SLOT_CTRL_REVOKE.at 31 0) 1 ∧ WriteAccepted keys .sup 900 (R.KEY_SLOT_CTRL_REVOKE.at 1 0) 1
    ∧ keys.keyState 31 ≠ 0 ∧ keys.keyState 30 = 0 ∧ keys.children 5 = [31] ∧ keys.loading 31 true = false := by
  repeat' apply And.intro
  all_goals decide +kernel

theorem test_wit_engine : EngineOk keys ∧ Unnamed keys 31 := by
  have e : keys.key.queue = [] := by decide +kernel
  simp [EngineOk, Unnamed, e]

def load (slot typ : Nat) (wrap : Option Nat) : KeyLoad :=
  { slot := slot, typ := typ, usage := 1, derived := false, parent := 0, label := [], wrap := wrap, material := List.replicate 40 9, ownerSig := [], proof := [] }

/-- The engine is at work on `w` for session 7, request 65,535, with what slot `k` gave. -/
def working (use : Option (Nat × Nat)) (w : KeyWork) (u : Status × List Byte) : State :=
  let s := keys.setSess 7 { keys.sess 7 with running := [65535] }
  { s with key := { s.key with queue := [⟨use, [], some (7, 65535), w, some u⟩] } }

theorem test_wit_key_load : Fresh keys 7 0 3 true ∧ keys.key.queue.length < 64 ∧ (keys.sess 7).unowned = false
    ∧ keys.loadShape (load 4 3 (some 5)) = .ok ∧ keys.loadUse false (load 4 3 (some 5)) = (.ok, some (5, 4)) ∧ (keys.keySlot 4).dueNs = none
    ∧ keys.loading 4 false = false ∧ keys.loadShape (load 31 3 (some 5)) = .ok ∧ (keys.keySlot 31).dueNs ≠ none
    ∧ (working none (.load (load 4 3 (some 5))) (.ok, [])).loading 4 false = true
    ∧ (keys.loadUse false (load 4 3 none)).1 = .auth ∧ (keys.loadUse false (load 4 3 (some 2))).1 = .auth
    ∧ keys.loadShape (load 32 3 (some 5)) = .range ∧ keys.loadShape (load 1 3 (some 5)) = .locked ∧ keys.loadShape (load 3 6 (some 5)) = .invalid
    ∧ keys.loadShape (load 4 8 none) = .invalid ∧ keys.hasChild 4 = false ∧ keys.hasChild 5 = true ∧ keys.loadShape (load 5 7 none) = .invalid
    ∧ keys.loadShape { load 4 3 none with derived := true, parent := 2 } = .invalid ∧ keys.loadShape { load 4 3 none with derived := true, parent := 5 } = .ok
    ∧ (keys.setFld R.KEY_LIFECYCLE_STATE 3).loadShape (load 4 7 none) = .refusedState
    ∧ ({ keys with key := { keys.key with queue := List.replicate 64 ⟨none, [], none, .attest [], some (.ok, [])⟩ } } : State).key.queue.length = 64
    ∧ (keys.setFld R.KEY_LIFECYCLE_STATE 1).fld R.KEY_LIFECYCLE_STATE = 1 ∧ (keys.setFld R.KEY_LIFECYCLE_STATE 2).fld R.KEY_LIFECYCLE_STATE ≠ 3
    ∧ ((keys.setSess 7 { keys.sess 7 with unowned := true }).sess 7).unowned = true ∧ (keys.clearReady 5).ready 5 = false
    ∧ (keys.setFld R.HOST_SESS_VERSION 3 7).sessVersion 7 < 4 ∧ keys.loadUse false (load 4 2 none) = (.ok, some (2, 1))
    ∧ (let s := (keys.setFld R.KEY_LIFECYCLE_STATE 1).setFld R.HOST_SESS_ROLE 4 7
       s.sessRole 7 = 4 ∧ (s.loadUse true (load 2 2 none)).1 = .ok ∧ (s.loadUse false (load 2 2 none)).1 = .auth) := by
  repeat' apply And.intro
  all_goals decide +kernel

/-- What the engine makes of a load: a key unwrapped, an owner's certificate key that its own slot signs, a derived key. -/
theorem test_wit_load_key (un : Config.keyUnwrap [5] (List.replicate 40 9) = some [8]) (sig : Config.sigValid [7] (List.replicate 40 9) [] = true)
    (own : Config.sigValid (List.replicate 40 9) Config.testDigest [] = true) :
    State.loadKey (load 4 3 (some 5)) true (.ok, [5]) = (.ok, fitBytes 32 [8]) ∧ State.loadKey (load 4 2 none) true (.ok, [7]) = (.ok, List.replicate 40 9)
      ∧ State.loadKey { load 4 3 none with derived := true, parent := 5 } false (.ok, []) = (.ok, []) ∧ keys.keyUse 5 4 = (.ok, [5]) ∧ keys.keyUse 2 1 = (.ok, [7]) := by
  refine ⟨?_, ?_, rfl, by decide +kernel, by decide +kernel⟩
  · simp only [State.loadKey, load, unwrapKey, un]
    rfl
  · simp only [State.loadKey, load, sig, own]
    rfl

/-- An attestation, a load whose half is written, and a RETIRE at their ends; one operation behind another; requests of the supervisor. -/
theorem test_wit_operation : let w := working (some (0, 0)) (.attest (List.replicate 64 1)) (.ok, [3])
    w.key.queue = [⟨some (0, 0), [], some ((7 : Fin 8).val, 65535), .attest (List.replicate 64 1), some (.ok, [3])⟩] ∧ w.sessState 7 = 2 ∧ 65535 ∈ (w.sess 7).running
      ∧ 65535 ∉ (w.sess 7).repeated ∧ w.pwr.mode = .on ∧ w.ready 5 = true
      ∧ (let q := working (some (5, 4)) (.load (load 31 3 (some 5))) (.ok, [5])
         q.loadShape (load 31 3 (some 5)) = .ok
          ∧ ((q.setKeySlot 31 { q.keySlot 31 with b := some (half 3 false 0 [8]) }).keySlot 31).half (q.keySlot 31).spare = some (half 3 false 0 [8]))
      ∧ (working (some (2, 1)) (.retire [1] [2]) (.ok, [7])).key.queue.length = 1
      ∧ (working (some (5, 5)) (.seal [1]) (.ok, [5])).updState ≠ 2 ∧ (working (some (5, 5)) (.unseal [1] [2]) (.ok, [5])).bit R.UPD_SLOT_TRIAL = false
      ∧ Fresh keys 7 0 1 false ∧ 4 ≤ keys.sessVersion 7 ∧ keys.sessFeature 7 3 = true ∧ (List.replicate 64 (1 : Byte)).length ≤ 64 := by
  repeat' apply And.intro
  all_goals decide +kernel

/-! ### Update -/

def listed : ManifestPart := ⟨1, 0, 9, 0, 2, List.replicate 32 4, 0⟩

/-- A CBOR map from keys to items. -/
def cborMap (xs : List (Nat × List Byte)) : List Byte := cborPut 5 xs.length ++ (xs.map (fun x => cborPut 0 x.1 ++ x.2)).flatten

/-- The payload of 18 R406 with one part. -/
def payload (format : Nat) : List Byte :=
  let part := cborMap [(1, cborPut 0 1), (2, cborPut 0 0), (3, cborPut 0 9), (4, cborPut 0 0), (5, cborPut 0 2), (6, cborBytes listed.digest)]
  cborMap [(1, cborPut 0 format), (2, cborPut 0 11), (3, cborPut 0 255), (4, cborPut 0 0xB0), (5, cborArray [part]), (6, cborBytes (List.replicate 32 0)),
    (7, cborPut 0 1)]

/-- A manifest with two signatures that name ES256. -/
def manifestBytes (format : Nat) : List Byte :=
  let signer (b : Byte) := cborArray [cborBytes coseEs256, cborMap [], cborBytes (List.replicate 64 b)]
  cborPut 6 98 ++ cborArray [cborBytes [], cborMap [], cborBytes (payload format), cborArray [signer 6, signer 7]]

def manifest : Manifest := readManifest (manifestBytes 1)

/-- 18 R405, R406: a manifest as it is read, one of another format, one that cannot be read. -/
theorem test_manifest_read : manifest.formed = true ∧ manifest.format = 1 ∧ manifest.seq = 11 ∧ manifest.dieRev = 0xB0 ∧ manifest.parts = [listed]
    ∧ manifest.sigs.map (·.2) = [List.replicate 64 6, List.replicate 64 7] ∧ (readManifest (manifestBytes 2)).format = 2
    ∧ (readManifest []).formed = false ∧ (readManifest []).format = 1 := by
  repeat' apply And.intro
  all_goals decide +kernel

/-- Both halves of KEY[1], vendor and owner. -/
def halves : List Byte := List.replicate 64 1 ++ List.replicate 64 2

/-- UPD in a state, KEY[1] loaded, nothing that blocks. -/
def updating (st : Nat) : State :=
  let s := ((sess7.setKeySlot 1 { mat := some halves }).setFld R.KEY_SLOT_STAT_STATE 1 1).setFld R.PWR_STORE_PCT 80
  let s := ((s.setFld R.UPD_STATE_STATE st).setFld R.UPD_SEQ_CONFIRMED 10).setFld R.DRV_STAT_SWITCH 0
  let s := (List.range 6).foldl (fun t f => t.setBit R.DRV_FEEDER_STAT_CLOSED false f) s
  { s with upd := { s.upd with manifest := if st = 1 then some manifest else none } }

theorem test_wit_manifest : Fresh (updating 0) 7 0 3 false ∧ (updating 0).updState < 6 ∧ (updating 0).sessFeature 7 0 = true ∧ (updating 0).ready 10 = true
    ∧ State.manifestFormed manifest = true ∧ (updating 0).manifestServes manifest = true ∧ (updating 0).manifestRange manifest = true
    ∧ (updating 0).manifestRange { manifest with seq := 10 } = false ∧ (updating 0).manifestServes { manifest with sizes := 0 } = false
    ∧ State.manifestFormed { manifest with parts := [] } = false ∧ (updating 3).updState = 3 := by
  repeat' apply And.intro
  all_goals decide +kernel

theorem test_wit_manifest_read : Readable manifest ∧ EngineOk (updating 0) ∧ (updating 0).key.queue.length < 64 := by
  refine ⟨⟨by decide +kernel, by decide +kernel⟩, ?_, by decide +kernel⟩
  simp [EngineOk, show (updating 0).key.queue = [] by decide +kernel]

/-- The signatures of the manifest come to their turn. -/
def verifying : State :=
  let s := (updating 0).setSess 7 { (updating 0).sess 7 with running := [9] }
  { s with key := { s.key with queue := [⟨some (1, 1), [1], some ((7 : Fin 8).val, 9), .manifest manifest, some (.ok, halves)⟩] } }

theorem test_wit_verifying : verifying.pwr.mode = .on ∧ verifying.ready 5 = true ∧ verifying.updState = 0 ∧ verifying.sessState 7 = 2
    ∧ verifying.key.queue = [⟨some (1, 1), [1], some ((7 : Fin 8).val, 9), .manifest manifest, some (.ok, halves)⟩] ∧ 9 ∈ (verifying.sess 7).running
    ∧ 9 ∉ (verifying.sess 7).repeated ∧ State.manifestSigned halves { manifest with sigs := [] } = false
    ∧ (verifying.keySlot 1).mat = some halves ∧ verifying.manifestServes manifest = true ∧ verifying.manifestRange manifest = true := by
  repeat' apply And.intro
  all_goals decide +kernel

theorem test_wit_manifest_signed (vendor : ∀ x ∈ manifest.sigs, Config.sigValid (halves.take 64) x.1 x.2 = true)
    (owner : ∀ x ∈ manifest.sigs, Config.sigValid (halves.drop 64) x.1 x.2 = true) : State.manifestSigned halves manifest = true := by
  have l : manifest.sigs.length = 2 := by decide +kernel
  obtain ⟨a, b, e⟩ : ∃ a b, manifest.sigs = [a, b] := by
    match h : manifest.sigs, l with
    | [a, b], _ => exact ⟨a, b, rfl⟩
  rw [e] at vendor owner
  have v := vendor a (by simp)
  have o := owner b (by simp)
  simp only [State.manifestSigned, e, v, o, Bool.and_self, Bool.true_or]
  decide +kernel

theorem test_wit_unblocked : (updating 2).bit R.UPD_LOCK_LOCK = false
    ∧ (List.finRange 6).all (fun f => !(updating 2).bit R.DRV_FEEDER_STAT_CLOSED f) = true ∧ (updating 2).chansOn = []
    ∧ (updating 2).chansOn.all (fun c => decide ((updating 2).chanOut c 0 = 0)) = true ∧ (updating 2).pwr.mode = .on ∧ (updating 2).pwr.vaux = true ∧ 80 ≤ (updating 2).fld R.PWR_STORE_PCT
    ∧ (updating 2).bit R.MET_STAT_OPEN = false ∧ (updating 2).switchPos = 0 ∧ (updating 2).updState = 2 := by
  repeat' apply And.intro
  all_goals decide +kernel

theorem test_wit_first_block : Blocked ((updating 2).setBit R.UPD_LOCK_LOCK true) 0 1 ∧ Blocked ((updating 2).setFld R.PWR_STORE_PCT 79) 0 4
    ∧ Blocked (updating 5) 0 7 := by
  refine ⟨?_, ?_, ?_⟩
  · show ((updating 2).setBit R.UPD_LOCK_LOCK true).bit R.UPD_LOCK_LOCK = true
    decide +kernel
  · show ((updating 2).setFld R.PWR_STORE_PCT 79).fld R.PWR_STORE_PCT < 80
    decide +kernel
  · show (updating 5).updState = 4 ∨ (updating 5).updState = 5
    decide +kernel

theorem test_wit_unblocked_all : Unblocked (updating 2) ((updating 2).atUs 900).nowNs ∧ Unblocked (updating 0) (updating 0).nowNs := by
  constructor <;> intro r <;> match r with
    | 0 => exact id
    | 1 | 2 | 3 | 4 | 5 | 6 | 7 => simp only [Blocked]; decide +kernel
    | n + 8 => exact id

theorem test_wit_first_of_two : FirstBlock ((updating 2).setFld R.PWR_STORE_PCT 79) 0 4 := by
  refine ⟨?_, fun q h => ?_⟩
  · simp only [Blocked]
    decide +kernel
  · match q, h with
    | 0, _ => exact id
    | 1, _ | 2, _ | 3, _ => simp only [Blocked]; decide +kernel

theorem test_wit_part : (updating 1).updState = 1 ∧ (updating 1).upd.manifest = some manifest ∧ manifest.parts[(updating 1).upd.got]? = some listed
    ∧ manifest.parts.length ≤ (updating 1).upd.got + 1 ∧ ([4, 4] : List Byte).length = listed.size
    ∧ ({ manifest with parts := [listed, listed] } : Manifest).parts.length > (updating 1).upd.got + 1
    ∧ WriteAccepted (updating 2) .sup 900 R.UPD_CTRL_ACTIVATE.addr 8 ∧ (updating 4).updState = 4
    ∧ WriteAccepted (updating 2) .sup 900 R.UPD_CTRL_ACTIVATE.addr 1 ∧ WriteAccepted (updating 4) .sup 900 R.UPD_CTRL_ACTIVATE.addr 2
    ∧ WriteAccepted (updating 4) .sup 900 R.UPD_CTRL_ACTIVATE.addr 4 := by
  repeat' apply And.intro
  all_goals decide +kernel

/-- All parts are in, and one blob is sealed under KEY[3], STORAGE. -/
def sealing : State :=
  let c : Option KeyCopy := some ⟨0, 1, true⟩
  let s := ((((updating 1).setKeySlot 3 { a := some (half 4 false 0 [3]), one := c, two := c, mat := some [3] }).setFld R.KEY_SLOT_STAT_STATE 1 3).setFld R.KEY_SLOT_CFG_TYPE 4 3).setFld R.KEY_SLOT_CFG_USAGE 127 3
  { s with upd := { s.upd with got := 1, blobs := [(3, [2], [3])] } }

theorem test_wit_seal_forward : sealing.upd.manifest = some manifest ∧ sealing.upd.got = manifest.parts.length ∧ sealing.updState = 1
    ∧ sealing.pwr.mode = .on ∧ sealing.predictedKey manifest.bmr 33 3 = some [3] ∧ sealing.keyUse 4 5 = (.auth, []) := by
  repeat' apply And.intro
  all_goals decide +kernel

theorem test_wit_lends : Lends sealing 3 5 [3] ∧ ¬ ∃ m, Lends sealing 4 5 m :=
  ⟨⟨by decide +kernel, by decide +kernel, by decide +kernel, by decide +kernel⟩, fun ⟨m, h, _⟩ => absurd h (by decide +kernel)⟩

/-- A control pause since frame 0 with the class A stores kept. -/
def pausing : State :=
  let s := (updating 3).setBit R.UPD_SLOT_TRIAL true
  { s with pwr := { s.pwr with paused := true }, upd := { s.upd with frozen := some ⟨[(5, 1)], [], []⟩ } }

theorem test_wit_pause : ({ updating 3 with fr := up.fr } : State).fr.phase = .emit ∧ (updating 3).pwr.paused = false ∧ (updating 3).flt.step = 0
    ∧ (updating 5).updState = 5 ∧ (updating 3).activeSlot ≤ 1 ∧ pausing.pwr.paused = true ∧ pausing.updState = 3 ∧ pausing.bit R.UPD_SLOT_TRIAL = true
    ∧ Due pausing (pausing.upd.pauseNs + 1200000000) ∧ Due (updating 4) (updating 4).upd.endNs ∧ pausing.upd.frozen = some ⟨[(5, 1)], [], []⟩
    ∧ [(5, (1 : Byte))].Pairwise (fun x y => x.1 < y.1) := by
  repeat' apply And.intro
  all_goals first | decide +kernel | (unfold Due; decide +kernel)

/-! ### Sessions and requests -/

/-- KEY[0] loaded, OWNER_CA and a service certificate key permitting VERIFY; the given states of sessions 0 to 7. -/
def hosting (st : Nat) : State :=
  let k (s : State) (n typ : Nat) : State :=
    ((((s.setKeySlot n { mat := some [BitVec.ofNat 8 n] }).setFld R.KEY_SLOT_STAT_STATE 1 n).setFld R.KEY_SLOT_CFG_TYPE typ n).setFld R.KEY_SLOT_CFG_USAGE 127 n)
  let s := k (k (k up 0 1) 2 2) 31 7
  (List.range 8).foldl (fun t i => t.setFld R.HOST_SESS_STATE st i) s

theorem test_wit_handshake : (hosting 0).hostRuns = true ∧ (hosting 0).keyMat 0 ≠ none ∧ (hosting 0).offered false false = true
    ∧ (hosting 0).keyPermits 31 7 1 = true ∧ (hosting 0).keyPermits 2 2 1 = true ∧ (hosting 0).keyMat 31 = some [31]
    ∧ ((hosting 0).setFld R.KEY_LIFECYCLE_STATE 1).fld R.KEY_LIFECYCLE_STATE = 1 := by
  repeat' apply And.intro
  all_goals decide +kernel

theorem test_wit_chains (sig : Config.sigValid [2] [8] [9] = true) : Chains (hosting 0) 2 2 [8] [9] :=
  ⟨by decide +kernel, [2], ⟨by decide +kernel, by decide +kernel, by decide +kernel, by decide +kernel⟩, sig⟩

/-- KEY[0] signs, and without it nothing does; an unknown suite and another curve end a handshake too. -/
theorem test_wit_signs : Signs (hosting 0) ∧ ¬ Signs ((hosting 0).setFld R.KEY_SLOT_STAT_STATE 2 0) ∧ (TlsSuite.aes128GcmSha256 ≠ .other) :=
  ⟨⟨[0], by decide +kernel, by decide +kernel, by decide +kernel, by decide +kernel⟩, fun ⟨m, h, _⟩ => absurd h (by decide +kernel), by decide⟩

def conn (service : Bool) : HostConn := ⟨9, service, false, 5, if service then 4 else 3, false, 7⟩

/-- A connection has shaken hands; session 0 is RESUMABLE with the token `tok`. -/
def greeting (st : Nat) (service : Bool) : State :=
  let s := hosting st
  let s := { s with host := { s.host with conns := [conn service] } }
  if st = 3 then s.setSess 0 { s.sess 0 with subject := 5, token := 77, endNs := 5 } else s

theorem test_wit_hello : (greeting 0 true).host.conns.find? (fun x => decide (x.conn = 9)) = some (conn true) ∧ (conn true).role ≤ 4
    ∧ (greeting 0 true).fp.lockNs = none ∧ ((greeting 0 true).atUs 900).resumeSlot (conn true) none = none ∧ (greeting 0 true).sessState 7 = 0
    ∧ (greeting 2 true).sessState 7 ≠ 0 ∧ (∀ j : Fin 7, (greeting 2 false).sessState j ≠ 0)
    ∧ ((greeting 2 false).setFld R.HOST_SESS_STATE 0 6).sessState 6 = 0
    ∧ (∀ j : Fin 7, j < 6 → ((greeting 2 false).setFld R.HOST_SESS_STATE 0 6).sessState j ≠ 0)
    ∧ ({ greeting 0 true with fp := { up.fp with lockNs := some 5 } } : State).fp.lockNs ≠ none := by
  repeat' apply And.intro
  all_goals decide +kernel

/-- A client with its token gets its session back; one with another token, or another subject, does not. -/
theorem test_wit_resume :
    let s := ((greeting 3 false).setSess 0 { (greeting 3 false).sess 0 with endNs := up.nowNs }).atUs 900
    s.resumeSlot (conn false) (some 77) = some 0 ∧ s.resumeSlot (conn false) (some 78) = none ∧ s.resumeSlot { conn false with subject := 6 } (some 77) = none
      ∧ s.resumeSlot (conn true) (some 77) = none := by
  repeat' apply And.intro
  all_goals decide +kernel

theorem test_wit_subscribe : Fresh sess7 7 0 1 false ∧ sess7.sessFeature 7 2 = true ∧ (sess7.setFld R.HOST_SESS_FEATURES 0 7).sessFeature 7 2 = false
    ∧ sess7.hostRuns = true ∧ sess7.sessState 7 = 2 ∧ Due sess7 ((sess7.sess 7).heardNs + sess7.fld R.HOST_CTRL_IDLE * 1000000000)
    ∧ (greeting 3 false).sessState 0 = 3 ∧ Due (greeting 3 false) (((greeting 3 false).sess 0).endNs + 60000000000)
    ∧ (hosting 1).sessState 7 = 1
    ∧ (({ up with evr := { up.evr with ops := { up.evr.ops with head := 1 } } } : State).evr.ops.head ≠ up.host.headSeen.1)
    ∧ Due up (up.host.headNs + 1000000000) := by
  repeat' apply And.intro
  all_goals first | decide +kernel | (unfold Due; decide +kernel)

/-- Peer 7 enabled in a state. -/
def peer (st : Nat) : State := ((hosting 0).setBit R.HOST_PEER_CFG_EN true 7).setFld R.HOST_PEER_STAT_STATE st 7

theorem test_wit_peer_links : (peer 2).hostRuns = true ∧ (peer 2).peerEn 7 = true ∧ (peer 2).peerState 7 = 2 ∧ (peer 0).peerState 7 ≠ 2
    ∧ (peer 2).keyMat 0 ≠ none ∧ Due (peer 2) (((peer 2).hostPeer 7).heardNs + 5000000000) ∧ Due (peer 0) (((peer 0).hostPeer 7).tryNs + 10000000000) := by
  repeat' apply And.intro
  all_goals first | decide +kernel | (unfold Due; decide +kernel)

theorem test_wit_peer_alive : (let s := peer 2
      ((s.hostPeer 7).aliveNs + 1000000000 ≤ (s.atUs 900).nowNs))
    ∧ (let s := (peer 2).setHostPeer 7 { (peer 2).hostPeer 7 with aliveNs := (peer 2).nowNs }
       (s.atUs 900).nowNs < (s.hostPeer 7).aliveNs + 1000000000) := by
  repeat' apply And.intro
  all_goals decide +kernel

theorem test_wit_pure_read : (sess7.atUs 900).readStatus (.gsp 7) 0xA0000 = .ok ∧ State.latches 0xA0000 = [] ∧ 0xA0000 ≠ R.HOST_SESS_REQ_ID.at 7 0 := by
  repeat' apply And.intro
  all_goals decide +kernel

theorem test_wit_reg_requests : Fresh sess7 7 65535 1 true ∧ (sess7.atUs 900).readStatus (.gsp 7) 0xAFFFC ≠ .ok
    ∧ (sess7.atUs 900).writeStatus (.gsp 7) 0xA0000 1 = .ok ∧ (sess7.atUs 900).unitWrite (.gsp 7) 0xA0000 1 = none ∧ (findReg 0xA0000).isSome = true
    ∧ State.classAReg 0xA0000 = false ∧ (sess7.atUs 900).writeStatus (.gsp 7) R.RAD_LINK_EVT_DROP.addr 1 = .ok
    ∧ (sess7.atUs 900).unitWrite (.gsp 7) R.RAD_LINK_EVT_DROP.addr 1 = none ∧ (sess7.atUs 900).writeStatus (.gsp 7) 0xA0001 1 ≠ .ok := by
  repeat' apply And.intro
  all_goals decide +kernel

/-- Session 7 with a transaction open. -/
def inTxn : State := (sess7.setSess 7 { sess7.sess 7 with txn := some ⟨1, [], 0⟩ }).setBit R.HOST_SESS_TXN_OPEN true 7

theorem test_wit_txn : Fresh sess7 7 65535 2 false ∧ sess7.sessFeature 7 1 = true ∧ (sess7.sess 7).txn = none ∧ (inTxn.sess 7).txn = some ⟨1, [], 0⟩
    ∧ (sess7.setFld R.HOST_SESS_FEATURES 0 7).sessFeature 7 1 = false ∧ Fresh inTxn 7 65535 2 false := by
  repeat' apply And.intro
  all_goals decide +kernel

theorem test_wit_txn_write : State.hasWo R.RTC_SET_DATE.addr = true ∧ State.hasWo 0xA0000 = false ∧ (inTxn.atUs 900).writeStatus (.gsp 7) 0xA0000 1 = .ok
    ∧ State.perRequester 0xA0000 = false ∧ State.hasWo 0xA0001 = false ∧ (inTxn.atUs 900).writeStatus (.gsp 7) 0xA0001 1 ≠ .ok
    ∧ State.perRequester 0xD0204 = true ∧ State.hasWo 0xD0204 = false ∧ (inTxn.atUs 900).writeStatus (.gsp 7) 0xD0204 1 = .ok
    ∧ Due inTxn (0 + 60000000000) ∧ inTxn.sessFeature 7 1 = true := by
  repeat' apply And.intro
  all_goals first | decide +kernel | (unfold Due; decide +kernel)

/-- Session 7 in its transaction at protocol version 3. -/
def inTxn3 : State := (inTxn.setFld R.HOST_SESS_VERSION 3 7).setFld R.HOST_SESS_FEATURES 7 7

theorem test_wit_txn_version : Fresh inTxn3 7 65535 1 true ∧ inTxn3.sessFeature 7 1 = true ∧ (inTxn3.sess 7).txn = some ⟨1, [], 0⟩
    ∧ isRegister R.FLOW_CTRL_RUN.addr = true ∧ (inTxn3.atUs 900).versionRefused (.gsp 7) R.FLOW_CTRL_RUN.addr 1 = true
    ∧ State.hasWo R.RTC_SET_DATE.addr = true ∧ (inTxn3.atUs 900).versionRefused (.gsp 7) R.RTC_SET_DATE.addr 1 = false := by
  repeat' apply And.intro
  all_goals first | decide +kernel | (unfold Fresh; decide +kernel)

theorem test_wit_txn_full : Fresh inTxn 7 65535 1 true
    ∧ ((inTxn.setSess 7 { inTxn.sess 7 with txn := some ⟨1, List.replicate 4096 (4, 5), 0⟩ }).sess 7).txn = some ⟨1, List.replicate 4096 (4, 5), 0⟩
    ∧ (List.replicate 4096 (4, (5 : Word))).length = 4096 ∧ (List.replicate 4095 (4, (5 : Word))).length < 4096 := by
  refine ⟨by unfold Fresh; decide +kernel, rfl, ?_, ?_⟩ <;> simp only [List.length_replicate] <;> decide

theorem test_wit_log_read : Fresh sess7 7 0 1 false ∧ sess7.ready 7 = true ∧ sess7.sessRole 7 = 3 ∧ (sess7.setFld R.HOST_SESS_ROLE 2 7).sessRole 7 ≠ 3
    ∧ Fresh (sess7.setFld R.HOST_SESS_ROLE 2 7) 7 0 1 false ∧ (sess7.wr 4 0x3FF7F).ready 7 = false := by
  repeat' apply And.intro
  all_goals decide +kernel

/-- Lanterns 0 and 1 are commissioned, lantern 1 with LAP 2. -/
def lit : State := { sess7 with fmem := [(1, 0x40), (0x81, 0x40), (0x82, 2)] }

theorem test_wit_lantern_cmd : Fresh lit 7 0 2 false ∧ recComm lit.fmem 0 = true ∧ recComm lit.fmem 2 = false ∧ lit.sessVersion 7 = 4 ∧ (2 : Nat) < lit.part.lanterns
    ∧ (lit.setFld R.HOST_SESS_VERSION 3 7).sessVersion 7 = 3 ∧ State.openCode 0x20 = true ∧ State.openCode 0x04 = false ∧ lit.lapOf 0 = 3 ∧ lit.lapOf 1 = 2
    ∧ lit.outstanding = 0 ∧ (lit.leaf 0).cmds = []
    ∧ ((lit.setLeaf 0 { lit.leaf 0 with cmds := List.replicate 4 ⟨1, 0x20, [], 0, none, 0, 0, 0⟩ }).leaf 0).cmds.length = 4 := by
  repeat' apply And.intro
  all_goals decide +kernel

/-- Session 7 receives the bytes of a request of 4 bytes, two of them here. -/
def receiving (op : Nat) : State :=
  let s := (updating 1).setFld R.HOST_WINDOW_KIB 64
  s.setSess 7 { s.sess 7 with running := [9], streams := [⟨9, op, 4, [1, 2], [], 4⟩] }

theorem test_wit_segment : (receiving 0x32).hostRuns = true ∧ (receiving 0x32).sessState 7 = 2
    ∧ ((receiving 0x32).sess 7).streams.find? (fun y => decide (y.id = 9)) = some ⟨9, 0x32, 4, [1, 2], [], 4⟩
    ∧ 9 ∉ ((receiving 0x32).sess 7).repeated ∧ (receiving 0x32).updState = 1 ∧ (receiving 0x32).upd.manifest = some manifest
    ∧ manifest.parts[(receiving 0x32).upd.got]? = some listed ∧ (4 : Nat) ≠ listed.size ∧ ((receiving 0x32).setFld R.UPD_STATE_STATE 0).updState ≠ 1 := by
  repeat' apply And.intro
  all_goals decide +kernel

theorem test_wit_segment_ends : (receiving 0x30).bit R.HOST_SESS_DTLS 7 = false
    ∧ (let s := ((receiving 0x30).setImage 63 { ({} : Image) with session := 7, reqId := 9 }).setFld R.LTAB_IMG_STATE 1 63; s.imgOfRequest 7 9 = some 63) := by
  repeat' apply And.intro
  all_goals decide +kernel

/-- Where the clauses meet: the grant, the place, the half window. -/
theorem test_wit_segment_bounds :
    let x : HostStream := ⟨9, 0x30, 200000, List.replicate 32768 1, [], 65536⟩
    (x.granted = 65536 ∧ 65535 + 1 ≤ x.granted ∧ x.granted < 65535 + 2) ∧ x.bytes.length < 32769
      ∧ ¬ x.bytes.length + 65536 / 2 < x.granted ∧ x.granted ≤ (x.bytes.length + 1) + 65536 / 2 ∧ (x.bytes.length - 1) + 65536 / 2 < x.granted := by
  simp only [List.length_replicate]
  decide

/-! ### Panel -/

theorem test_wit_fp_sample : up.pwr.mode = .on ∧ up.ready 6 = true ∧ up.fp.started = false := by
  repeat' apply And.intro
  all_goals decide +kernel

/-- A key active for 30 s, a completed hold on a page, the lamp test, the display on and quiet for its minutes, a lockout. -/
def panel (page : Nat) : State :=
  let s := ((up.setFld R.FP_PAD_CFG_HOLD 20).setFld R.FP_STAT_PAGE page).setBit R.FP_STAT_DISPLAY true
  let s := { s with fp := { s.fp with held := some 2000, lampEnd := some 5, lockNs := some 6, quiet := 600000, wrongNs := [6] } }
  (s.setFpInput 6 { ({} : FpInput) with active := 30000 }).setFld R.FP_CFG_BLANK 10

theorem test_wit_panel : (panel 3).pwr.mode = .on ∧ (panel 3).ready 6 = true ∧ 30000 ≤ ((panel 3).fpInput 6).active
    ∧ ((panel 3).fld R.FP_STUCK_STUCK).testBit 6 = false ∧ (panel 3).fp.held = some 2000 ∧ (panel 3).fld R.FP_PAD_CFG_HOLD * 100 ≤ 2000
    ∧ (panel 3).fld R.FP_STAT_PAGE = 3 ∧ (panel 4).fld R.FP_STAT_PAGE = 4 ∧ (panel 3).fp.lampEnd = some 5 ∧ Due (panel 3) 5
    ∧ (panel 3).bit R.FP_STAT_DISPLAY = true ∧ (panel 3).fld R.FP_CFG_BLANK * 60000 ≤ (panel 3).fp.quiet ∧ (panel 3).fp.lockNs = some 6 ∧ Due (panel 3) 6 := by
  repeat' apply And.intro
  all_goals first | decide +kernel | (unfold Due; decide +kernel)

theorem test_wit_display : (panel 3).fp.refreshNs + 200000000 ≤ ((panel 3).atUs 900).nowNs ∧ sess7.sessState 7 = 2 ∧ sess7.pwr.mode = .on := by
  repeat' apply And.intro
  all_goals decide +kernel

theorem test_wit_pin : WriteAccepted up .sup 900 R.FP_PIN_SET_PIN.addr 999999 ∧ 999999 < getBits 1000000 0 20
    ∧ (let s := { (up.setFld R.HOST_SESS_STATE 1 7) with fp := { up.fp with entry := some 5 } }
       s.fp.entry = some 5 ∧ s.sessState 7 = 1 ∧ s.fp.submitted = false ∧ Due s (5 + 60000000000)) ∧ up.sessState 7 = 0 := by
  repeat' apply And.intro
  all_goals first | decide +kernel | (unfold Due; decide +kernel)

/-! ### Faults and the machine -/

/-- Class 8 is in service, with a queue, an entry to GARNET at a step and two entries in the last hour. -/
def faulty (step : Nat) (queue : List FaultRec) : State :=
  { up with flt := { up.flt with cur := some ⟨8, 1, [0]⟩, queue := queue, step := step, entries := [1699999999000000000, 1699999998000000000] } }

theorem test_wit_faults : up.trxReady 1 = true ∧ up.pwr.mode ≠ .onyx ∧ up.pwr.paused = false ∧ up.flt.cur = none ∧ (inOnyx none).pwr.mode = .onyx
    ∧ (faulty 0 []).flt.cur = some ⟨8, 1, [0]⟩ ∧ up.flt.hot = false
    ∧ ({ up with flt := { up.flt with hot := true } } : State).flt.hot = true ∧ up.bit R.DRV_STAT_THERM_LATCH = false
    ∧ (up.setBit R.ICU_SRC_STAT_INSVC true 7).bit R.ICU_SRC_STAT_INSVC 7 = true ∧ Due (faulty 6 []) ((faulty 6 []).flt.sinceNs + 20000000)
    ∧ (∃ q ∈ (faulty 0 [⟨6, 1, []⟩]).flt.queue, q.cls = 6) ∧ (faulty 0 (List.replicate 4 ⟨3, 1, []⟩)).flt.queue.length = 4
    ∧ 2 ≤ ((faulty 0 []).flt.entries.filter (fun x => decide ((faulty 0 []).nowNs < x + 3600000000000))).length := by
  repeat' apply And.intro
  all_goals first | decide +kernel | (unfold Due; decide +kernel)

theorem test_wit_garnet : (faulty 1 []).pwr.mode = .on ∧ (faulty 1 []).flt.step = 1 ∧ (faulty 5 []).flt.step = 5
    ∧ ((faulty 1 []).setFld R.ROD_FLT_GARNET_FIRST 1).garnetMem = true ∧ (faulty 1 []).garnetMem = false
    ∧ (up.setBit R.ROD_FLT_STAT_HOLD true).bit R.ROD_FLT_STAT_HOLD = true ∧ up.bit R.ROD_FLT_STAT_HOLD = false ∧ up.updState ≠ 5
    ∧ WriteAccepted up .sup 900 R.ROD_FLT_CTRL_ACK.addr 1 ∧ WriteAccepted up .sup 900 R.ROD_FLT_CTRL_ACK.addr 2 := by
  repeat' apply And.intro
  all_goals decide +kernel

theorem test_wit_step : ({ up with pending := [.lampTestEnd] } : State).pending = .lampTestEnd :: [] ∧ State.reset.pending = [] := by
  repeat' apply And.intro
  all_goals decide +kernel

theorem test_wit_frames_run : FramesRun State.reset ∧ FramesRun up := by
  unfold FramesRun
  decide +kernel

theorem test_step_next : ∃ t, step { up with pending := [.lampTestEnd] } = .next t := ⟨_, rfl⟩

/-! ### Conditions where clauses meet -/

/-- 03 R84: a field outside the grant, and one beyond the record. -/
theorem test_wit_lane_refused : let m := (runningI {}).mpi ((runningI {}).bead 3)
    (∃ i : Fin 4, m.granted 2 0 (0x10 + i) = false ∨ 64 ≤ 0x10 + i.val) ∧ (∃ i : Fin 4, m.granted 2 1 (0x40 + i) = false ∨ 64 ≤ 0x40 + i.val)
      ∧ (∃ i : Fin 4, m.granted 2 1 (0x1E + i) = false ∨ 64 ≤ 0x1E + i.val) := by
  refine ⟨⟨0, ?_⟩, ⟨0, ?_⟩, ⟨0, ?_⟩⟩
  all_goals decide +kernel

/-- 04 R477: the bead that HALT ends was started for a claim that is in service. -/
theorem test_wit_unserved : let s := (claimed 0).setFld R.ROD_BEAD_STATE_CLASS 1 3
    Issues s 0 3 ∧ (s.fld R.ROD_BEAD_STATE_CLASS 3 = 1 ∧ (s.rod 0).handler = some (3 % 64) ∧ (s.target 0).svc ≠ none)
      ∧ (running {}).fld R.ROD_BEAD_STATE_CLASS 3 ≠ 1 := by
  repeat' apply And.intro
  all_goals decide +kernel

/-- ONYX entered with a bar in progress. -/
def onyxBar (warm : Bool) : State :=
  { inPhase .bar with pwr := { up.pwr with mode := .onyx, vaux := warm, warmWait := warm, task := some 1 } }

theorem test_wit_onyx_bar : (inPhase .bar).pwr.mode = .on ∧ (inPhase .bar).fr.phase = .bar ∧ (onyxBar false).pwr.mode = .onyx ∧ (onyxBar false).fr.phase = .bar
    ∧ (onyxBar false).pwr.warmWait = false ∧ (onyxBar true).pwr.vaux = true ∧ (onyxBar true).pwr.mode ≠ .on ∧ (inOnyx none).pwr.vaux = false
    ∧ (inOnyx none).pwr.task = none ∧ (inOnyx none).fr.phase = .stopped ∧ FramesRun (onyxBar false) := by
  unfold FramesRun
  repeat' apply And.intro
  all_goals decide +kernel

theorem test_wit_flow_missed : let s := { up.setBit R.FLOW_CTRL_RUN true with flow := { up.flow with busy := true } }
    s.ready 9 = true ∧ s.flow.busy = true ∧ s.bit R.FLOW_CTRL_RUN = true ∧ s.fr.phase ≠ .stopped ∧ s.halted = false := by
  repeat' apply And.intro
  all_goals decide +kernel

/-- The launch queue has room for a class 2 item, and has none when 16 wait. -/
theorem test_wit_class_room : let i : DownItem := ⟨2, false, 99, .cmd 0x20 1 [], 30, 0, false⟩
    let e : TlqEntry := ⟨up.fr.edgeNs, 2, 1, 3, 5, true, 30, 0, 7, none, i, 0, false⟩
    (radio.atUs 900).classRoom 1 i = true ∧ ((radio.setTlq 1 (List.replicate 16 e)).atUs 900).classRoom 1 i = false := by
  repeat' apply And.intro
  all_goals decide +kernel

theorem test_wit_agate_write : WriteAccepted up .sup 900 R.RAD_AGATE_DEMOD.addr 5 ∧ up.bit R.PWR_STAT_STATE = false := by
  repeat' apply And.intro
  all_goals decide +kernel

/-- A shut-down that has had its three retries, a switch that moves while DRV does not run. -/
theorem test_wit_no_retry : ({ cooling 3 with drv := { (cooling 3).drv with noRetry := true } } : State).drv.noRetry = true ∧ (cooling 2).drv.noRetry = false
    ∧ (inOnyx none).drvRuns = false ∧ (inOnyx none).switchPos ≠ (2 : Fin 3).val ∧ up.drvRuns = false ∧ (inOnyx none).pwr.mode ≠ .on := by
  repeat' apply And.intro
  all_goals decide +kernel

/-- AOUT 1 with its loop OPEN; a configuration register of a loop in control. -/
theorem test_wit_loop_locks : (∀ l : Fin 4, l.val ≠ 0 → (loop3 0 false).fld R.LCE_CFG_OUTSEL l = (1 : Fin 2) + 1 → (loop3 0 false).loopState l = 0)
    ∧ (loop3 1 false).asks .sup = true ∧ ((loop3 1 false).atUs 900).writeStatus .sup (R.LCE_CTRL_CLOSE.at 3 0 + 4 * 36) 7 = .locked
    ∧ (loop3 1 false).unitReady (R.LCE_CTRL_CLOSE.at 3 0 + 4 * 36) = true ∧ isRegister (R.LCE_CTRL_CLOSE.at 3 0 + 4 * 36) = true
    ∧ fitStatus (loop3 1 false).part (R.LCE_CTRL_CLOSE.at 3 0 + 4 * 36) = .ok := by
  repeat' apply And.intro
  all_goals decide +kernel

/-- 11 R320: the value written shows, whether a loop selects the output or none does. -/
theorem test_aout_man : (match exec (.lceAoutManWrite .sup 900 1 77) (loop3 0 false) with | .next t => (t.fld R.LCE_AOUT_MAN_CODE 1, t.fld R.LCE_AOUT_CODE 1) | _ => (0, 0)) = (77, 77)
    ∧ (match exec (.lceAoutManWrite .sup 900 0 78) (loop3 0 false) with | .next t => (t.fld R.LCE_AOUT_MAN_CODE 0, t.fld R.LCE_AOUT_CODE 0) | _ => (0, 0)) = (78, 78) := by
  repeat' apply And.intro
  all_goals decide +kernel

/-- 19 R423: a message as it is sent is read back; one of an unknown TYPE, and one cut short, cannot be parsed. -/
theorem test_gsp_message : readGsp false (gspBytes false ⟨3, 70000, 4, cborArray []⟩) = some ⟨3, 70000, 4, cborArray []⟩
    ∧ readGsp true (gspBytes true ⟨3, 70000, 4, cborArray []⟩) = some ⟨3, 70000, 4, cborArray []⟩
    ∧ readGsp false (gspBytes false ⟨9, 70000, 4, cborArray []⟩) = none ∧ readGsp false ((gspBytes false ⟨3, 70000, 4, cborArray []⟩).dropLast) = none := by
  repeat' apply And.intro
  all_goals decide +kernel

/-- 19 R427: the last segment, with and without FINAL where it ends; one that says FINAL too early. -/
theorem test_wit_final : let x : HostStream := ⟨9, 0x32, 4, [1, 2], [], 4⟩
    (2 + 2 = x.len) ∧ ¬ (true = true → 2 + 1 = x.len) ∧ (false = true → 2 + 1 = x.len) ∧ ([3, 4] : List Byte).length ≤ 1024
      ∧ 9 ∈ ((receiving 0x32).sess 7).running ∧ ((receiving 0x30).bit R.HOST_SESS_DTLS 7) = false := by
  repeat' apply And.intro
  all_goals first | decide +kernel | simp

/-! ### Ill-formed commands, one for each check -/

def ill : List Instr :=
  [.shl 0 1 1 2 3, .shr 0 1 1 31 31, .sar 0 1 1 1 1, .vcmp 0 0 1 (.vec 2) 1 0, .ldf 0 16 1 3 0, .stf 0 31 1 3 0, .ldi 0 16 1 3 0, .sti 0 16 1 3 0,
   .lset 0 0 0 1 false 0, .lset 0 0 0 0 false 0x400, .lset 0 0 1 0 false 0, .lset 0 0 1 31 false 0, .lset 0 0 2 0 false 0x40, .lset 0 0 3 0 false 0x1000,
   .lset 0 0 4 0 false 0x4000, .lset 0 0 5 0 false 1, .lnext 0 1 0 1, .ltg 0 1 2 1 0 3 false, .ltg 0 1 2 1 2 2 false, .lts 0 1 2 1 1 1, .calFields 0 0 1,
   .calFields 0 31 1, .calDue 0 1 2 0x1000, .post 0 1 2 3 0x20 57, .br 0 0, .brc 0 3 0, .loop 0 1 2 0, .raise 0 1 1]

theorem test_ill_formed_words : ill.all (fun i => !i.wordOk) = true := by decide +kernel

theorem test_ill_formed_inputs :
    (Instr.frameEdge ⟨5000, 3300, 25, 40, [0, 0, 0]⟩ 0 []).wellFormed = false ∧ (Instr.frameEdge ⟨5000, 3300, 25, 40, [0, 0, 0, 0]⟩ 0 [0x300000]).wellFormed = false
    ∧ (Instr.flowUpdate 0 [262144]).wellFormed = false ∧ (Instr.barOpen [1024]).wellFormed = false
    ∧ (Instr.radioFrameReceive false { frame true (.short 3) with demod := 8 } 900).wellFormed = false ∧ (Instr.loopSample 3 900 ⟨[0], 0, 0⟩).wellFormed = false
    ∧ (Instr.statusReport 3 900 1 ⟨65536, 0, 0, 0, 0, none, none, true⟩).wellFormed = false
    ∧ (Instr.islandSecond ⟨[0, 0], [0, 0, 0], 0, [], []⟩).wellFormed = false ∧ (Instr.registerWrite .sup 900 0x1000000 1).wellFormed = false := by
  repeat' apply And.intro
  all_goals decide +kernel

theorem test_well_formed : (Instr.shl 0 1 1 0 31).wellFormed = true ∧ (Instr.lset 0 0 1 30 true 0).wellFormed = true ∧ (Instr.lts 0 1 2 1 126 1).wellFormed = true
    ∧ (Instr.radioFrameReceive true (frame true (.short 3)) 900).wellFormed = true ∧ (Instr.raise 0 0 63).wellFormed = true := by
  repeat' apply And.intro
  all_goals decide +kernel

/-! ### Words written out from the encoding tables of 03 (R72, R74) -/

theorem test_words_scalar : marricInstr 2 5 .quiet 0x04A63BCC 0 = some (.mulq 2 5 6 7 15) ∧ marricInstr 2 5 .quiet 0x04221800 0 = some (.add 2 1 2 3)
    ∧ marricInstr 2 5 .quiet 0x04221801 0 = some (.sub 2 1 2 3) ∧ marricInstr 2 5 .quiet 0x0C221234 0 = some (.andi 2 1 2 0x1234)
    ∧ marricInstr 2 5 .quiet 0x10221234 0 = some (.ori 2 1 2 0x1234) ∧ marricInstr 2 5 .quiet 0x14221234 0 = some (.xori 2 1 2 0x1234)
    ∧ marricInstr 2 5 .quiet 0 0 = none := by
  repeat' apply And.intro
  all_goals decide +kernel

theorem test_words_vector : marricInstr 2 5 .quiet 0x80221810 0 = some (.vadd 2 1 2 (.vec 3) 1 false)
    ∧ marricInstr 2 5 .quiet 0x80229810 0 = some (.vadd 2 1 2 (.bcast 3) 1 false) ∧ marricInstr 2 5 .quiet 0x80411908 0 = some (.vcmp 2 2 1 (.vec 3) 0 4)
    ∧ marricInstr 2 5 .quiet 0x40698040 0 = some (.ldf 2 3 9 2 64) ∧ marricInstr 2 5 .quiet 0x60200010 5 = some (.lset 2 1 0 0 true 5) := by
  repeat' apply And.intro
  all_goals decide +kernel

theorem test_words_flow : marricInstr 2 5 .quiet 0xA0800005 0 = some (.time 2 4 5 5) ∧ marricInstr 2 5 .quiet 0xC40201F4 0 = some (.tlb 2 2 500)
    ∧ marricInstr 2 5 .quiet 0xE8001203 0 = some (.loop 2 0 9 3) ∧ marricInstr 2 5 .quiet 0xF0000002 0 = some (.evwait 2) := by
  repeat' apply And.intro
  all_goals decide +kernel

/-! ### Examples of the spec -/

/-- 01, after R28: the QG-CM16K-MEX reads SYS_IDENT = 0x1105_B103. -/
theorem test_ident_example : State.reset.rd 0 = 0x1105B103 := by decide +kernel

/-- 03, after R78: 0.75 times 3.0 is 2.25; 32,767.0 times 4.0 saturates and sets SAT. -/
theorem test_mulq_example :
    (match exec (.mulq 0 5 6 7 16) (running { s := [(6, 0xC000), (7, 0x30000)] }) with | .next t => (t.bead 3).rs 5 | _ => 0) = 0x24000
    ∧ (match exec (.mulq 0 5 6 7 16) (running { s := [(6, 0x7FFF0000), (7, 0x40000)] }) with | .next t => ((t.bead 3).rs 5, (t.bead 3).sat) | _ => (0, false))
        = (0x7FFFFFFF, true) := by
  repeat' apply And.intro
  all_goals decide +kernel

/-- 08, after R236: a 120-octet PSDU at 150 kbit/s with an 8-octet preamble keeps its transceiver from 733.3 µs before its D to
6,706.7 µs after. -/
theorem test_launch_example :
    let e : TlqEntry := { due := 1000000000, cls := 0, mode := 2, chan := 0, power := 0, cca := false, octets := 120, tries := 0, seq := 0, retryNs := none, item := item 5 }
    up.launchSpan e 1000000000 = (1000000000 - 733333, 1000000000 + 6706666) := by decide +kernel

/-- 07, after R188: LIDs 4,117 to 4,124 at 6,000 with 400 ms are the RUN block 15 50 08 90 01 70 17. -/
theorem test_run_block_example : lap3Blocks 8 ((List.range 8).map (fun i => ⟨4117 + i, 6000, 400⟩)) = [[0x15, 0x50, 8, 0x90, 1, 0x70, 0x17]] := by
  decide +kernel

end Sys2Proof.Tests
end

section
/-! SUPPORT. The new module (log entry 2): its key slots, and the statement about what its registers read. -/

namespace Sys2Proof.Machine

open Claims

theorem FramesRun_reset : FramesRun State.reset := ⟨fun h => PMode.noConfusion h, fun h => absurd rfl h⟩

/-- Both copies of a factory slot's commit record name its first half (17 R390). -/
theorem winner_factorySlot (typ usage : Nat) (mat : List Byte) :
    (factorySlot typ usage mat).winner = some (0, ⟨typ, usage, 0, false, [], 1, 1, mat, true⟩) := rfl

theorem find_factoryKeys (k : Nat) :
    SMap.find {} factoryKeys k = {} ∧ k ∉ [0, 1, 3] ∨
      k ∈ [0, 1, 3] ∧ ∃ typ usage mat, SMap.find {} factoryKeys k = factorySlot typ usage mat := by
  by_cases hk : k ∈ [0, 1, 3]
  · simp only [List.mem_cons, List.not_mem_nil, or_false] at hk
    rcases hk with rfl | rfl | rfl <;> exact .inr ⟨by decide, _, _, _, rfl⟩
  · refine .inl ⟨?_, hk⟩
    simp only [List.mem_cons, List.not_mem_nil, or_false, not_or] at hk
    simp [factoryKeys, SMap.find, hk]

theorem winner_keySlot_reset (k : Nat) : (State.reset.keySlot k).winner ≠ none ↔ k ∈ [0, 1, 3] := by
  rcases find_factoryKeys k with ⟨h, hk⟩ | ⟨hk, typ, usage, mat, h⟩
  · have hempty : ({} : KeySlot).winner = none := rfl
    simp [State.keySlot, State.reset, h, hk, hempty]
  · simpa [State.keySlot, State.reset, h, winner_factorySlot] using hk

/-- Settles O58: no register differs from its reset value, so each reading is one evaluation of the tables. -/
theorem resetValues : Obligations.ResetValues := by
  refine ⟨FramesRun_reset, rfl, rfl, rfl, ?words, ?ready, ?priority, ?cap, ?activation, fun k => winner_keySlot_reset k⟩
  case words => decide +kernel
  case ready => decide +kernel
  case priority => decide +kernel
  case cap => decide +kernel
  case activation => decide +kernel

end Sys2Proof.Machine
end

section
/-! SUPPORT. Every command at once: each answers a next state, hardly any changes the skeleton of the state, and none the queue or the
part (95_what_each_step_holds.md). -/

namespace Sys2Proof.Machine

open State

/-- The commands that can change what the skeleton holds: those of the supplies, the phases of a frame, an update's control pause and
steps of module time. -/
def movesSkel : Instr → Bool
  | .vauxValid .. | .vauxLost .. | .lastTaskComplete .. | .onyxDeadline | .storeLost | .vbkpLost | .vbkpValid | .frameEdge ..
  | .execStart | .barOpen .. | .barComplete .. | .appDomainReset .. | .controlPause | .updateResume .. | .timeStep .. => true
  | _ => false

/-- Every other command answers a next state with the skeleton that it found. -/
theorem exec_skel (s : State) : ∀ c : Instr, movesSkel c = false → Out.is (exec c s) s.skel
  -- Power, frame engine and registers
  | .functionReady .., _ => execFunctionReady_skel .. | .storeChargeEnd .., _ => execStoreChargeEnd_skel ..
  | .pwrReqWrite .., _ => execPwrReqWrite_skel .. | .portAccessComplete .., _ => execPortAccessComplete_skel ..
  | .budgetAbort .., _ => execBudgetAbort_skel .. | .accessReplay .., _ => execAccessReplay_skel ..
  | .barOverrun, _ => execBarOverrun_skel .. | .downlinkOffer .., _ => execDownlinkOffer_skel ..
  | .beadStart .., _ => execBeadStart_skel .. | .beadStop .., _ => execBeadStop_skel .. | .beadReset .., _ => execBeadReset_skel ..
  | .rodAdmitLimitWrite .., _ => execRodAdmitLimitWrite_skel .. | .registerWrite .., _ => execRegisterWrite_skel ..
  | .rclrRead .., _ => execRclrRead_skel .. | .loLatchRead .., _ => execLoLatchRead_skel .. | .ntuTimeRead .., _ => execNtuTimeRead_skel ..
  | .rtcDateRead .., _ => execRtcDateRead_skel ..
  -- Marric instructions, issued by the bead now current on rod `r` (03)
  | .add .., _ => execAdd_skel .. | .sub .., _ => execSub_skel .. | .and .., _ => execAnd_skel .. | .or .., _ => execOr_skel ..
  | .xor .., _ => execXor_skel .. | .shl .., _ => execShl_skel .. | .shr .., _ => execShr_skel .. | .sar .., _ => execSar_skel ..
  | .min .., _ => execMin_skel .. | .max .., _ => execMax_skel .. | .adds .., _ => execAdds_skel .. | .subs .., _ => execSubs_skel ..
  | .mulq .., _ => execMulq_skel .. | .macq .., _ => execMacq_skel .. | .divq .., _ => execDivq_skel .. | .abs .., _ => execAbs_skel ..
  | .clamp .., _ => execClamp_skel .. | .sel .., _ => execSel_skel .. | .cmp .., _ => execCmp_skel .. | .mov .., _ => execMov_skel ..
  | .addi .., _ => execAddi_skel .. | .andi .., _ => execAndi_skel .. | .ori .., _ => execOri_skel .. | .xori .., _ => execXori_skel ..
  | .shli .., _ => execShli_skel .. | .shri .., _ => execShri_skel .. | .sari .., _ => execSari_skel .. | .cmpi .., _ => execCmpi_skel ..
  | .liShort .., _ => execLiShort_skel .. | .lui .., _ => execLui_skel .. | .liLong .., _ => execLiLong_skel ..
  | .tli .., _ => execTli_skel .. | .vadd .., _ => execVadd_skel .. | .vsub .., _ => execVsub_skel .. | .vmulq .., _ => execVmulq_skel ..
  | .vmacq .., _ => execVmacq_skel .. | .vmin .., _ => execVmin_skel .. | .vmax .., _ => execVmax_skel ..
  | .vclamp .., _ => execVclamp_skel .. | .vsel .., _ => execVsel_skel .. | .vcmp .., _ => execVcmp_skel ..
  | .vredSum .., _ => execVredSum_skel .. | .vredMin .., _ => execVredMin_skel .. | .vredMax .., _ => execVredMax_skel ..
  | .ldf .., _ => execLdf_skel .. | .stf .., _ => execStf_skel .. | .ldi .., _ => execLdi_skel .. | .sti .., _ => execSti_skel ..
  | .portrd .., _ => execPortrd_skel .. | .portwr .., _ => execPortwr_skel .. | .lset .., _ => execLset_skel ..
  | .lnext .., _ => execLnext_skel .. | .ltg .., _ => execLtg_skel .. | .lts .., _ => execLts_skel .. | .time .., _ => execTime_skel ..
  | .calFields .., _ => execCalFields_skel .. | .calDue .., _ => execCalDue_skel .. | .sun .., _ => execSun_skel ..
  | .sunev .., _ => execSunev_skel .. | .flowrd .., _ => execFlowrd_skel .. | .flowdet .., _ => execFlowdet_skel ..
  | .lvl .., _ => execLvl_skel .. | .tlb .., _ => execTlb_skel .. | .post .., _ => execPost_skel .. | .drvset .., _ => execDrvset_skel ..
  | .tally .., _ => execTally_skel .. | .br .., _ => execBr_skel .. | .brc .., _ => execBrc_skel .. | .loop .., _ => execLoop_skel ..
  | .call .., _ => execCall_skel .. | .ret .., _ => execRet_skel .. | .evwait .., _ => execEvwait_skel .. | .eoi .., _ => execEoi_skel ..
  | .halt .., _ => execHalt_skel .. | .nop .., _ => execNop_skel .. | .raise .., _ => execRaise_skel .. | .fault .., _ => execFault_skel ..
  -- Event delivery (04)
  | .icuDispatch .., _ => execIcuDispatch_skel .. | .moderationExpire .., _ => execModerationExpire_skel ..
  | .icuSwsetWrite .., _ => execIcuSwsetWrite_skel .. | .icuSrcCfgWrite .., _ => execIcuSrcCfgWrite_skel ..
  -- Images and tables (05)
  | .imageLoad .., _ => execImageLoad_skel .. | .imageVerify .., _ => execImageVerify_skel ..
  | .imageActivate .., _ => execImageActivate_skel .. | .imageDeactivate .., _ => execImageDeactivate_skel ..
  | .imageUnload .., _ => execImageUnload_skel .. | .imageActivateTimeout .., _ => execImageActivateTimeout_skel ..
  | .imageReverify .., _ => execImageReverify_skel .. | .ltabDataWrite .., _ => execLtabDataWrite_skel ..
  | .configSave .., _ => execConfigSave_skel ..
  -- Flow reckoner (06)
  | .flowUpdate .., _ => execFlowUpdate_skel .. | .flowUpdateComplete .., _ => execFlowUpdateComplete_skel ..
  | .flowApply, _ => execFlowApply_skel .. | .flowClear, _ => execFlowClear_skel .. | .flowRunWrite .., _ => execFlowRunWrite_skel ..
  | .flowXchgReceive .., _ => execFlowXchgReceive_skel .. | .peerLost .., _ => execPeerLost_skel ..
  -- Segment and tally (07)
  | .joinReq .., _ => execJoinReq_skel .. | .setFailsafe .., _ => execSetFailsafe_skel .. | .statusReport .., _ => execStatusReport_skel ..
  | .staleTimeout .., _ => execStaleTimeout_skel .. | .detectionReport .., _ => execDetectionReport_skel ..
  | .lanternFaultReport .., _ => execLanternFaultReport_skel .. | .unreachableTimeout .., _ => execUnreachableTimeout_skel ..
  | .faultSummary, _ => execFaultSummary_skel .. | .cmdResponse .., _ => execCmdResponse_skel .. | .cmdRetry .., _ => execCmdRetry_skel ..
  | .cmdTimeout .., _ => execCmdTimeout_skel .. | .trafficHoldEnd .., _ => execTrafficHoldEnd_skel ..
  | .safetyExpire .., _ => execSafetyExpire_skel .. | .loadShed, _ => execLoadShed_skel ..
  | .reconPeriodEnd, _ => execReconPeriodEnd_skel .. | .fwCampaignStart .., _ => execFwCampaignStart_skel ..
  | .fwCampaignActivate .., _ => execFwCampaignActivate_skel .. | .fwCampaignAbort .., _ => execFwCampaignAbort_skel ..
  | .campaignAnnounceDone .., _ => execCampaignAnnounceDone_skel .. | .campaignPassSent .., _ => execCampaignPassSent_skel ..
  | .campaignPollEnd .., _ => execCampaignPollEnd_skel .. | .campaignVerifyEnd .., _ => execCampaignVerifyEnd_skel ..
  | .campaignActivateEnd, _ => execCampaignActivateEnd_skel ..
  -- Radio and links (08, 09)
  | .radioFrameReceive .., _ => execRadioFrameReceive_skel .. | .ackTransmit .., _ => execAckTransmit_skel ..
  | .launch .., _ => execLaunch_skel .. | .ccaRetry .., _ => execCcaRetry_skel .. | .radDemodWrite .., _ => execRadDemodWrite_skel ..
  | .radWinWrite .., _ => execRadWinWrite_skel .. | .radHopCfgWrite .., _ => execRadHopCfgWrite_skel ..
  | .radRxpartWrite .., _ => execRadRxpartWrite_skel .. | .g1WindowOpen .., _ => execG1WindowOpen_skel ..
  | .g1WindowClose .., _ => execG1WindowClose_skel .. | .supervisionTimeout .., _ => execSupervisionTimeout_skel ..
  | .resyncBeacon .., _ => execResyncBeacon_skel .. | .ackWaitTimeout .., _ => execAckWaitTimeout_skel ..
  | .routeAdvSend, _ => execRouteAdvSend_skel .. | .routeErr .., _ => execRouteErr_skel .. | .dstExpire .., _ => execDstExpire_skel ..
  | .radLinkMapCommit .., _ => execRadLinkMapCommit_skel .. | .channelMapSwitch, _ => execChannelMapSwitch_skel ..
  -- Network time (10)
  | .ptpSyncMeasurement .., _ => execPtpSyncMeasurement_skel .. | .ptpDelayResponse .., _ => execPtpDelayResponse_skel ..
  | .ptpAnnounce .., _ => execPtpAnnounce_skel .. | .masterLost .., _ => execMasterLost_skel ..
  | .ethernetLinkChange .., _ => execEthernetLinkChange_skel .. | .ntuJumpAccept .., _ => execNtuJumpAccept_skel ..
  | .ntuPtpDisable .., _ => execNtuPtpDisable_skel .. | .leapSecond, _ => execLeapSecond_skel ..
  -- Local drive (11)
  | .complianceCheck .., _ => execComplianceCheck_skel .. | .busRampLimit .., _ => execBusRampLimit_skel ..
  | .handoverEnd, _ => execHandoverEnd_skel .. | .vledinLost .., _ => execVledinLost_skel ..
  | .vledinValid .., _ => execVledinValid_skel .. | .thermalShutdown .., _ => execThermalShutdown_skel ..
  | .drvRestart .., _ => execDrvRestart_skel .. | .thermalAutoRetry, _ => execThermalAutoRetry_skel ..
  | .drvTest .., _ => execDrvTest_skel .. | .drvTestComplete .., _ => execDrvTestComplete_skel ..
  | .openRetest .., _ => execOpenRetest_skel .. | .dropoutRetry .., _ => execDropoutRetry_skel ..
  | .drvIsetWrite .., _ => execDrvIsetWrite_skel .. | .drvChanCfgWrite .., _ => execDrvChanCfgWrite_skel ..
  | .drvStoreLoaded .., _ => execDrvStoreLoaded_skel .. | .overrideSwitchChange .., _ => execOverrideSwitchChange_skel ..
  | .drvFeederCmdWrite .., _ => execDrvFeederCmdWrite_skel .. | .feederChangeRelease .., _ => execFeederChangeRelease_skel ..
  | .feederFeedbackFault .., _ => execFeederFeedbackFault_skel .. | .feederClosedSettle .., _ => execFeederClosedSettle_skel ..
  -- Loop engine (12)
  | .loopSample .., _ => execLoopSample_skel .. | .loopClose .., _ => execLoopClose_skel .. | .loopOpen .., _ => execLoopOpen_skel ..
  | .ainWireFault .., _ => execAinWireFault_skel .. | .ainWireClear .., _ => execAinWireClear_skel ..
  | .lceAoutManWrite .., _ => execLceAoutManWrite_skel .. | .lceSpWrite .., _ => execLceSpWrite_skel ..
  | .lceCfgWrite .., _ => execLceCfgWrite_skel .. | .pinTimeout .., _ => execPinTimeout_skel ..
  -- Meter and island (13)
  | .meterHello .., _ => execMeterHello_skel .. | .meterMeas .., _ => execMeterMeas_skel .. | .meterLogrec .., _ => execMeterLogrec_skel ..
  | .meterIdentRsp .., _ => execMeterIdentRsp_skel .. | .meterTsyncRsp .., _ => execMeterTsyncRsp_skel ..
  | .meterChallenge .., _ => execMeterChallenge_skel .. | .meterSealedMsg .., _ => execMeterSealedMsg_skel ..
  | .meterLinkTimeout, _ => execMeterLinkTimeout_skel .. | .metFwReq .., _ => execMetFwReq_skel ..
  | .metTsyncReq .., _ => execMetTsyncReq_skel .. | .tsyncAuto .., _ => execTsyncAuto_skel ..
  | .islandTsync .., _ => execIslandTsync_skel .. | .islandIdent .., _ => execIslandIdent_skel ..
  | .islandSecond .., _ => execIslandSecond_skel .. | .demandPeriodEnd, _ => execDemandPeriodEnd_skel ..
  | .demandMonthEnd, _ => execDemandMonthEnd_skel .. | .sagSwell .., _ => execSagSwell_skel .. | .sealOpen .., _ => execSealOpen_skel ..
  | .sealClose .., _ => execSealClose_skel .. | .setCal .., _ => execSetCal_skel .. | .setCt .., _ => execSetCt_skel ..
  | .testMode .., _ => execTestMode_skel .. | .fwLoad .., _ => execFwLoad_skel .. | .fwActivate .., _ => execFwActivate_skel ..
  | .setMkey .., _ => execSetMkey_skel .. | .sealJumperRemoved, _ => execSealJumperRemoved_skel ..
  | .sealOpenTimeout, _ => execSealOpenTimeout_skel .. | .islandStop, _ => execIslandStop_skel ..
  | .islandStart .., _ => execIslandStart_skel ..
  -- Watch core (14)
  | .watchSample .., _ => execWatchSample_skel .. | .photoFallbackArm .., _ => execPhotoFallbackArm_skel ..
  -- Clock and calendar (15)
  | .rtcSecondTick .., _ => execRtcSecondTick_skel .. | .rtcSet .., _ => execRtcSet_skel ..
  | .oscillatorStop, _ => execOscillatorStop_skel .. | .rtcSteerCheck .., _ => execRtcSteerCheck_skel ..
  | .rtcCalAuto, _ => execRtcCalAuto_skel .. | .rtcAlmCtrlWrite .., _ => execRtcAlmCtrlWrite_skel ..
  | .evinEdge .., _ => execEvinEdge_skel .. | .evinPop .., _ => execEvinPop_skel ..
  -- Event recorder (16)
  | .evrRdSelect .., _ => execEvrRdSelect_skel ..
  -- Keys (17)
  | .keyRecovery, _ => execKeyRecovery_skel .. | .keyLoad .., _ => execKeyLoad_skel ..
  | .keyCommitCopy2 .., _ => execKeyCommitCopy2_skel .. | .keyRevoke .., _ => execKeyRevoke_skel ..
  | .keyOperationComplete .., _ => execKeyOperationComplete_skel .. | .attest .., _ => execAttest_skel ..
  | .retire .., _ => execRetire_skel ..
  -- Update (18)
  | .manifest .., _ => execManifest_skel .. | .part .., _ => execPart_skel ..
  | .forwardSealComplete .., _ => execForwardSealComplete_skel .. | .updActivate .., _ => execUpdActivate_skel ..
  | .updConfirm .., _ => execUpdConfirm_skel .. | .updRollback .., _ => execUpdRollback_skel .. | .updAbort .., _ => execUpdAbort_skel ..
  | .updateNoResume, _ => execUpdateNoResume_skel .. | .confirmWindowExpire, _ => execConfirmWindowExpire_skel ..
  -- Host protocol (19)
  | .sessionHandshake .., _ => execSessionHandshake_skel .. | .hello .., _ => execHello_skel .. | .regRead .., _ => execRegRead_skel ..
  | .regWrite .., _ => execRegWrite_skel .. | .txnBegin .., _ => execTxnBegin_skel .. | .txnCommit .., _ => execTxnCommit_skel ..
  | .txnAbort .., _ => execTxnAbort_skel .. | .txnIdleTimeout .., _ => execTxnIdleTimeout_skel .. | .logRead .., _ => execLogRead_skel ..
  | .subscribe .., _ => execSubscribe_skel .. | .lanternCmd .., _ => execLanternCmd_skel .. | .sealedMsg .., _ => execSealedMsg_skel ..
  | .segment .., _ => execSegment_skel .. | .credit .., _ => execCredit_skel .. | .keepalive .., _ => execKeepalive_skel ..
  | .sessionIdleTimeout .., _ => execSessionIdleTimeout_skel .. | .sessionClose .., _ => execSessionClose_skel ..
  | .resumableExpire .., _ => execResumableExpire_skel .. | .evrHeadNotify, _ => execEvrHeadNotify_skel ..
  | .peerHandshake .., _ => execPeerHandshake_skel .. | .peerKeepalive .., _ => execPeerKeepalive_skel ..
  | .peerLinkDown .., _ => execPeerLinkDown_skel .. | .peerRetry .., _ => execPeerRetry_skel ..
  -- Panel (20)
  | .fpSample .., _ => execFpSample_skel .. | .keyStuck .., _ => execKeyStuck_skel .. | .padHoldComplete, _ => execPadHoldComplete_skel ..
  | .lampTestEnd, _ => execLampTestEnd_skel .. | .displayRefresh .., _ => execDisplayRefresh_skel ..
  | .displayBlank, _ => execDisplayBlank_skel .. | .pinLockoutEnd, _ => execPinLockoutEnd_skel .. | .fpPinSet .., _ => execFpPinSet_skel ..
  | .usbDetach .., _ => execUsbDetach_skel ..
  -- Faults (21)
  | .faultServiceTimeout, _ => execFaultServiceTimeout_skel .. | .garnetRebuild .., _ => execGarnetRebuild_skel ..
  | .rodFltAck .., _ => execRodFltAck_skel .. | .rodFltRelease .., _ => execRodFltRelease_skel ..
  | .rodWatchdog .., _ => execRodWatchdog_skel .. | .supplyFault .., _ => execSupplyFault_skel ..
  | .radioTimeoutFault .., _ => execRadioTimeoutFault_skel .. | .nandEccFailure .., _ => execNandEccFailure_skel ..
  | .islandCoverChange .., _ => execIslandCoverChange_skel .. | .junctionLimit .., _ => execJunctionLimit_skel ..
  -- Others
  | .feederFeedbackChange .., _ => execFeederFeedbackChange_skel .. | .pulseEdge .., _ => execPulseEdge_skel ..
  | .usbAttach .., _ => execUsbAttach_skel .. | .pinEntryTimeout, _ => execPinEntryTimeout_skel ..
  | .boundLevelApply, _ => execBoundLevelApply_skel ..

/-- The outcome is a next state with the queue and the part of this skeleton. -/
def Out.keeps (o : Out) (k : Skel) : Prop := ∃ t, o = .next t ∧ t.pending = k.pending ∧ t.part = k.part

theorem Out.is.keeps {o : Out} {k k0 : Skel} (h : Out.is o k) (hq : k.pending = k0.pending := by rfl) (hp : k.part = k0.part := by rfl) :
    Out.keeps o k0 := by
  obtain ⟨t, ho, rfl⟩ := h
  exact ⟨t, ho, hq, hp⟩

/-- What the commands of `movesSkel` change of the skeleton is never the queue or the part. -/
theorem exec_keeps_of_movesSkel (s : State) (c : Instr) (hc : movesSkel c = true) : Out.keeps (exec c s) s.skel := by
  cases c with
  | vauxValid us count => rcases execVauxValid_skel us count s with h | ⟨-, ns, h⟩ <;> exact h.keeps
  | vauxLost us store mj => rcases execVauxLost_skel us store mj s with h | h | ⟨ns, h⟩ <;> exact h.keeps
  | lastTaskComplete us mj => rcases execLastTaskComplete_skel us mj s with h | ⟨ns, h⟩ <;> exact h.keeps
  | onyxDeadline => rcases execOnyxDeadline_skel s with h | h | ⟨ns, h⟩ <;> exact h.keeps
  | storeLost => rcases execStoreLost_skel s with h | ⟨-, ph, -, h | h⟩ <;> exact h.keeps
  | vbkpLost => rcases execVbkpLost_skel s with h | ⟨-, h⟩ <;> exact h.keeps
  | vbkpValid => rcases execVbkpValid_skel s with h | ⟨-, h⟩ <;> exact h.keeps
  | frameEdge x replays lost =>
    rcases execFrameEdge_skel x replays lost s with h | ⟨-, ⟨-, h⟩ | ⟨-, h | h⟩⟩ <;> exact h.keeps
  | execStart => rcases execExecStart_skel s with h | ⟨-, h⟩ <;> exact h.keeps
  | barOpen bad => rcases execBarOpen_skel bad s with h | ⟨-, h⟩ <;> exact h.keeps
  | barComplete d => rcases execBarComplete_skel d s with h | ⟨-, h | h | ⟨ns, h⟩⟩ <;> exact h.keeps
  | appDomainReset us => rcases execAppDomainReset_skel us s with h | ⟨-, h⟩ <;> exact h.keeps
  | controlPause => rcases execControlPause_skel s with h | ⟨-, h⟩ <;> exact h.keeps
  | updateResume bad => rcases execUpdateResume_skel bad s with h | ⟨-, h⟩ <;> exact h.keeps
  | timeStep us => rcases execTimeStep_skel us s with h | ⟨ns, h⟩ <;> exact h.keeps
  | _ => cases hc

/-- Settles O59: a command that `movesSkel` does not name keeps the whole skeleton, one that it names keeps its queue and part. -/
theorem everyCommandAnswers : Obligations.EveryCommandAnswers := by
  intro c s
  cases h : movesSkel c with
  | false => exact (exec_skel s c h).keeps
  | true => exact exec_keeps_of_movesSkel s c h

end Sys2Proof.Machine
end

section
/-! SUPPORT. The fields of a register: no table lets two of them share a bit, so a fold over them acts on each by itself. -/

namespace Sys2Proof.Machine

/-- Two fields share no bit. -/
def Field.apart (f g : Field) : Prop := f.lo + f.width ≤ g.lo ∨ g.lo + g.width ≤ f.lo

/-- The value of a field in a register's word. -/
def Field.get (f : Field) (w : Word) : Nat := getBits w f.lo f.width

/-- The fields lie in the word, each apart from the others. -/
def Reg.tidy (r : Reg) : Prop := (∀ f ∈ r.fields, f.lo + f.width ≤ 32) ∧ r.fields.Pairwise Field.apart

/-- The table of every unit window is tidy (00_scope.md R8). -/
theorem tidy_of_mem_unitRegs {u : Nat} {r : Reg} (h : r ∈ unitRegs u) : r.tidy := by
  have table : ∀ u ∈ List.range 18, ∀ r ∈ unitRegs u, (∀ f ∈ r.fields, f.lo + f.width ≤ 32) ∧
      r.fields.Pairwise (fun f g => f.lo + f.width ≤ g.lo ∨ g.lo + g.width ≤ f.lo) := by decide +kernel
  by_cases hu : u < 18
  · exact table u (List.mem_range.2 hu) r h
  · obtain ⟨k, rfl⟩ := Nat.exists_eq_add_of_le' (Nat.le_of_not_lt hu)
    exact absurd h List.not_mem_nil

theorem mem_of_findIn {a : Nat} {rs : List Reg} {r : Reg} {i j : Nat} (h : findIn a rs = some (r, i, j)) : r ∈ rs := by
  induction rs with
  | nil => simp [findIn] at h
  | cons q rs ih =>
    rw [findIn] at h
    split at h
    · cases h
      exact List.mem_cons_self
    · exact List.mem_cons_of_mem _ (ih h)

theorem tidy_of_findReg {a : Nat} {r : Reg} {i j : Nat} (h : findReg a = some (r, i, j)) : r.tidy :=
  tidy_of_mem_unitRegs (mem_of_findIn h)

/-- A fold whose step for a field acts on that field's bits alone: a field apart from all of them keeps its value. -/
theorem get_foldl_of_apart {step : Word → Field → Word} {g : Field} (fs : List Field) (w : Word)
    (frame : ∀ u, ∀ f ∈ fs, f.apart g → g.get (step u f) = g.get u) (h : ∀ f ∈ fs, f.apart g) : g.get (fs.foldl step w) = g.get w := by
  induction fs generalizing w with
  | nil => rfl
  | cons f fs ih =>
    rw [List.forall_mem_cons] at h
    rw [List.foldl_cons, ih _ (fun u x hx => frame u x (List.mem_cons_of_mem _ hx)) h.2, frame w f List.mem_cons_self h.1]

/-- The same fold, for one of its fields: what that field's own step makes of its value. -/
theorem get_foldl_of_mem {step : Word → Field → Word} {val : Field → Nat → Nat} (fs : List Field) (w : Word) (hp : fs.Pairwise Field.apart)
    (frame : ∀ u, ∀ f ∈ fs, ∀ g ∈ fs, f.apart g → g.get (step u f) = g.get u)
    (own : ∀ u, ∀ f ∈ fs, f.get (step u f) = val f (f.get u)) {f : Field} (hf : f ∈ fs) : f.get (fs.foldl step w) = val f (f.get w) := by
  induction fs generalizing w with
  | nil => simp at hf
  | cons x fs ih =>
    obtain ⟨hx, hp⟩ := List.pairwise_cons.1 hp
    have frame' : ∀ u, ∀ y ∈ fs, ∀ g ∈ fs, y.apart g → g.get (step u y) = g.get u :=
      fun u y hy g hg => frame u y (List.mem_cons_of_mem _ hy) g (List.mem_cons_of_mem _ hg)
    rw [List.foldl_cons]
    rcases List.mem_cons.1 hf with rfl | hmem
    · have hrest : f.get (fs.foldl step (step w f)) = f.get (step w f) :=
        get_foldl_of_apart fs _ (fun u y hy => frame u y (List.mem_cons_of_mem _ hy) f List.mem_cons_self) (fun y hy => (hx y hy).symm)
      rw [hrest, own w f List.mem_cons_self]
    · rw [ih _ hp frame' (fun u y hy => own u y (List.mem_cons_of_mem _ hy)) hmem,
        frame w x List.mem_cons_self f (List.mem_cons_of_mem _ hmem) (hx f hmem)]

theorem Field.get_putBits_self (f : Field) (w : Word) (x : Nat) (h : f.lo + f.width ≤ 32) (hx : x < 2 ^ f.width) :
    f.get (putBits w f.lo f.width x) = x := by
  rw [Field.get, getBits_putBits_same _ _ _ _ h, Nat.mod_eq_of_lt hx]

theorem Field.get_putBits_apart {f g : Field} (w : Word) (x : Nat) (h : f.lo + f.width ≤ 32) (hfg : f.apart g) :
    g.get (putBits w f.lo f.width x) = g.get w := getBits_putBits_ne _ _ _ _ _ _ h hfg

theorem Field.get_lt (f : Field) (w : Word) : f.get w < 2 ^ f.width := Nat.mod_lt _ (Nat.two_pow_pos _)

/-- What a write of `v` leaves in a field that held `y` (R8, R9, R476). -/
def Field.written (f : Field) (v : Word) (y : Nat) : Nat :=
  match f.acc with
  | .rw => f.get v
  | .w1c => y &&& (2 ^ f.width - 1 - f.get v)
  | .w1s => y ||| f.get v
  | _ => y

/-- What a read leaves in a field that held `y` (03 R81). -/
def Field.cleared (f : Field) (y : Nat) : Nat := if f.acc = .rclr then 0 else y

theorem Reg.get_write {r : Reg} (h : r.tidy) {f : Field} (hf : f ∈ r.fields) (w v : Word) : f.get (r.write w v) = f.written v (f.get w) := by
  refine get_foldl_of_mem (val := fun f y => f.written v y) r.fields w h.2 ?frame ?own hf
  case frame =>
    intro u x hx g _ hxg
    have hput (n : Nat) : g.get (putBits u x.lo x.width n) = g.get u := Field.get_putBits_apart _ _ (h.1 x hx) hxg
    dsimp only
    split
    · exact hput _
    · exact hput _
    · exact hput _
    · rfl
  case own =>
    intro u x hx
    have hu := x.get_lt u
    have hv := x.get_lt v
    cases hacc : x.acc <;> simp only [hacc, Field.written]
    case rw => exact x.get_putBits_self _ _ (h.1 x hx) hv
    case w1c => exact x.get_putBits_self _ _ (h.1 x hx) (Nat.lt_of_le_of_lt Nat.and_le_left hu)
    case w1s => exact x.get_putBits_self _ _ (h.1 x hx) (Nat.or_lt_two_pow hu hv)

theorem Reg.get_clear {r : Reg} (h : r.tidy) {f : Field} (hf : f ∈ r.fields) (w : Word) : f.get (r.clear w) = f.cleared (f.get w) := by
  refine get_foldl_of_mem (val := fun f y => f.cleared y) r.fields w h.2 ?frame ?own hf
  case frame =>
    intro u x hx g _ hxg
    split
    · exact Field.get_putBits_apart _ _ (h.1 x hx) hxg
    · rfl
  case own =>
    intro u x hx
    unfold Field.cleared
    split
    · exact x.get_putBits_self _ _ (h.1 x hx) (Nat.two_pow_pos _)
    · rfl

end Sys2Proof.Machine
end

section
/-! SUPPORT. The registers that exist once for each requester (19_host_protocol.md R430), and what a read latches there. -/

namespace Sys2Proof.Machine.State

@[simp] theorem ownReg_setOwn_same (s : State) (who : Requester) (a : Nat) (w : Word) : (s.setOwn who a w).ownReg who a = some w := by
  simp [ownReg, setOwn]

theorem ownReg_setOwn_ne (s : State) {who q : Requester} {a b : Nat} (w : Word) (h : q ≠ who ∨ b ≠ a) :
    (s.setOwn who a w).ownReg q b = s.ownReg q b := by
  have hne : ¬ (who = q ∧ a = b) := fun e => h.elim (fun h => h e.1.symm) (fun h => h e.2.symm)
  have hkeep : (s.host.own.filter (fun e => !decide (e.1 = who ∧ e.2.1 = a))).find? (fun e => decide (e.1 = q ∧ e.2.1 = b))
      = s.host.own.find? (fun e => decide (e.1 = q ∧ e.2.1 = b)) := by
    rw [List.find?_filter]
    refine congrArg (List.find? · s.host.own) (funext fun e => ?_)
    have hsep : (e.1 = q ∧ e.2.1 = b) → ¬ (e.1 = who ∧ e.2.1 = a) := fun hb ha => hne ⟨ha.1.symm.trans hb.1, ha.2.symm.trans hb.2⟩
    by_cases he : e.1 = q ∧ e.2.1 = b
    · rw [decide_eq_false (hsep he), decide_eq_true he]
      rfl
    · simp [he]
  simp only [ownReg, setOwn, List.find?_cons, hne, decide_false]
  rw [hkeep]

/-- Nothing but the own registers of one requester differs: `Claims.OnlyOwn` without the time inside the frame and what is sent. -/
def OwnOnly (s t : State) (who : Requester) : Prop :=
  t = { s with host := { s.host with own := t.host.own } } ∧ ∀ q a, q ≠ who → t.ownReg q a = s.ownReg q a

theorem OwnOnly.refl (s : State) (who : Requester) : OwnOnly s s who := ⟨rfl, fun _ _ _ => rfl⟩

theorem OwnOnly.setOwn {s t : State} {who : Requester} (h : OwnOnly s t who) (a : Nat) (w : Word) : OwnOnly s (t.setOwn who a w) who := by
  refine ⟨?_, fun q b hq => (ownReg_setOwn_ne t w (.inl hq)).trans (h.2 q b hq)⟩
  have heq := h.1
  rw [heq]
  rfl

/-- Setting one requester's registers at the addresses of `as`, one after the other, to the values of `val`. -/
theorem foldl_setOwn (val : Nat → Word) (who : Requester) {s : State} (as : List Nat) {t : State} (h : OwnOnly s t who) :
    OwnOnly s (as.foldl (fun t b => t.setOwn who b (val b)) t) who
      ∧ ∀ b, (b ∈ as ∨ t.ownReg who b = some (val b)) → (as.foldl (fun t b => t.setOwn who b (val b)) t).ownReg who b = some (val b) := by
  induction as generalizing t with
  | nil => exact ⟨h, fun b hb => hb.resolve_left List.not_mem_nil⟩
  | cons a as ih =>
    obtain ⟨hown, hval⟩ := ih (h.setOwn a (val a))
    refine ⟨hown, fun b hb => hval b ?_⟩
    by_cases hba : b = a
    · subst hba
      exact .inr (ownReg_setOwn_same _ _ _ _)
    · rw [ownReg_setOwn_ne _ _ (.inr hba)]
      exact hb.imp_left (List.mem_of_ne_of_mem hba)

theorem ownOnly_latchOf (s : State) (who : Requester) (a : Nat) : OwnOnly s (s.latchOf who a) who :=
  (foldl_setOwn s.live who (latches a) (.refl s who)).1

theorem ownReg_latchOf (s : State) (who : Requester) {a b : Nat} (h : b ∈ latches a) : (s.latchOf who a).ownReg who b = some (s.live b) :=
  (foldl_setOwn s.live who (latches a) (.refl s who)).2 b (.inl h)

end Sys2Proof.Machine.State
end

section
/-! SUPPORT. The end of a source's condition (04_event_delivery.md R122): which registers it looks at, and what it changes. -/

namespace Sys2Proof.Machine.State

/-- No condition of a source looks at the registers of the ICU itself. -/
theorem srcCond_congr {s t : State} (hf : t.flt = s.flt) (h : ∀ b, b / 0x10000 ≠ 2 → t.rd b = s.rd b) (n : Nat) :
    t.srcCond n = s.srcCond n := by
  have hfld (f : Fld) (i : Nat) (hb : f.at i 0 / 0x10000 ≠ 2) : t.fld f i = s.fld f i := by rw [fld, fld, h _ hb]
  have hevt (f : Fld) (hb : f.addr / 0x10000 ≠ 2) : t.evtSet f = s.evtSet f := by rw [evtSet, evtSet, h _ hb]
  have hbit (f : Fld) (i : Nat) (hb : f.at i 0 / 0x10000 ≠ 2) : t.bit f i = s.bit f i := by rw [bit, bit, hfld f i hb]
  have hdepth : (List.range 4).any (fun i => t.bit R.RTC_EVIN_STAT_DEPTH i) = (List.range 4).any (fun i => s.bit R.RTC_EVIN_STAT_DEPTH i) := by
    simp (disch := decide) only [List.range_succ, List.any_append, List.any_cons, hbit, List.range_zero, List.any_nil]
  unfold srcCond
  simp (disch := decide) only [hf, hfld, hevt, hbit, hdepth]

/-- A register whose write can end a source's condition is none of the ICU's. -/
theorem regSource_window {a n : Nat} (h : regSource a = some n) : n < 256 ∧ a / 0x10000 ≠ 2 := by
  unfold regSource at h
  split at h
  · rename_i hmem
    cases h
    simp only [List.mem_cons, List.not_mem_nil, or_false] at hmem
    omega
  · have hlt : n < 145 := List.mem_range.1 (List.mem_of_find?_eq_some h)
    have hreg : condReg n = some a := of_decide_eq_true (List.find?_some (p := fun n => decide (condReg n = some a)) h)
    have table : ∀ n ∈ List.range 145, ∀ a ∈ condReg n, a / 0x10000 ≠ 2 := by decide +kernel
    exact ⟨by omega, table n (List.mem_range.2 hlt) a hreg⟩

/-- The address of ICU_LATE_DROP[n]. -/
def lateDropAt (n : Nat) : Nat := 0x21008 + 16 * n

theorem at_lateDrop (n : Nat) : R.ICU_LATE_DROP_COUNT.at n 0 = lateDropAt n := by
  simp [Fld.at, R.ICU_LATE_DROP_COUNT, lateDropAt, Nat.mul_comm]

theorem noteDrop_eq (n : Nat) (s0 s : State) :
    noteDrop n s0 s = { s with regs := (noteDrop n s0 s).regs
                               icu := { s.icu with late := (noteDrop n s0 s).icu.late, busyAt := (noteDrop n s0 s).icu.busyAt } } := by
  unfold noteDrop
  split
  · dsimp only
    split <;> rfl
  · rfl

/-- Of the registers, the drop of a claimed source changes its count. -/
theorem rd_noteDrop (n : Nat) (s0 s : State) (a : Nat) :
    (noteDrop n s0 s).rd a = if s0.srcCond n = true ∧ s.srcCond n = false ∧ s.bit R.ICU_SRC_STAT_INSVC n = true then
      (s.addSat R.ICU_LATE_DROP_COUNT 1 n).rd a else s.rd a := by
  unfold noteDrop
  by_cases hdrop : s0.srcCond n = true ∧ s.srcCond n = false
  · have hsvc : (s.unmark n).bit R.ICU_SRC_STAT_INSVC n = s.bit R.ICU_SRC_STAT_INSVC n := rfl
    simp only [hdrop, hsvc, Bool.not_false, true_and, if_true]
    split <;> rfl
  · rw [if_neg (by simpa using hdrop), if_neg (fun h => hdrop ⟨h.1, h.2.1⟩)]

theorem rd_noteDrop_ne {n a : Nat} (s0 s : State) (h : a ≠ lateDropAt n) : (noteDrop n s0 s).rd a = s.rd a := by
  rw [rd_noteDrop, addSat, rd_setFld_ne _ _ _ _ _ _ (by rwa [at_lateDrop]), ite_self]

theorem srcCond_noteDrop {n : Nat} (h : n < 256) (s0 s : State) (m : Nat) : (noteDrop n s0 s).srcCond m = s.srcCond m := by
  refine srcCond_congr (by rw [noteDrop_eq]) (fun b hb => rd_noteDrop_ne s0 s ?_) m
  unfold lateDropAt
  omega

/-- The drop of a claimed source is counted, up to the counter's last value. -/
theorem lateDrop_noteDrop (n : Nat) (s0 s : State) :
    (noteDrop n s0 s).fld R.ICU_LATE_DROP_COUNT n
      = if s0.srcCond n = true ∧ s.srcCond n = false ∧ s.bit R.ICU_SRC_STAT_INSVC n = true then min (s.fld R.ICU_LATE_DROP_COUNT n + 1) 65535
        else s.fld R.ICU_LATE_DROP_COUNT n := by
  have hcount : (s.addSat R.ICU_LATE_DROP_COUNT 1 n).fld R.ICU_LATE_DROP_COUNT n = min (s.fld R.ICU_LATE_DROP_COUNT n + 1) 65535 := by
    rw [addSat, fld_setFld_same _ _ _ _ _ (by decide)]
    exact Nat.mod_eq_of_lt (Nat.lt_of_le_of_lt (Nat.min_le_right _ _) (by decide))
  rw [← hcount, fld, rd_noteDrop]
  split <;> rfl

end Sys2Proof.Machine.State
end

section
/-! SUPPORT. Register commands (01_architecture.md R26, 19_host_protocol.md R430): what a write and a read come to once their checks have
passed, and once one has failed. -/

namespace Sys2Proof.Machine.State

open Claims

theorem onlyRegs_answer (s : State) (us : Nat) (who : Requester) (st : Status) : OnlyRegs s ((s.atUs us).answer who st) [] :=
  ⟨rfl, fun _ _ => rfl⟩

theorem cmdWrite_of_reqWrite {s t : State} {who : Requester} {us : Fin 20000} {a : Nat} {v : Word} {st : Status} (hasks : s.asks who = true)
    (h : (s.atUs us).reqWrite who a v = (st, t)) (hst : st ≠ .auth) : s.cmdWrite who us a v = t.answer who st := by
  simp only [cmdWrite, hasks, h, Bool.not_true, Bool.false_eq_true, if_false]
  split
  · exact absurd rfl hst
  · rfl

/-- A performed write is answered, unless its status is AUTH. -/
theorem cmdWrite_of_performWrite {s t : State} {who : Requester} {us : Fin 20000} {a : Nat} {v : Word} {st : Status}
    (hw : WriteAccepted s who us a v) (h : (s.atUs us).performWrite who a v = (st, t)) (hst : st ≠ .auth) :
    s.cmdWrite who us a v = t.answer who st :=
  cmdWrite_of_reqWrite hw.1 (by rw [reqWrite, hw.2, h]) hst

/-- A write that a check refuses is answered with the check's status and changes nothing. -/
theorem cmdWrite_of_refused {s : State} {who : Requester} {us : Fin 20000} {a : Nat} {v : Word} (hasks : s.asks who = true)
    (hok : (s.atUs us).writeStatus who a v ≠ .ok) (hauth : (s.atUs us).writeStatus who a v ≠ .auth) :
    s.cmdWrite who us a v = (s.atUs us).answer who ((s.atUs us).writeStatus who a v) := by
  refine cmdWrite_of_reqWrite hasks ?_ hauth
  unfold reqWrite
  split
  · exact absurd ‹_› hok
  · rfl

/-- A write without an effect of its own, outside class A, sets fields and may end a source's condition. -/
theorem performWrite_of_fields {s : State} {who : Requester} {a : Nat} {v : Word} (h : s.unitWrite who a v = none) (hA : classAReg a = false) :
    s.performWrite who a v = (.ok, noteWrite a s (s.plainWrite a v)) := by
  simp [performWrite, h, hA]

/-- A write with an effect of its own that is done, outside class A and of a register that ends no condition. -/
theorem performWrite_of_unit {s t : State} {who : Requester} {a : Nat} {v : Word} (h : s.unitWrite who a v = some (.ok, t))
    (hA : classAReg a = false) (hsrc : regSource a = none) : s.performWrite who a v = (.ok, t) := by
  simp [performWrite, h, hA, noteWrite, hsrc]

theorem plainWrite_of_findReg {s : State} {a : Nat} {v : Word} {r : Reg} {i j : Nat} (h : findReg a = some (r, i, j)) :
    s.plainWrite a v = s.wr a (r.write (s.rd a) v) := by
  simp [plainWrite, h]

/-- A read that its checks let pass answers with what the requester sees, latches and clears. -/
theorem cmdRead_of_accepted {s : State} {who : Requester} {us : Fin 20000} {a : Nat} (h : ReadAccepted s who us a) :
    s.cmdRead who us a = (((s.atUs us).latchOf who a).rclr who a).emit (.data who [(s.atUs us).regSeen who a]) := by
  obtain ⟨hasks, hok⟩ := h
  simp [cmdRead, reqRead, hasks, hok]

end Sys2Proof.Machine.State
end

section
/-! SUPPORT. What the register commands leave: fields of one register, latches of one requester, or the EVR window of one requester. -/

namespace Sys2Proof.Machine.State

open Claims

theorem noteWrite_of_none {a : Nat} (h : regSource a = none) (s t : State) : noteWrite a s t = t := by rw [noteWrite, h]

theorem noteWrite_of_some {a n : Nat} (h : regSource a = some n) (s t : State) : noteWrite a s t = noteDrop n s t := by rw [noteWrite, h]

theorem noteWrite_eq (a : Nat) (s t : State) :
    noteWrite a s t = { t with regs := (noteWrite a s t).regs
                               icu := { t.icu with late := (noteWrite a s t).icu.late, busyAt := (noteWrite a s t).icu.busyAt } } := by
  cases h : regSource a with
  | none => rw [noteWrite_of_none h]
  | some n => rw [noteWrite_of_some h]; exact noteDrop_eq n s t

/-- Counting a drop leaves the register that was written. -/
theorem rd_noteWrite_self (a : Nat) (s t : State) : (noteWrite a s t).rd a = t.rd a := by
  cases h : regSource a with
  | none => rw [noteWrite_of_none h]
  | some n =>
    obtain ⟨hn, ha⟩ := regSource_window h
    rw [noteWrite_of_some h, rd_noteDrop_ne]
    unfold lateDropAt
    omega

/-- What a write that only sets fields leaves. -/
def fieldsWritten (s : State) (who : Requester) (us a : Nat) (v : Word) : State :=
  (noteWrite a (s.atUs us) ((s.atUs us).plainWrite a v)).answer who .ok

theorem cmdWrite_eq_fieldsWritten {s : State} {who : Requester} {us : Fin 20000} {a : Nat} {v : Word} (hw : WriteAccepted s who us a v)
    (hu : (s.atUs us).unitWrite who a v = none) (hA : classAReg a = false) : s.cmdWrite who us a v = s.fieldsWritten who us a v :=
  cmdWrite_of_performWrite hw (performWrite_of_fields hu hA) (by decide)

theorem plainWrite_eq (s : State) (a : Nat) (v : Word) : s.plainWrite a v = { s with regs := (s.plainWrite a v).regs } := by
  unfold plainWrite
  split <;> rfl

theorem fieldsWritten_eq (s : State) (who : Requester) (us a : Nat) (v : Word) (t : State) (ht : t = s.fieldsWritten who us a v) :
    t = { s with regs := t.regs, icu := { s.icu with late := t.icu.late, busyAt := t.icu.busyAt }, fr := { s.fr with nowUs := t.fr.nowUs }
                 out := t.out } := by
  rw [ht, fieldsWritten, noteWrite_eq, plainWrite_eq]
  rfl

theorem rd_fieldsWritten_self {s : State} {who : Requester} {us a : Nat} {v : Word} {r : Reg} {i j : Nat} (hr : findReg a = some (r, i, j)) :
    (s.fieldsWritten who us a v).rd a = r.write (s.rd a) v := by
  show (noteWrite a _ _).rd a = _
  rw [rd_noteWrite_self, plainWrite_of_findReg hr, rd_wr_same, rd_atUs]

theorem rd_plainWrite_ne (s : State) {a b : Nat} (v : Word) (h : b ≠ a) : (s.plainWrite a v).rd b = s.rd b := by
  unfold plainWrite
  split
  · exact rd_wr_ne _ _ _ _ h
  · rfl

theorem onlyRegs_fieldsWritten {s : State} {who : Requester} {us a : Nat} {v : Word} (h : regSource a = none) :
    OnlyRegs s (s.fieldsWritten who us a v) [a] := by
  rw [fieldsWritten, noteWrite_of_none h]
  refine ⟨?_, fun b hb => rd_plainWrite_ne (s.atUs us) v (by simpa using hb)⟩
  rw [plainWrite_eq]
  rfl

theorem rd_fieldsWritten_ne {s : State} {who : Requester} {us a n b : Nat} {v : Word} (h : regSource a = some n) (ha : b ≠ a)
    (hb : b ≠ lateDropAt n) : (s.fieldsWritten who us a v).rd b = s.rd b := by
  show (noteWrite a _ _).rd b = _
  rw [noteWrite_of_some h, rd_noteDrop_ne _ _ hb]
  exact rd_plainWrite_ne (s.atUs us) v ha

/-- 04 R122 for such a write. -/
theorem lateDrop_fieldsWritten {s t : State} {who : Requester} {us a n : Nat} {v : Word} (h : regSource a = some n)
    (ht : t = s.fieldsWritten who us a v) :
    t.fld R.ICU_LATE_DROP_COUNT n = if s.srcCond n = true ∧ t.srcCond n = false ∧ s.bit R.ICU_SRC_STAT_INSVC n = true then
      min (s.fld R.ICU_LATE_DROP_COUNT n + 1) 65535 else s.fld R.ICU_LATE_DROP_COUNT n := by
  obtain ⟨hn, ha⟩ := regSource_window h
  have hicu (b : Nat) (hb : b / 0x10000 = 2) : ((s.atUs us).plainWrite a v).rd b = s.rd b :=
    rd_plainWrite_ne (s.atUs us) v (fun e => ha (e ▸ hb))
  have hcount : ((s.atUs us).plainWrite a v).fld R.ICU_LATE_DROP_COUNT n = s.fld R.ICU_LATE_DROP_COUNT n := by
    rw [fld, fld, hicu _ (by rw [at_lateDrop, lateDropAt]; omega)]
  have hsvc : ((s.atUs us).plainWrite a v).bit R.ICU_SRC_STAT_INSVC n = s.bit R.ICU_SRC_STAT_INSVC n := by
    rw [bit, bit, fld, fld, hicu _ (by simp [Fld.at, R.ICU_SRC_STAT_INSVC]; omega)]
  have hbefore : (s.atUs us).srcCond n = s.srcCond n := srcCond_congr rfl (fun _ _ => rfl) n
  have hafter : t.srcCond n = ((s.atUs us).plainWrite a v).srcCond n := by
    rw [ht, fieldsWritten, noteWrite_of_some h]
    exact (srcCond_congr rfl (fun _ _ => rfl) n).trans (srcCond_noteDrop hn _ _ n)
  have hfld : t.fld R.ICU_LATE_DROP_COUNT n = (noteDrop n (s.atUs us) ((s.atUs us).plainWrite a v)).fld R.ICU_LATE_DROP_COUNT n := by
    rw [ht, fieldsWritten, noteWrite_of_some h]
    rfl
  rw [hfld, lateDrop_noteDrop, hcount, hsvc, hbefore, hafter]

/-- The registers whose reads may latch others: four by name, and those of the meter's and the recorder's logs. -/
def latchReaders : List Nat :=
  [R.NTU_TIME_S_LO_S.addr, R.RTC_DATE_DAY.addr, R.MET_TIME_LO_S.addr, R.EVR_SEC_ACK_LO_SEQ.addr] ++ List.range' 0xA0100 0x60
    ++ List.range' 0xD0100 0x60

theorem mem_latchReaders {a : Nat} (h : latches a ≠ []) : a ∈ latchReaders := by
  refine Decidable.byContradiction fun hno => ?_
  simp only [latchReaders, List.mem_append, List.mem_cons, List.not_mem_nil, or_false, List.mem_range'_1, not_or] at hno
  obtain ⟨⟨⟨hntu, hrtc, hmet, hack⟩, hA⟩, hD⟩ := hno
  refine h ?_
  rw [latches, if_neg hntu, if_neg hrtc, if_neg hmet, if_neg (fun k => hA ⟨k.1, k.2.1⟩), if_neg (fun k => hD ⟨k.1, k.2.1⟩), if_neg hack]

/-- No register whose read latches another has RCLR fields. -/
theorem has_rclr_of_latches {a : Nat} (h : latches a ≠ []) : ∀ x ∈ findReg a, x.1.has .rclr = false := by
  have table : ∀ a ∈ latchReaders, ∀ x ∈ findReg a, x.1.has .rclr = false := by decide +kernel
  exact table a (mem_latchReaders h)

theorem rclr_of_latches {a : Nat} (h : latches a ≠ []) (s : State) (who : Requester) : s.rclr who a = s := by
  unfold rclr
  split
  · rename_i hr
    rw [has_rclr_of_latches h _ hr]
    rfl
  · rfl

theorem latchedRead_cmdRead {s : State} {who : Requester} {us : Fin 20000} {a : Nat} (h : ReadAccepted s who us a) (ha : latches a ≠ []) :
    LatchedRead s (s.cmdRead who us a) who us a := by
  obtain ⟨heq, hother⟩ := ownOnly_latchOf (s.atUs us) who a
  rw [cmdRead_of_accepted h, rclr_of_latches ha]
  refine ⟨?_, fun b hb => ownReg_latchOf (s.atUs us) who hb, ?_, fun q b hq => hother q b hq, ?_, ⟨?_, ?_, ?_, ?_⟩, ?_, ?_, ?_⟩
  all_goals rw [heq]; rfl

/-- A GSP read of a register with RCLR fields and no partner to latch. -/
theorem cmdRead_eq_clear {s : State} {i : Fin 8} {us : Fin 20000} {a : Nat} {r : Reg} {k j : Nat} (h : ReadAccepted s (.gsp i) us a)
    (hr : findReg a = some (r, k, j)) (hc : r.has .rclr = true) (hl : latches a = []) :
    s.cmdRead (.gsp i) us a = ((s.atUs us).wr a (r.clear (s.rd a))).emit (.data (.gsp i) [(s.atUs us).regSeen (.gsp i) a]) := by
  simp [cmdRead_of_accepted h, latchOf, hl, rclr, hr, hc]

theorem ownOnly_rdSelect (s : State) (who : Requester) (v : Word) : OwnOnly s (s.rdSelect who v) who :=
  ((((OwnOnly.refl s who).setOwn _ _).setOwn _ _).setOwn _ _).setOwn _ _ |>.setOwn _ _

/-- The record number that a write of `v` to EVR_RD_SEQ_HI selects (16 R386). -/
def selectedSeq (s : State) (who : Requester) (v : Word) : Nat :=
  ((s.ownReg who 0xD0204).getD 0).toNat + v.toNat % 65536 * 4294967296

theorem rdSelected_rdSelect (s : State) (who : Requester) (v : Word) :
    (s.rdSelect who v).rdSelected who = (((s.ownReg who 0xD0200).getD 0).toNat, s.selectedSeq who v) := by
  have hmask : (v &&& 0xFFFF#32).toNat = v.toNat % 65536 := by
    rw [BitVec.toNat_and]
    exact Nat.and_two_pow_sub_one_eq_mod v.toNat 16
  simp [rdSelected, rdSelect, ownReg_setOwn_ne, selectedSeq, hmask]

theorem ownReg_rdStat_rdSelect (s : State) (who : Requester) (v : Word) :
    (s.rdSelect who v).ownReg who 0xD020C =
      some (if s.seqHeld ((s.ownReg who 0xD0200).getD 0).toNat (s.selectedSeq who v) then 0 else 4) := by
  have hhigh : getBits v 0 16 = v.toNat % 65536 := by simp [getBits]
  simp only [rdSelect, ownReg_setOwn_same, hhigh]
  rfl

@[simp] theorem ownReg_answer (s : State) (who q : Requester) (st : Status) (a : Nat) : (s.answer who st).ownReg q a = s.ownReg q a := rfl

@[simp] theorem rdSelected_answer (s : State) (who q : Requester) (st : Status) : (s.answer who st).rdSelected q = s.rdSelected q := rfl

theorem cmdWrite_evrRdSeqHi {s : State} {who : Requester} {us : Fin 20000} {v : Word} (hw : WriteAccepted s who us 0xD0208 v) :
    s.cmdWrite who us 0xD0208 v = ((s.atUs us).rdSelect who v).answer who .ok :=
  cmdWrite_of_performWrite hw (performWrite_of_unit rfl (by decide) (by decide)) (by decide)

end Sys2Proof.Machine.State

namespace Sys2Proof.Machine

open State Claims

/-- Settles O27: a write that only sets fields is a fold over the tidy table row, a refused one stops at its check, and each read and the EVR
selection are the latches of their requester. -/
theorem registerAccess : Obligations.RegisterAccess := by
  refine ⟨?write, ?refused, ?rclr, ?latch, ?ntu, ?rtc, ?evr⟩
  case write =>
    intro s who us a v r i j hw hu hr hA
    refine ⟨s.fieldsWritten who us a v, congrArg Host.Outcome.next (cmdWrite_eq_fieldsWritten hw hu hA), ?_,
      fieldsWritten_eq s who us a v _ rfl, onlyRegs_fieldsWritten,
      fun n hn => ⟨fun b => rd_fieldsWritten_ne hn, lateDrop_fieldsWritten hn rfl⟩, fun f hf => ?_⟩
    · rw [fieldsWritten, noteWrite_eq, plainWrite_eq]
      rfl
    · rw [rd_fieldsWritten_self hr]
      exact Reg.get_write (tidy_of_findReg hr) hf (s.rd a) v
  case refused =>
    rintro s who us a v st hasks rfl hok hauth
    exact ⟨_, congrArg Host.Outcome.next (cmdWrite_of_refused hasks hok hauth), onlyRegs_answer s us who _, rfl⟩
  case rclr =>
    intro s i us a r k j h hr hc hl
    refine ⟨_, congrArg Host.Outcome.next (cmdRead_eq_clear h hr hc hl), ⟨rfl, fun b hb => rd_wr_ne (s.atUs us) _ _ _ (by simpa using hb)⟩, rfl,
      fun f hf => ?_⟩
    exact (congrArg f.get (rd_wr_same (s.atUs us) _ _)).trans (Reg.get_clear (tidy_of_findReg hr) hf (s.rd a))
  case latch => exact fun s who us a h ha => ⟨_, rfl, latchedRead_cmdRead h ha⟩
  case ntu => exact fun s who us h => ⟨_, rfl, latchedRead_cmdRead h (by decide)⟩
  case rtc => exact fun s who us h => ⟨_, rfl, latchedRead_cmdRead h (by decide)⟩
  case evr =>
    intro s who us v hw log q
    obtain ⟨heq, hother⟩ := ownOnly_rdSelect (s.atUs us) who v
    refine ⟨((s.atUs us).rdSelect who v).answer who .ok, congrArg Host.Outcome.next (cmdWrite_evrRdSeqHi hw), ⟨?_, fun q a hq =>
      (ownReg_answer ..).trans (hother q a hq)⟩, ?_, ?_, ?_⟩
    · rw [heq]; rfl
    · rw [heq]; rfl
    · rw [rdSelected_answer, rdSelected_rdSelect]
      rfl
    · rw [ownReg_answer, ownReg_rdStat_rdSelect]
      simp only [seqHeld, Bool.and_eq_true, decide_eq_true_eq]
      rfl

end Sys2Proof.Machine
end

section
/-! SUPPORT. Frames and the supplies (01_architecture.md R20, 18_update.md R412): what the invariant `FramesRun` says of the skeleton, and
that every command keeps it. -/

namespace Sys2Proof.Machine

open State Claims

/-- `FramesRun` speaks of the skeleton alone. -/
def Skel.FramesRun (k : Skel) : Prop :=
  (k.mode = .on → k.paused = false → k.phase ≠ .stopped)
    ∧ (k.phase ≠ .stopped → (k.mode = .on ∧ k.paused = false) ∨ (k.mode = .onyx ∧ k.phase = .bar))

namespace Skel.FramesRun

/-- Frames that run on VAUX may be in any phase. -/
theorem of_on {k : Skel} (hm : k.mode = .on) (hp : k.paused = false) (hf : k.phase ≠ .stopped) : k.FramesRun :=
  ⟨fun _ _ => hf, fun _ => .inl ⟨hm, hp⟩⟩

/-- No frame needs to run off VAUX or in a control pause. -/
theorem of_stopped {k : Skel} (hf : k.phase = .stopped) (h : k.mode ≠ .on ∨ k.paused = true) : k.FramesRun := by
  refine ⟨fun hm hp => ?_, fun h' => absurd hf h'⟩
  rcases h with h | h
  · exact absurd hm h
  · rw [hp] at h
    cases h

theorem started (k : Skel) (ns : Nat) : (k.started ns).FramesRun := of_on rfl rfl (by simp [Skel.started, Skel.tickStart])

/-- A frame past its start and before its bar runs on VAUX. -/
theorem on_of_phase {k : Skel} (h : k.FramesRun) (hs : k.phase ≠ .stopped) (hb : k.phase ≠ .bar) : k.mode = .on ∧ k.paused = false :=
  (h.2 hs).resolve_right fun h => hb h.2

/-- Only the main domain on VAUX and the end of a bar in ONYX have frames. -/
theorem stopped_of_mode {k : Skel} (h : k.FramesRun) (hm : k.mode ≠ .on) (ho : k.mode ≠ .onyx) : k.phase = .stopped :=
  Classical.byContradiction fun hs => (h.2 hs).elim (fun h => hm h.1) (fun h => ho h.1)

/-- In a control pause on VAUX no frame runs. -/
theorem stopped_of_paused {k : Skel} (h : k.FramesRun) (hm : k.mode = .on) (hp : k.paused = true) : k.phase = .stopped :=
  Classical.byContradiction fun hs => (h.2 hs).elim (fun h => by simp [hp] at h) (fun h => by simp [hm] at h)

end Skel.FramesRun

/-- An outcome with a skeleton on which frames follow the power is a state on which they do. -/
theorem Out.is.framesRun {o : Out} {k : Skel} (h : Out.is o k) (hk : k.FramesRun) {t : State} (ht : o = .next t) : Claims.FramesRun t := by
  obtain ⟨u, rfl, rfl⟩ := h
  cases ht
  exact hk

/-- The deadline of ONYX finds the main domain in ONYX, or changes nothing. -/
theorem execOnyxDeadline_of_mode_ne {s : State} (h : s.pwr.mode ≠ .onyx) : execOnyxDeadline s = .next s := by
  unfold execOnyxDeadline
  split
  · exact absurd ‹_› h
  · rfl

/-- The loss of the store ends ONYX with no frame running. -/
theorem execStoreLost_stopped (s : State) :
    Out.is (execStoreLost s) s.skel ∨ ∃ m, m ≠ .on ∧ Out.is (execStoreLost s) { s.skel with phase := .stopped, mode := m } := by
  unfold execStoreLost
  split
  · have hs : (if s.framesRun then s.rodsStop else s).skel = { s.skel with phase := .stopped } := by
      split
      · exact rodsStop_skel s
      · rename_i hf
        have hp : s.fr.phase = .stopped := by simpa [framesRun] using hf
        exact congrArg (fun p => ({ s.skel with phase := p } : Skel)) hp
    generalize (if s.framesRun then s.rodsStop else s) = t at hs
    dsimp only
    split
    · exact .inr ⟨.backup, by decide, _, rfl, congrArg (fun k : Skel => { k with mode := .backup }) hs⟩
    · exact .inr ⟨.off, by decide, _, rfl, congrArg (fun k : Skel => { k with mode := .off }) hs⟩
  · exact .inl ⟨_, rfl, rfl⟩

/-- A bar ends in EMIT on VAUX; after VAUX_LOST it ends with frames stopped, or with the start that waited for it. -/
theorem execBarComplete_bySupply (d : Fin 40000) (s : State) :
    Out.is (execBarComplete d s) s.skel ∨ (s.fr.phase = .bar ∧
      ((s.pwr.mode = .on ∧ Out.is (execBarComplete d s) { s.skel with phase := .emit }) ∨
        (s.pwr.mode ≠ .on ∧ Out.is (execBarComplete d s) { s.skel with phase := .stopped }) ∨
        ∃ ns, Out.is (execBarComplete d s) (s.skel.started ns))) := by
  unfold execBarComplete
  split
  · rename_i hb
    refine .inr ⟨hb, ?_⟩
    have ht : ((s.atUs (16000 + ceilDiv d 10)).barTimes d).skel = s.skel := by rw [barTimes_skel, atUs_skel]
    split
    · rename_i hon
      exact .inl ⟨by simpa [poweredOn] using hon, _, rfl, barComplete_skel _ _⟩
    · rename_i hon
      rcases onyxBarEnd_skel ((s.atUs (16000 + ceilDiv d 10)).barTimes d) with h | ⟨ns, h⟩
      · exact .inr (.inl ⟨by simpa [poweredOn] using hon, _, rfl, by rw [h, ht]⟩)
      · exact .inr (.inr ⟨ns, _, rfl, by rw [h, ht]⟩)
  · exact .inl ⟨_, rfl, rfl⟩

/-- A command that moves the skeleton leaves one on which frames follow the power. -/
theorem exec_framesRun_of_movesSkel {s t : State} (hs : s.skel.FramesRun) (c : Instr) (hc : movesSkel c = true)
    (ht : exec c s = .next t) : Claims.FramesRun t := by
  have same (h : Out.is (exec c s) s.skel) : Claims.FramesRun t := h.framesRun hs ht
  have start (ns : Nat) (h : Out.is (exec c s) (s.skel.started ns)) : Claims.FramesRun t := h.framesRun (.started _ ns) ht
  cases c with
  | vauxValid us count =>
    rcases execVauxValid_skel us count s with h | ⟨-, ns, h⟩
    · exact same h
    · exact start ns h
  | vauxLost us store mj =>
    rcases execVauxLost_skel us store mj s with h | h | ⟨ns, h⟩
    · exact same h
    · refine h.framesRun ⟨fun hm => PMode.noConfusion hm, fun hf => .inr ⟨rfl, ?_⟩⟩ ht
      dsimp only at hf ⊢
      split at hf
      · exact if_pos ‹_›
      · exact absurd rfl hf
    · exact start ns h
  | lastTaskComplete us mj =>
    rcases execLastTaskComplete_skel us mj s with h | ⟨ns, h⟩
    · exact same h
    · exact start ns h
  | onyxDeadline =>
    rcases execOnyxDeadline_skel s with h | h | ⟨ns, h⟩
    · exact same h
    · by_cases hm : s.pwr.mode = .onyx
      · exact h.framesRun (.of_stopped rfl (.inl (by simp [State.skel, hm]))) ht
      · exact same ⟨s, execOnyxDeadline_of_mode_ne hm, rfl⟩
    · exact start ns h
  | storeLost =>
    rcases execStoreLost_stopped s with h | ⟨m, hm, h⟩
    · exact same h
    · exact h.framesRun (.of_stopped rfl (.inl hm)) ht
  | vbkpLost =>
    rcases execVbkpLost_skel s with h | ⟨hm, h⟩
    · exact same h
    · have hf := hs.stopped_of_mode (by simp [State.skel, hm]) (by simp [State.skel, hm])
      exact h.framesRun (.of_stopped hf (.inl nofun)) ht
  | vbkpValid =>
    rcases execVbkpValid_skel s with h | ⟨hm, h⟩
    · exact same h
    · have hf := hs.stopped_of_mode (by simp [State.skel, hm]) (by simp [State.skel, hm])
      exact h.framesRun (.of_stopped hf (.inl nofun)) ht
  | frameEdge x replays lost =>
    rcases execFrameEdge_skel x replays lost s with h | ⟨hon, h⟩
    · exact same h
    · have hm : s.pwr.mode = .on := by simpa [poweredOn] using hon
      rcases h with ⟨hp, h⟩ | ⟨hp, h | h⟩
      · exact h.framesRun (.of_stopped (hs.stopped_of_paused hm hp) (.inr hp)) ht
      · exact h.framesRun (.of_on hm hp nofun) ht
      · exact h.framesRun (.of_on hm hp nofun) ht
  | execStart =>
    rcases execExecStart_skel s with h | ⟨hf, h⟩
    · exact same h
    · obtain ⟨hm, hp⟩ := hs.on_of_phase (by simp [State.skel, hf]) (by simp [State.skel, hf])
      exact h.framesRun (.of_on hm hp nofun) ht
  | barOpen bad =>
    rcases execBarOpen_skel bad s with h | ⟨hf, h⟩
    · exact same h
    · obtain ⟨hm, hp⟩ := hs.on_of_phase (by simp [State.skel, hf]) (by simp [State.skel, hf])
      exact h.framesRun (.of_on hm hp nofun) ht
  | barComplete d =>
    rcases execBarComplete_bySupply d s with h | ⟨hf, ⟨hm, h⟩ | ⟨hm, h⟩ | ⟨ns, h⟩⟩
    · exact same h
    · have hp : s.pwr.paused = false := by
        refine Bool.eq_false_iff.mpr fun hp => ?_
        have := hs.stopped_of_paused hm hp
        simp [State.skel, hf] at this
      exact h.framesRun (.of_on hm hp nofun) ht
    · exact h.framesRun (.of_stopped rfl (.inl hm)) ht
    · exact start ns h
  | appDomainReset us =>
    rcases execAppDomainReset_skel us s with h | ⟨hon, h⟩
    · exact same h
    · have hm : s.pwr.mode = .on := by simpa [poweredOn] using hon
      cases hp : s.pwr.paused with
      | true => exact h.framesRun (.of_stopped (by simp [hp]) (.inr hp)) ht
      | false => exact h.framesRun (.of_on hm hp (by simp [hp])) ht
  | controlPause =>
    rcases execControlPause_skel s with h | ⟨-, h⟩
    · exact same h
    · exact h.framesRun (.of_stopped rfl (.inr rfl)) ht
  | updateResume bad =>
    rcases execUpdateResume_skel bad s with h | ⟨hon, h⟩
    · exact same h
    · exact h.framesRun (.of_on (by simpa [poweredOn, State.skel] using hon) rfl nofun) ht
  | timeStep us =>
    rcases execTimeStep_skel us s with h | ⟨ns, h⟩
    · exact same h
    · exact h.framesRun hs ht
  | _ => cases hc

/-- Settles O60: only the commands of `movesSkel` touch the supply, the pause or the phase, and each of them leaves these three in step. -/
theorem framesFollowPower : Obligations.FramesFollowPower := by
  intro s t hs ht
  unfold step at ht
  split at ht
  · cases ht
    exact hs
  · rename_i c cs _
    cases hc : movesSkel c with
    | true => exact exec_framesRun_of_movesSkel (s := { s with pending := cs }) hs c hc ht
    | false => exact (exec_skel { s with pending := cs } c hc).framesRun hs ht

end Sys2Proof.Machine
end

section
/-! SUPPORT. Two states that refute what is said of VAUX_LOST in a bar and of the frame port: each is written out and run. -/

namespace Sys2Proof.Machine

open State

/-- A bar in progress on VAUX with one committed log that waits for EMIT, a LINK fault in service, and the meter link's session up while
MAINS shows a phase alive. -/
def linkFaultInBar : State :=
  ({ State.reset with
    pwr := { mode := .on, vaux := true }
    fr := { State.reset.fr with phase := .bar }
    bar := { released := [{ bead := 0, passFrame := 0, wlog := [], olog := [], entries := 0 }] }
    met := { sess := true }
    flt := { cur := some { cls := clsLink, count := 1, info := [13] } } } : State).setFld R.WCH_IN_VALUE 23000 1

/-- VAUX_LOST ends the link session, which raises LINK (13 R336, 21 R448); the second LINK is a double fault (R450), and the entry into
GARNET discards the log that waits for EMIT (R453), although the bar is still in progress. -/
theorem execVauxLost_linkFaultInBar :
    ∃ t, execVauxLost 0 0 0 linkFaultInBar = .next t ∧ t.fr.phase = .bar ∧ t.fld R.ROD_FLT_GARNET_SECOND = clsLink ∧ t.bar.released = [] :=
  ⟨_, rfl, by decide +kernel⟩

/-- Refutes O23: in the state above the bar that VAUX_LOST meets does not keep its released log. -/
theorem not_powerStates : ¬ Obligations.PowerStates := by
  unfold Obligations.PowerStates
  rintro ⟨-, -, hlost, -, -⟩
  obtain ⟨t, ht, -, -, -, -, -, -, -, -, -, -, hbar, -⟩ := hlost linkFaultInBar 0 0 0 rfl
  obtain ⟨u, hu, -, -, hempty⟩ := execVauxLost_linkFaultInBar
  obtain rfl : u = t := Host.Outcome.next.inj (hu.symm.trans ht)
  have hkept : u.bar.released = linkFaultInBar.bar.released := by
    rw [hbar]
    rfl
  rw [hempty] at hkept
  cases hkept

/-- A frame in EXEC in which the bead in slot 0 of rod 0 waits for one burst, with a credit at the frame port that a granted quantum and
the access's charge leave as it is. -/
def creditAtPort : State :=
  { State.reset with
    fr := { State.reset.fr with phase := .exec }
    rods := [(0, { waiting := [(0, false)] })]
    port := { credit := [(nodeCode [0, 0], 1)] } }

/-- The arbiter after its grant in that state: the leaf still has its credit. -/
def creditLeft : Arb := { last := [(0, 1), (1, 1)], credit := [(nodeCode [0, 0], 1)] }

theorem serveOne_creditAtPort :
    serveOne creditAtPort.fr.compat creditAtPort.port creditAtPort.portLeaves = (creditLeft, some ⟨[0, 0], 1, 1⟩) := by
  decide +kernel

/-- A leaf whose access has completed is no longer backlogged and loses its credit (02 R62). -/
theorem execPortAccessComplete_creditAtPort :
    ∃ t, execPortAccessComplete 0 creditAtPort = .next t ∧ t.port = { creditLeft with credit := [] } :=
  ⟨_, rfl, by decide +kernel⟩

/-- Refutes O25: the statement speaks of every state, also of one in which a leaf has more credit than its access costs; there the port is
not left as the arbiter's grant leaves it, since the rest of the credit goes with the access. -/
theorem not_frameCommands : ¬ Obligations.FrameCommands := by
  unfold Obligations.FrameCommands
  rintro ⟨-, -, hport, -, -, -, -⟩
  obtain ⟨t, ht, -, -, -, -, hgrant⟩ := hport creditAtPort 0 (by decide)
  obtain ⟨u, hu, hdropped⟩ := execPortAccessComplete_creditAtPort
  obtain rfl : u = t := Host.Outcome.next.inj (hu.symm.trans ht)
  obtain ⟨hkept, -⟩ := hgrant creditLeft ⟨[0, 0], 1, 1⟩ 0 0 serveOne_creditAtPort rfl
  have hcredit : creditLeft.credit = [] := congrArg Arb.credit (hkept.symm.trans hdropped)
  cases hcredit

end Sys2Proof.Machine
end

section
/-! SUPPORT. A state that refutes what is said of the rod watchdog: it is written out and run. -/

namespace Sys2Proof.Machine

open State

/-- A frame in EXEC in which rod 0 has a READY bead in slot 0 and, left to select, the slot number 64, which no rod has (02 R28). -/
def straySelection : State :=
  (((({ State.reset with
    pwr := { mode := .on, vaux := true }
    fr := { State.reset.fr with phase := .exec }
    rods := [(0, { select := [64] })] } : State).setReady 8).setBeadState 0 stReady).setBit R.ROD_BEAD_STATE_VALID true 0)

/-- The watchdog faults the READY bead (21 R457); the rod, idle then, starts what its selection list still holds (02 R30), and slot 64 of
rod 0 is bead 64, the first of rod 1. -/
theorem execRodWatchdog_straySelection :
    ∃ t, execRodWatchdog 0 0 straySelection = .next t ∧ t.beadState 0 = stFaulted ∧ t.beadState 64 = stRunning :=
  ⟨_, rfl, by decide +kernel⟩

/-- Refutes O26: the statement speaks of every state, also of one in which a rod's selection list holds a number beyond its 64 slots; there
the missed deadline of rod 0 starts an idle bead of rod 1. -/
theorem not_beadCommands : ¬ Obligations.BeadCommands := by
  unfold Obligations.BeadCommands
  rintro ⟨-, -, -, -, -, hwatchdog⟩
  obtain ⟨t, ht, -, -, -, -, -, -, -, -, hbeads⟩ :=
    hwatchdog straySelection 0 0 (by decide +kernel) (by decide) (by decide +kernel) (.inl rfl)
  obtain ⟨u, hu, -, hstarted⟩ := execRodWatchdog_straySelection
  obtain rfl : u = t := Host.Outcome.next.inj (hu.symm.trans ht)
  have hkept : u.beadState 64 = straySelection.beadState 64 := (hbeads 64).1 (by decide)
  have hidle : straySelection.beadState 64 = stIdle := by decide +kernel
  have hclash : stRunning = stIdle := hstarted.symm.trans (hkept.trans hidle)
  cases hclash

end Sys2Proof.Machine
end
